-- ==== Sys2Proof/Word.lean ====
section
/-! DEFINITION. The words of the LG9128: what the manual adds, shifts, masks or shows to software as a word. -/

namespace Sys2Proof

/-- 8 bits: the unit of every addressed memory (R10). -/
abbrev Byte := BitVec 8

/-- A 16-bit field. -/
abbrev Half := BitVec 16

/-- A 32-bit word: a parameter value (Table 0.6), an engine register (R102), a front-desk register (R303). -/
abbrev Word := BitVec 32

/-- A 64-bit word: a stream word (R37), a tick count (R75), an event record (R304). -/
abbrev DWord := BitVec 64

end Sys2Proof
end

