-- ==== Sys2Proof/Syntax.lean ====
section
/-! DEFINITION. The commands of the LG9128: one constructor of `Instr` per row of spec/opcode_table.json.
The table gives its rows no operands and no bits; the operands below are the quantities the rule named by
the row reads from outside the part (log entry 1). -/

namespace Sys2Proof

/-- The origins of writes, Table 13.1 (R291). -/
inductive Origin where
  | hardware | aelko | parent | spareLane | spi | jtag | enginePort
  deriving DecidableEq, Repr

/-- The code of an origin, Table 13.1. -/
def Origin.code : Origin → Nat
  | .hardware => 0 | .aelko => 1 | .parent => 2 | .spareLane => 3 | .spi => 4 | .jtag => 5 | .enginePort => 6

/-- The two ports of a memory part (R267). -/
inductive MemPort where
  | a | b
  deriving DecidableEq, Repr

/-- The special symbols of the 8b/10b code (R253). -/
inductive KSymbol where
  | k28_0 | k28_1 | k28_2 | k28_3 | k28_4 | k28_5 | k28_6 | k28_7 | k23_7 | k27_7 | k29_7 | k30_7
  deriving DecidableEq, Repr

/-- The special symbols that the courier uses, Table 10.1. -/
inductive Special where
  | comma | sof | lantern | eof | mark | preempt | skip
  deriving DecidableEq, Repr

/-- What a special symbol stands for, Table 10.1; none for one not in the table. -/
def KSymbol.use : KSymbol → Option Special
  | .k28_5 => some .comma | .k27_7 => some .sof | .k28_3 => some .lantern | .k29_7 => some .eof | .k28_1 => some .mark
  | .k28_6 => some .preempt | .k28_0 => some .skip
  | .k28_2 | .k28_4 | .k28_7 | .k23_7 | .k30_7 => none

/-- What the courier finds of a received frame beside its fields (R218, R220, R221, R254, R259): the LINK byte, whether its
check value matches, the code and disparity violations (elastic-buffer errors among them) that each lane of the port, its lowest first, met inside
the frame (`viols`) and since the frame before it (`idle`), the special symbols met inside the frame (`specials`) and since the frame before it
(`idleSpecials`), each with its lane, and whether its size, direction and form match its type. -/
structure FrameMeta where
  link : Byte
  checkOk : Bool
  viols : List Nat
  idle : List Nat
  specials : List (Nat × KSymbol)
  idleSpecials : List (Nat × KSymbol)
  formOk : Bool
  deriving DecidableEq, Repr

/-- Whether a frame holds a code or disparity violation (R221, R222); a special symbol not in Table 10.1 is one (R218). -/
def FrameMeta.codeViolation (m : FrameMeta) : Bool := m.viols.any (fun n => n != 0) || m.specials.any (fun k => k.2.use.isNone)

/-- The violations that a lane met inside a frame and since the frame before it (R218, R254, R259). -/
def FrameMeta.laneViols (m : FrameMeta) (lane : Nat) : Nat :=
  (m.viols[lane]?).getD 0 + (m.idle[lane]?).getD 0 + ((m.specials ++ m.idleSpecials).filter (fun k => k.1 = lane && k.2.use.isNone)).length

/-- The frame with its violations put aside: those of a DATA frame discard nothing (R221, R222). -/
def FrameMeta.clean (m : FrameMeta) : FrameMeta := { m with viols := [], idle := [], specials := [], idleSpecials := [] }

/-- A timestamp carried in a TIME frame (Table 10.12): tick and fine part. -/
structure Stamp where
  tick : DWord
  fine : BitVec 10
  deriving DecidableEq, Repr

/-- The timestamp of a PTP message as it arrives: a tick and fine part in a TIME frame, PTP form on 1000BASE-X (R76, Table 10.12): seconds, nanoseconds
and units of 2⁻¹⁶ ns. -/
inductive WireStamp where
  | device (t : Stamp)
  | ptp (seconds : BitVec 48) (ns : Word) (sub : Half)
  deriving DecidableEq, Repr

/-- The MAC head of a frame received on 1000BASE-X (Table 11.9): destination, EtherType, whether it is tagged, and its size in bytes. -/
structure MacHead where
  dest : BitVec 48
  etherType : Half
  tagged : Bool
  size : Nat
  deriving DecidableEq, Repr

/-- What arrives with a PTP message (R83): what the courier finds of its frame, its MAC head where it comes over 1000BASE-X, and its domainNumber. -/
structure TimeMeta where
  frame : FrameMeta
  mac : MacHead
  domain : Byte
  deriving DecidableEq, Repr

/-- The parameter items whose write is a CHAN_CONFIG_WRITE (R49). -/
inductive ChanItem where
  | thresh | hyst | polarity | term
  deriving DecidableEq, Repr

/-- The parameter items whose write is a REFIN_SETTING_WRITE (R61). -/
inductive RefinItem where
  | mode | prescale | edge
  deriving DecidableEq, Repr

/-- The parameter items whose write is a PFE_FILTER_WRITE (R379). -/
inductive FilterItem where
  | order | decim | interleave
  deriving DecidableEq, Repr

/-- The parameter items whose write is a PFE_EXCITATION_WRITE (R379); `iExc` names its input. -/
inductive ExcItem where
  | excAMode | excAI | excBI
  | iExc (input : Fin 32)
  deriving DecidableEq, Repr

/-- The waybill of a record (Table 10.18), without its CRC-32C, which the frame's check covers. -/
structure Waybill where
  children : Nat
  kind : BitVec 3
  compressed : Bool
  corrupt : Bool
  truncated : Bool
  partialFlag : Bool
  step : Bool
  suspect : Bool
  source : Half
  incarnation : Byte
  codec : Byte
  absent : Half
  event : Word
  start : DWord
  length : Word
  payload : Nat
  deriving DecidableEq, Repr

/-- A mailbox block as a CTRL frame carries it (Table 13.3): header bytes and payload bytes. -/
abbrev Block := List Byte

/-- The fields of a CTRL frame (Table 10.8). -/
structure CtrlFrame where
  up : Bool
  bcast : Bool
  mailbox : BitVec 3
  hops : BitVec 4
  route : Word
  source : Half
  array : BitVec 4
  block : Block
  deriving DecidableEq, Repr

/-- The fields of a DATA frame (Table 10.9); `waybillOk` says that the waybill's own CRC-32C matches. -/
structure DataFrame where
  first : Bool
  last : Bool
  offset : Nat
  waybill : Waybill
  waybillOk : Bool
  segment : List Byte
  deriving DecidableEq, Repr

/-- The fields of a PRIM frame (Table 10.10). -/
structure PrimFrame where
  source : Half
  engine : BitVec 7
  array : BitVec 4
  tick : DWord
  body : DWord
  deriving DecidableEq, Repr

/-- The fields of an ACCEPT frame (Table 10.11): an accept (R152). -/
structure Accept where
  event : Word
  start : DWord
  length : Word
  launch : DWord
  deriving DecidableEq, Repr

/-- The fields of an ADMIT frame (Table 10.15), its kind apart: the kind is the command row. -/
structure AdmitFrame where
  link : Byte
  argument : Byte
  device : Half
  array : BitVec 4
  lanes : BitVec 3
  stepping : Byte
  release : Half
  deriving DecidableEq, Repr

/-- The fields of an EVQ frame (Table 10.15). -/
structure EvqFrame where
  hops : BitVec 4
  route : Word
  source : Half
  array : BitVec 4
  records : List DWord
  deriving DecidableEq, Repr

/-- How a Sync arrived at a domain (R84): the fine part of the instant of its MARK, and the phase between the recovered clock and the timebase in 2⁻¹⁶ ns. -/
structure Arrival where
  fine : BitVec 10
  phase : Int
  deriving DecidableEq, Repr

/-- A lock of all lanes of a port: the lanes whose pair is inverted, and the comma-alignment offsets that their receivers record, the lowest lane first (R84, R254,
R256). -/
structure LaneLock where
  inverted : BitVec 4
  commas : List Nat
  deriving DecidableEq, Repr

/-- A port without lock 10 ms after step 1 or after the signal appeared: the lanes, of its own, whose receivers have found inverted commas by then (R256). -/
structure NoLock where
  port : Fin 18
  inverted : BitVec 4
  deriving DecidableEq, Repr

/-- A relock of all lanes of a port at a new rung, with the comma-alignment offsets recorded, the lowest lane first (R84, R256). -/
structure Relock where
  port : Fin 18
  commas : List Nat
  deriving DecidableEq, Repr

/-- A training ordered set received on one lane (Table 11.4); `ok` says its CRC-16 matches and its reserved
fields are 0 (R255). -/
structure TrainSet where
  ok : Bool
  rung : BitVec 3
  laneIndex : BitVec 2
  width : BitVec 3
  fromChild : Bool
  seen : Bool
  pass : Bool
  errors : Half
  device : Half
  deriving DecidableEq, Repr

/-- The kinds of training ordered sets, Table 11.4. -/
inductive SetKind where
  | cap | step | ack | go | start | verdict
  deriving DecidableEq, Repr

/-- The code of a kind, Table 11.4. -/
def SetKind.code : SetKind → Nat
  | .cap => 1 | .step => 2 | .ack => 3 | .go => 4 | .start => 5 | .verdict => 6

/-- One block of a multi-block transfer (Table 14.1), with the CONT flag of its mailbox block. -/
structure TransferBlock where
  cont : Bool
  selector : Word
  offset : Word
  total : Word
  data : List Byte
  deriving DecidableEq, Repr

/-- What ACQ_LAUNCH queues (Table 14.9). -/
inductive LaunchBody where
  | accept (event : Word) (start : DWord) (length : Word)
  | test (tag : Word)
  | ctrl (mailbox : Byte) (hops : Byte) (route : Word) (block : Block)
  | badKind (kind : Byte)
  deriving DecidableEq, Repr

/-- The Aelko 2.4 commands with the fields of their payloads (Tables 14.3–14.16), unchecked. -/
inductive AelkoCmd where
  | sysIdentify
  | sysFdRead (addr words : Half)
  | sysFdWrite (addr : Half) (value : Word)
  | sysReset (key : Word)
  | sysImageWrite (block : TransferBlock)
  | sysImageRead (kind bank : Byte) (inst : Half) (offset : Word) (length : Half)
  | sysBootSelect (bank : Byte)
  | sysConfigSave
  | maintGrant (origins : Byte) (seconds : Word)
  | maintRevoke (origins : Byte)
  | sealPart (key : Word)
  | paramWrite (addr value : Word)
  | paramRead (addr : Word)
  | paramWriteList (pairs : List (Word × Word))
  | paramReadList (addrs : List Word)
  | acqArm (milestone : DWord)
  | acqDisarm (milestone : DWord)
  | acqLaunch (port : Byte) (tick : DWord) (body : LaunchBody)
  | acqStatus
  | acqBookingRead (slot : Half)
  | acqRoomRead (room : Word) (first words : Byte)
  | engLoad (block : TransferBlock)
  | engRead (engine kind : Byte) (addr : Word) (length : Half)
  | engStatus (tile : Byte)
  | timeStatus
  | timeSwitch (domain : Byte)
  | timeRestep (milestone : DWord) (mode domain : Byte) (delta : DWord)
  | timeAsymConfirm (domain : Byte)
  | timeRestepCancel
  | memLogRead (first : Word) (entries : Byte)
  | memRetire (entries : List Word)
  | memRetireRead (first : Word) (entries : Byte)
  | memRead (addr : Word) (length : Half)
  | memInflate (addr bytes : Word) (format : Byte) (limit offset : Word) (length : Half)
  | ledgerRead (first : Word) (entries : Byte)
  | ledgerNote (object old new : Word)
  | pwrDomain (mask : DWord) (on : Byte)
  | pwrStatus
  | thermStatus
  | laneStatus (lane : Byte)
  | portStatus (port : Byte)
  | pfeStart (flags : Byte)
  | pfeResult
  | pfeCoefWrite (input : Byte) (coefs : List Word)
  | pfeCoefRead (input : Byte)
  | redStatus
  | redCheckpoint
  | redReadmit
  | redSwitch (key : Word)
  | redSelftest
  deriving DecidableEq, Repr

/-- The commands of the block: one constructor per row of spec/opcode_table.json, in the table's order. -/
inductive Instr where
  -- hit channels (spec/02)
  | discriminatorEdge (ch : Fin 256) (v : Int) (raw : BitVec 10)
  | blindIntervalEnd (ch : Fin 256) (tacReady : Bool)
  | blindExtensionEnd (ch : Fin 256)
  | sarSlot (ch : Fin 256)
  | reorderHoldEnd (tile : Fin 16)
  | stuckLimitExpiry (ch : Fin 256)
  | automaticReadmission (ch : Fin 256)
  | chanReadmit (o : Origin) (ch : Fin 256)
  | chanConfigWrite (o : Origin) (ch : Fin 256) (item : ChanItem) (value : Word)
  | chanModeEnable (o : Origin) (ch : Fin 256) (digital : Bool)
  | chanModeDisable (o : Origin) (ch : Fin 256)
  | blankEnd (ch : Fin 256)
  | recalibrationStart (tile : Fin 16)
  | histogramComplete (ch : Fin 256) (hist : List Nat) (moved : Int) (source : Nat)
  | recalibrationAbandon (k : Fin 261)
  -- memory, rooms, milestones (spec/12, 08, 04, 07)
  | hitWriteSlot (m : Fin 4) (p : MemPort)
  | gSlot (m : Fin 4) (p : MemPort) (flips : BitVec 72)
  | mergeEntryTimeout (m : Fin 4)
  | nightWatchRead (m : Fin 4) (flips : BitVec 72)
  | roomGrant
  | milestone
  | disarmMilestoneRelease (tile : Fin 16)
  | reductionRecords
  | pretrigElapsed
  -- reference block (spec/03)
  | refinEdge (n : Fin 5) (raw : BitVec 10)
  | gateResult (n : Fin 4)
  | gateBoundary (n : Fin 4)
  | refinFreqSnapshot (n : Fin 4)
  | refinCal (o : Origin) (n : Fin 4)
  | stamperCalComplete (n : Fin 5) (hist : List Nat) (moved : Int) (source : Nat)
  | refinSettingWrite (o : Origin) (n : Fin 4) (item : RefinItem) (value : Word)
  | dmConclude (u : Fin 4)
  | dmNSnapshot (u : Fin 4)
  | dmClear (o : Origin) (u : Fin 4)
  | coArm (o : Origin) (n : Fin 4)
  | coCancel (o : Origin) (n : Fin 4)
  | caloutPulse (n : Fin 4)
  | caloutPulseEnd (n : Fin 4)
  | ckEnEnable (o : Origin) (m : Fin 2)
  | ckEnDisable (o : Origin) (m : Fin 2)
  | clkoutSettingApply (m : Fin 2)
  | ppsEn (o : Origin) (enable : Bool)
  | ppsoutPulse
  | ppsoutPulseEnd
  | ppsinEdge (raw : BitVec 10)
  | ppsinLost
  -- network time (spec/04)
  | sync (d : Fin 2) (m : TimeMeta) (seq : Half) (oneStep : Bool) (t1 : WireStamp) (arrival : Arrival)
  | followUp (d : Fin 2) (m : TimeMeta) (seq : Half) (t1 : WireStamp)
  | delayReq (p : Fin 16) (m : FrameMeta) (seq : Half) (fine : BitVec 10)
  | delayResp (d : Fin 2) (m : TimeMeta) (seq : Half) (t4 : WireStamp)
  | announce (d : Fin 2) (m : TimeMeta) (utcOffset : Half)
  | signaling (p : Fin 18) (m : TimeMeta) (flags : Option Byte)
  | exchangeInterval
  | revertHoldExpiry
  | timeSourceWrite (o : Origin) (master : Bool)
  | dAsymWrite (o : Origin) (d : Fin 2) (value : Word)
  | launch
  | acceptFrame (p : Fin 18) (m : FrameMeta) (f : Accept)
  | primFrame (p : Fin 18) (m : FrameMeta) (f : PrimFrame)
  | primitiveTake
  -- engine instructions (spec/06)
  | add (e : Fin 128) (d a b : Fin 16)
  | sub (e : Fin 128) (d a b : Fin 16)
  | and (e : Fin 128) (d a b : Fin 16)
  | orr (e : Fin 128) (d a b : Fin 16)
  | xor (e : Fin 128) (d a b : Fin 16)
  | min (e : Fin 128) (d a b : Fin 16)
  | max (e : Fin 128) (d a b : Fin 16)
  | shl (e : Fin 128) (d a b : Fin 16)
  | shr (e : Fin 128) (d a b : Fin 16)
  | sar (e : Fin 128) (d a b : Fin 16)
  | popc (e : Fin 128) (d a : Fin 16)
  | clz (e : Fin 128) (d a : Fin 16)
  | addi (e : Fin 128) (d a : Fin 16) (imm : BitVec 18)
  | andi (e : Fin 128) (d a : Fin 16) (imm : BitVec 18)
  | orri (e : Fin 128) (d a : Fin 16) (imm : BitVec 18)
  | xori (e : Fin 128) (d a : Fin 16) (imm : BitVec 18)
  | shli (e : Fin 128) (d a : Fin 16) (imm : BitVec 5)
  | shri (e : Fin 128) (d a : Fin 16) (imm : BitVec 5)
  | sari (e : Fin 128) (d a : Fin 16) (imm : BitVec 5)
  | lui (e : Fin 128) (d : Fin 16) (imm : BitVec 18)
  | ext (e : Fin 128) (d a : Fin 16) (pos width1 : BitVec 5)
  | ins (e : Fin 128) (d a : Fin 16) (pos width1 : BitVec 5)
  | exth (e : Fin 128) (d : Fin 16) (high : Bool) (pos width1 : BitVec 5)
  | beq (e : Fin 128) (a b : Fin 16) (disp : BitVec 14)
  | bne (e : Fin 128) (a b : Fin 16) (disp : BitVec 14)
  | blt (e : Fin 128) (a b : Fin 16) (disp : BitVec 14)
  | bge (e : Fin 128) (a b : Fin 16) (disp : BitVec 14)
  | bltu (e : Fin 128) (a b : Fin 16) (disp : BitVec 14)
  | bgeu (e : Fin 128) (a b : Fin 16) (disp : BitVec 14)
  | bfs (e : Fin 128) (flag : Fin 7) (disp : BitVec 14)
  | bfc (e : Fin 128) (flag : Fin 7) (disp : BitVec 14)
  | ldd (e : Fin 128) (d a : Fin 16) (imm : BitVec 18)
  | lddh (e : Fin 128) (d a : Fin 16) (imm : BitVec 18)
  | lddb (e : Fin 128) (d a : Fin 16) (imm : BitVec 18)
  | std (e : Fin 128) (d a : Fin 16) (imm : BitVec 18)
  | stdh (e : Fin 128) (d a : Fin 16) (imm : BitVec 18)
  | stdb (e : Fin 128) (d a : Fin 16) (imm : BitVec 18)
  | ldt (e : Fin 128) (d a : Fin 16) (imm : BitVec 18) (lost : Bool)
  | stt (e : Fin 128) (d a : Fin 16) (imm : BitVec 18) (lost : Bool)
  | ldth (e : Fin 128) (d a : Fin 16) (imm : BitVec 18) (lost : Bool)
  | stth (e : Fin 128) (d a : Fin 16) (imm : BitVec 18) (lost : Bool)
  | call (e : Fin 128) (disp : BitVec 14)
  | ret (e : Fin 128)
  | tdiff (e : Fin 128) (d a b : Fin 16)
  | waitt (e : Fin 128) (a : Fin 16) (imm : BitVec 18) (lag : Fin 9)
  | poph (e : Fin 128)
  | peekh (e : Fin 128)
  | emitp (e : Fin 128) (a b : Fin 16)
  | emits (e : Fin 128) (a b : Fin 16)
  | raise (e : Fin 128) (a : Fin 16) (imm : BitVec 6)
  | yield (e : Fin 128)
  | halt (e : Fin 128)
  -- engines (spec/05)
  | watchdogExpiry (e : Fin 128)
  | automaticRestart (e : Fin 128)
  | waittWake (e : Fin 128) (lag : Fin 9)
  | yieldWake (e : Fin 128)
  | engStart (o : Origin) (e : Fin 128)
  | engStop (o : Origin) (e : Fin 128)
  | engPrivWrite (o : Origin) (e : Fin 128) (value : Word)
  -- porter and compression (spec/08, 09)
  | bookingClose (slot : Half)
  | readoutStart
  | dataRecordSent
  | bookingFetch (slot : Half) (word : Fin 8) (flips : BitVec 72)
  | roomsMapSnapshot
  | pass1End (u : Fin 4) (mismatch : Bool)
  | pass2End (u : Fin 4) (mismatch : Bool)
  | uReadmit (o : Origin) (u : Fin 4)
  | decompressionJobEnd (k : Fin 2)
  | decompressionWaitTimeout
  -- links (spec/10)
  | frameTransmit (p : Fin 18) (fine : BitVec 10)
  | ctrlFrame (p : Fin 18) (m : FrameMeta) (f : CtrlFrame)
  | dataFrame (p : Fin 18) (m : FrameMeta) (f : DataFrame)
  | completeTimeout (slot : Half)
  | evqFrame (p : Fin 18) (m : FrameMeta) (f : EvqFrame)
  | evqFrameSend
  | creditFrame (p : Fin 18) (m : FrameMeta) (limit : Nat) (granted : Word)
  | creditPeriod (p : Fin 16)
  | testFrame (p : Fin 18) (m : FrameMeta) (tag : Word)
  | lanternFrame (p : Fin 18) (m : FrameMeta) (seq device : Half) (summary : Word)
  | lanternSend
  | lanternTimeout (p : Fin 18)
  | request (p : Fin 18) (m : FrameMeta) (f : AdmitFrame)
  | grant (p : Fin 18) (m : FrameMeta) (f : AdmitFrame)
  | refuse (p : Fin 18) (m : FrameMeta) (f : AdmitFrame)
  | confirm (p : Fin 18) (m : FrameMeta) (f : AdmitFrame)
  | close (p : Fin 18) (m : FrameMeta) (f : AdmitFrame)
  | role (p : Fin 18) (m : FrameMeta) (f : AdmitFrame)
  | renew (p : Fin 18) (m : FrameMeta) (f : AdmitFrame)
  | requestRetry (p : Fin 18)
  | requestAfterRefuse (p : Fin 18)
  | grantRetry (p : Fin 16)
  | renewRetry (p : Fin 18)
  | renewalWindowEnd (p : Fin 18)
  | portDisable (o : Origin) (p : Fin 18)
  | portEnable (o : Origin) (p : Fin 18)
  | dataPathWrite (o : Origin) (spare : Bool)
  -- serial lanes (spec/11); a port is named by its number, a lane by its number
  | signalQualified (p : Fin 18)
  | laneLock (p : Fin 18) (lock : LaneLock)
  | lockTimeout (n : NoLock)
  | capSet (p : Fin 18) (lane : Fin 4) (t : TrainSet) (skew : Nat)
  | capMismatchRetry (p : Fin 18)
  | capsTimeout (p : Fin 18)
  | stepSet (p : Fin 18) (lane : Fin 4) (t : TrainSet)
  | ackSet (p : Fin 18) (lane : Fin 4) (t : TrainSet)
  | goSet (p : Fin 18) (lane : Fin 4) (t : TrainSet)
  | startSet (p : Fin 18) (lane : Fin 4) (t : TrainSet) (skew : Nat)
  | prbsEnd (p : Fin 18) (errors : List Nat)
  | verdictSet (p : Fin 18) (lane : Fin 4) (t : TrainSet)
  | verdictPeriodEnd (p : Fin 18)
  | verdictTimeout (p : Fin 18)
  | relockTimeout (p : Fin 18)
  | bringupRetry (p : Fin 18)
  | portRunning (p : Fin 18)
  | lockLost (lane : Fin 21) (cause : Fin 4)
  | laneRetrain (o : Origin) (lane : Fin 21)
  | wake (p : Fin 18)
  | lowpowerRetry (p : Fin 18)
  | wakeNoSignal (p : Fin 18)
  | anComplete (d : Fin 2) (page : Half)
  -- memory channels
  | memTrainingDone (m : Fin 4) (trained : Bool) (parts144 : Bool)
  | memRetrain (o : Origin)
  | addressParityError (m : Fin 4) (p : MemPort)
  -- mailboxes, front desk, ledger (spec/13)
  | mailboxWrite (o : Origin) (mb : Fin 8) (index : Fin 128) (value : Word)
  | doorbell (o : Origin) (value : Word)
  | mbDoneClear (o : Origin) (value : Word)
  | mailboxRound
  | evqTake
  | evqRead
  | evqFlush (o : Origin)
  | fdNowSnapshot
  | fdRegisterWrite (o : Origin) (addr : Half) (value : Word)
  | ledgerCommit
  | maintExpiry (jtag : Bool)
  -- Aelko commands (spec/14): the request that mailbox `mb` holds
  | sysIdentify (mb : Fin 8)
  | sysFdRead (mb : Fin 8) (addr words : Half)
  | sysFdWrite (mb : Fin 8) (addr : Half) (value : Word)
  | sysReset (mb : Fin 8) (key : Word)
  | sysResetExpiry
  | sysImageWrite (mb : Fin 8) (block : TransferBlock)
  | transferTimeout (mb : Fin 8)
  | sysImageRead (mb : Fin 8) (kind bank : Byte) (inst : Half) (offset : Word) (length : Half)
  | sysBootSelect (mb : Fin 8) (bank : Byte)
  | sysConfigSave (mb : Fin 8)
  | maintGrant (mb : Fin 8) (origins : Byte) (seconds : Word)
  | maintRevoke (mb : Fin 8) (origins : Byte)
  | sealPart (mb : Fin 8) (key : Word)
  | paramWrite (mb : Fin 8) (addr value : Word)
  | paramRead (mb : Fin 8) (addr : Word)
  | paramWriteList (mb : Fin 8) (pairs : List (Word × Word))
  | paramReadList (mb : Fin 8) (addrs : List Word)
  | acqArm (mb : Fin 8) (milestone : DWord)
  | acqDisarm (mb : Fin 8) (milestone : DWord)
  | acqLaunch (mb : Fin 8) (port : Byte) (tick : DWord) (body : LaunchBody)
  | acqStatus (mb : Fin 8)
  | acqBookingRead (mb : Fin 8) (slot : Half)
  | acqRoomRead (mb : Fin 8) (room : Word) (first words : Byte)
  | engLoad (mb : Fin 8) (block : TransferBlock)
  | engRead (mb : Fin 8) (engine kind : Byte) (addr : Word) (length : Half)
  | engStatus (mb : Fin 8) (tile : Byte)
  | timeStatus (mb : Fin 8)
  | timeSwitch (mb : Fin 8) (domain : Byte)
  | timeRestep (mb : Fin 8) (milestone : DWord) (mode domain : Byte) (delta : DWord)
  | timeAsymConfirm (mb : Fin 8) (domain : Byte)
  | timeRestepCancel (mb : Fin 8)
  | memLogRead (mb : Fin 8) (first : Word) (entries : Byte)
  | memRetire (mb : Fin 8) (entries : List Word)
  | memRetireRead (mb : Fin 8) (first : Word) (entries : Byte)
  | memRead (mb : Fin 8) (addr : Word) (length : Half)
  | memInflate (mb : Fin 8) (addr bytes : Word) (format : Byte) (limit offset : Word) (length : Half)
  | ledgerRead (mb : Fin 8) (first : Word) (entries : Byte)
  | ledgerNote (mb : Fin 8) (object old new : Word)
  | pwrDomain (mb : Fin 8) (mask : DWord) (on : Byte)
  | pwrStatus (mb : Fin 8)
  | thermStatus (mb : Fin 8)
  | laneStatus (mb : Fin 8) (lane : Byte)
  | portStatus (mb : Fin 8) (port : Byte)
  | pfeStart (mb : Fin 8) (flags : Byte)
  | pfeResult (mb : Fin 8)
  | pfeCoefWrite (mb : Fin 8) (input : Byte) (coefs : List Word)
  | pfeCoefRead (mb : Fin 8) (input : Byte)
  | redStatus (mb : Fin 8)
  | redCheckpoint (mb : Fin 8)
  | redReadmit (mb : Fin 8)
  | redSwitch (mb : Fin 8) (key : Word)
  | redSelftest (mb : Fin 8)
  -- redundancy (spec/15)
  | lockstepMismatch (cause : Fin 5)
  | spareBootComplete (bank0Ok bank1Ok : Bool)
  | pairBootComplete
  | checkpointDue
  | spareWatchdogExpiry
  | fenceHit
  | selftestPeriodExpiry
  | selftestComplete (failed : BitVec 7) (micros : Word) (temperature : Half) (corrected : Half)
  | dataPathHoldExpiry
  -- power, reset, thermal (spec/16)
  | poresetAssert
  | poresetRelease (maintStrap : Bool)
  | pairSelftestComplete (pass : Bool)
  | pwrgoodFall
  | pwrgoodLowExpiry
  | pwrgoodRise
  | resetDoneToken (sender receiver : Fin 51)
  | wReset (crossing : Fin 28)
  | sensorSample (sensor : Fin 17) (reading : Int)
  | rateUpdate
  | sReadmit (o : Origin) (sensor : Fin 17)
  | holdSample (microvolts : Nat)
  | capacitanceTestEnd (fallMicros : Nat)
  | holdCapWrite (o : Origin) (value : Word)
  | mramBatchStart
  | mramBatchEnd
  -- precision front end (spec/17)
  | pfeWordEnd (u : Int)
  | burnoutTestEnd (u : Int)
  | pfeDelayEnd
  | pfeModeWrite (o : Origin) (value : Word)
  | pfeSelectWrite (o : Origin) (value : Word)
  | pfeFilterWrite (o : Origin) (item : FilterItem) (value : Word)
  | pfeExcitationWrite (o : Origin) (item : ExcItem) (value : Word)
  | excitationTrip (excB : Bool)
  | excitationRelease (excB : Bool)
  | dacLoopUpdate (d : Fin 8)
  | dacTemperatureTimeout (d : Fin 8)
  -- rows that stand last in the table
  | illegalInstruction (e : Fin 128)
  | engineRecordTake
  | dataFrameAbort (p : Fin 18) (units : Nat)
  | relockComplete (r : Relock)
  | signalDetectChange (lane : Fin 21) (present : Bool)
  | refclkMissing (refclk125 : Bool)
  | clkoutEdge (m : Fin 2) (rising : Bool)
  | spareMemoryUncorrectable
  deriving DecidableEq, Repr

end Sys2Proof
end

