-- ==== Sys2Proof/Config.lean ====
section
/-! DEFINITION. What the implementation or the board fixes and the spec does not state. Every constant here has no
body: nothing can be proved of its value. Those that take a counter are free values (log entry 5). -/

namespace Sys2Proof.Config

open Sys2Proof

/-- The increments of the factory linearisation table of a channel or stamper whose images fail their checks (R41, R42): the fine code of a raw code. -/
opaque factoryFine (channel raw : Nat) : Nat

/-- The span and base of the factory table of a channel (Table 2.7): span-low, span-high. -/
opaque factorySpan (channel : Nat) : Nat × Nat

/-- The calibration temperature that the factory table of a channel carries (Table 2.7), in 1/16 °C. -/
opaque factoryTemp (channel : Nat) : BitVec 16

/-- The factory coefficients of the stampers' TAC current reference in the calibration area of MRAM (R59, R44): the trim code at the reference temperature,
that temperature in 1/16 °C, and the coefficient in ppm/°C. -/
opaque stamperTac : Nat × Int × Int

/-- The codes that a unit chooses for a dynamic Huffman block of the tokens given (R204 bounds their lengths and gives no rule for choosing them): the lengths of
the literal/length codes and of the distance codes, the code-length symbols that spell both with the values of their extra bits, and the lengths of the
code-length codes. -/
opaque huffman (tokens : List (Nat × Nat)) : List Nat × List Nat × List (Nat × Nat) × List Nat

/-- The codec of a format 1 decompression source: it stands in the waybill, which the job is not given (R197, R212). -/
opaque sourceCodec (source : List Byte) : Byte

/-- The rate correction the servo asks for after an exchange, in 10⁻¹⁵ (R81, R87 give its limits and not its arithmetic); the arguments are the
filtered offset, the rate in force and a counter. -/
opaque servoRate (offset rate : Int) (count : Nat) : Int

/-- A filtered offset or mean path delay after an exchange (R85, R87 name the filter and not its arithmetic); the arguments are the value
before, the exchange's own value and a counter. -/
opaque filtered (value measured : Int) (count : Nat) : Int

/-- The rate of a domain's reference after an exchange, in 10⁻¹⁵ (R84, R89 name what it is taken from and not the arithmetic); the arguments are the phase of the
recovered clock where the domain is syntonised, the exchange's offset, the rate before and a counter. -/
opaque trackedRate (phase : Option Int) (offset rate : Int) (count : Nat) : Int

/-- The fixed receive and transmit latency of a lane at a rung, 5 for 1000BASE-X, in fine steps, from the factory tables in the calibration area of MRAM (R84). -/
opaque rxLatency (lane rung : Nat) : Int
/-- The transmit latency of a lane at a rung, as `rxLatency`. -/
opaque txLatency (lane rung : Nat) : Int

/-- The latency, in fine steps, of a comma-alignment offset at a rung (R84). -/
opaque commaLatency (rung offset : Nat) : Int

/-- The rate error, in fine steps, that accrues from the eight exchanges of the first step to its milestone (R88 gives no arithmetic for it). -/
opaque accruedError (offset rate : Int) (count : Nat) : Int

/-- Which way a quotient exactly halfway between two integers rounds, where the spec rounds without a rule for ties (R43, R44, R76, R366, R385). -/
opaque tieUp (num den : Int) : Bool

/-- The upset of an on-chip memory that comes about in a tick, if any (R26, R288; the spec states none): the memory as `memoryDomain` numbers it, the word, and whether
two bits of it flip. -/
opaque softError (count : Nat) : Option (Nat × Nat × Bool)

/-- The flipped word of an on-chip memory other than those of the engines that its owner reads in a tick, if any (R288; the spec states no times of such reads): the
memory as `memoryDomain` numbers it and the word. -/
opaque onchipRead (count : Nat) : Option (Nat × Nat)

/-- The island that receives a control signal which merges with the one before it in a tick, if any does (R357; the spec states no times of such signals). -/
opaque mergedSignal (count : Nat) : Option (Fin 51)

/-- The number that ONCHIP_UE and the error log give a memory of Table 1.5 (R288 names it and does not state the numbers). -/
opaque onchipId (memory : Nat) : BitVec 16

/-- The sign and payload bits of the quiet NaN that binary32 arithmetic gives (R383 names a quiet NaN and not its bits). -/
opaque nanBits : BitVec 23

/-- A byte of MRAM that nothing has written since the factory, by address: the spec gives no content for it. -/
opaque mramByte (address : Nat) : Byte

/-- A word that the spec leaves open, by a counter. -/
opaque freeWord (count : Nat) : DWord

end Sys2Proof.Config
end

