-- ==== Sys2Proof/Machine/Types.lean ====
section
/-! DEFINITION. The data types State is made of: hit path, engines, time and the reference block. All plain data. -/

namespace Sys2Proof.Machine

open Sys2Proof

/-- An addressed memory: (address, byte) pairs, addresses strictly rising, no entry equal to what an unlisted
address reads as (0: R110, R295; for external memory and MRAM see log entry 3). -/
abbrev Memory := List Host.Cell

/-- The parameter store: (address, value) pairs, addresses strictly rising, no entry equal to the item's reset value. -/
abbrev Params := List (Nat × Nat)

/-- Completion status codes, Table 0.7 (R14). -/
inductive Status where
  | ok | busy | denied | badarg | memerr | restarted | deferred | unknown | timeout
  deriving DecidableEq, Repr

/-- The code of a completion status, Table 0.7. -/
def Status.code : Status → Nat
  | .ok => 0 | .busy => 1 | .denied => 2 | .badarg => 3 | .memerr => 4 | .restarted => 5 | .deferred => 6 | .unknown => 7 | .timeout => 8

/-! ### Hit channels (spec/02) -/

/-- Channel states, Table 2.10 (R48). -/
inductive ChanState where
  | disabled | waitInactive | running | blanked | calibrating | quarantined
  deriving DecidableEq, Repr

/-- The code CHAN.STATE reads, Table 2.10. -/
def ChanState.code : ChanState → Nat
  | .disabled => 0 | .waitInactive => 1 | .running => 2 | .blanked => 3 | .calibrating => 4 | .quarantined => 5

/-- A captured edge (R30): its coarse tick (the device tick counter), the device's fine base and the number of steps applied then, and the raw
code of its charge. -/
structure Edge where
  tick : DWord
  base : BitVec 10
  epoch : Nat
  raw : BitVec 10
  deriving DecidableEq, Repr

/-- How a hit ended (R32, R33, R39, R50, R52); `normal` has a timed trailing edge. -/
inductive HitEnd where
  | openHit | normal | totZero | cutByBlank | stuck
  deriving DecidableEq, Repr

/-- A derandomiser entry (R36): one hit. `leadFine` and `trailFine` are the linearised codes once converted;
`offset` is the CHAN.OFFSET in force at the leading edge (R38). -/
structure HitEntry where
  lead : Edge
  trail : Option Edge
  leadFine : Option (BitVec 10)
  trailFine : Option (BitVec 10)
  status : HitEnd
  pileup : Bool
  offset : Int
  deriving DecidableEq, Repr

/-- A running blind interval (R32, R33): the edge it follows, whether a transition fell inside, whether it is the
extension, and if so whether the hit is still open (sixth row of Table 2.3). -/
structure Blind where
  leading : Bool
  transition : Bool
  extended : Bool
  deriving DecidableEq, Repr

/-- A running blank (R49, R50): the measurement-clock count at which it ends, whether its BLANK_START was emitted,
and the hits discarded in it. -/
structure Blank where
  ends : Nat
  emitted : Bool
  discarded : Nat
  deriving DecidableEq, Repr

/-- A linearisation image as loaded (Table 2.7, R42). -/
structure LinTable where
  channel : Nat
  valid : Bool
  factory : Bool
  spanLow : Nat
  spanHigh : Nat
  base : Nat
  calTemp : Int
  trim : Nat
  edges : Nat
  inc : List Nat
  deriving DecidableEq, Repr

/-- The settings of R49 as they are in force in the front end (R51: a write may be stored and not yet applied). -/
structure FrontEnd where
  thresh : Nat
  hyst : Nat
  mode : Nat
  polarity : Nat
  term : Nat
  deriving DecidableEq, Repr

/-- One channel (R27–R56). Its counters and written settings are in the parameter store; writes stored and not applied (R51) are those the
store holds and `front` does not. `calWaiting` says that its turn came while it was BLANKED (R45), `calDue` that it is to be taken ahead of the order, and
`calPosted` that CAL_DUE has been posted for the present difference of temperature (R46). -/
structure Channel where
  state : ChanState
  level : Bool
  volts : Int
  front : FrontEnd
  entries : List HitEntry
  blind : Option Blind
  blank : Option Blank
  stuckFrom : Option Nat
  inactiveFrom : Option Nat
  offset : Int
  table : Option LinTable
  tableBuilt : Option Nat
  stagedTable : Option LinTable
  calStart : Option Nat
  calOutcome : Option Nat
  calWaiting : Bool
  calDue : Bool
  calPosted : Bool
  deriving DecidableEq, Repr

/-! ### Tiles (spec/01, 02) -/

/-- A word held by the tile hit merger (R19): the stream word, its corrected time in fine steps, and the number of
place among the steps applied (the barrier of R80): twice their number when it was stamped, and of a STEP word one less than that of the words
stamped after it. -/
structure HeldWord where
  word : DWord
  time : Int
  rank : Nat
  since : Nat
  deriving DecidableEq, Repr

/-- A primitive in a tile or device queue (R115, R164), with the fields its PRIM frame adds. -/
abbrev Primitive := PrimFrame

/-- An EMITS record in a tile's reduction queue (R116): engine, record, short tick of its EMITS and the engine's record sequence number (R172). -/
structure EmitsRecord where
  engine : Nat
  body : DWord
  tick : BitVec 30
  seq : Nat
  deriving DecidableEq, Repr

/-- One tile. `banks` gives of each table bank the engine cycle from which it is free (R105, R139). -/
structure TileState where
  held : List HeldWord
  output : List DWord
  lastLeft : Option (Nat × Int)
  disarmWord : Option DWord
  prims : List Primitive
  records : List EmitsRecord
  table : Memory
  tableCe : List Nat
  tableBad : List Nat
  banks : Vector Nat 4
  calNext : Nat
  calLast : Nat
  deriving DecidableEq, Repr

/-! ### Engines (spec/05) -/

/-- Engine states, Table 5.5. -/
inductive EngState where
  | stopped | running | sleeping | waiting | halted | trapped
  deriving DecidableEq, Repr

/-- The code ENG.STATE reads, Table 5.5. -/
def EngState.code : EngState → Nat
  | .stopped => 0 | .running => 1 | .sleeping => 2 | .waiting => 3 | .halted => 4 | .trapped => 5

/-- What the last instruction loads and the next one would stall on (Table 5.1). -/
inductive LoadResult where
  | none | reg (r : Fin 16) | hitRegs
  deriving DecidableEq, Repr

/-- A copy in an engine's input queue (R113) and the measurement-clock count at which it entered. -/
structure QueueWord where
  word : DWord
  entered : Nat
  deriving DecidableEq, Repr

/-- A submission register of the port window (R106, R109): status of the last submission and PENDING. -/
structure Submission where
  status : Nat
  pending : Bool
  deriving DecidableEq, Repr

/-- One engine (Tables 5.2, 5.3, 5.4). FLAGS bits: 0 Z, 1 N, 2 C, 3 V, 4 E, 5 D, 6 L. `ready` is the engine cycle in which its next instruction may enter X
(R101); `imemCe` and `dmemCe` list the words with one flipped bit, `imemBad` and `dmemBad` the uncorrectable ones (R110, R288). `late` holds the copies that found
the queue full in the running cycle: a POPH of that cycle still makes room for one, the others are dropped as the cycle ends (R12, R113, R141). -/
structure Engine where
  state : EngState
  v : Vector Word 16
  h0 : Word
  h1 : Word
  pc : BitVec 11
  flags : BitVec 7
  imem : Memory
  imemCe : List Nat
  imemBad : List Nat
  dmem : Memory
  dmemCe : List Nat
  dmemBad : List Nat
  queue : List QueueWord
  late : List QueueWord
  watchdog : Nat
  restarts : Nat
  loaded : LoadResult
  trapCause : Nat
  trapPc : BitVec 11
  trapCycle : Nat
  ready : Nat
  waitTarget : BitVec 30
  dropped : Nat
  accStart : Word
  accLength : Word
  accLaunch : Word
  accGo : Submission
  pwAddr : Word
  pwValue : Word
  pwGo : Submission
  deriving DecidableEq, Repr

/-! ### Network time (spec/04) -/

/-- Servo states, Table 4.5. -/
inductive Servo where
  | freerun | acquire | coarse | fine | locked | holdover | master
  deriving DecidableEq, Repr

/-- The code of a servo state, Table 4.5. -/
def Servo.code : Servo → Nat
  | .freerun => 0 | .acquire => 1 | .coarse => 2 | .fine => 3 | .locked => 4 | .holdover => 5 | .master => 6

/-- An exchange in progress on a domain (R85, R86): its timestamps in units of 2^-16 ns of PTP time, the sequence
numbers of its Sync and Delay_Req, and whether something already spoils it. -/
structure Exchange where
  seq : Option Half
  t1 : Option Int
  t2 : Option Int
  reqSeq : Half
  reqSent : Bool
  t3 : Option Int
  epoch : Nat
  bad : Bool
  deriving DecidableEq, Repr

/-- One time domain (R85–R94). Offsets and delays are in units of 2^-16 ns. `healthySince` is the
measurement-clock count since which the domain has been healthy; `pathRef` the path delay at the last path change, none until an exchange after a change of
lane has shown it, and `pathShift` what that change moved the offset by (R93); `asymShift` what writes of TIME.D_ASYM
have moved the offset by while it is still slewed out (R94). `raw` is the offset of the last valid exchange, `measured` says that the filters hold a value,
`pathRun` holds the clock counts and path delays of the last valid exchanges in a row, `phase` the phase of the recovered clock last measured (R84), and `rates`
the tracked rates of the domain, newest first, with their clock counts (R95). -/
structure Domain where
  lost : Bool
  masterJump : Bool
  pathChanged : Bool
  tracking : Bool
  l1sync : Bool
  proposalValid : Bool
  proposalHoldover : Bool
  offset : Int
  mpd : Int
  proposal : Int
  exchange : Exchange
  consecutive : Nat
  missed : Nat
  recent : List Int
  jumps : List Int
  within : Nat
  pathRun : List (Nat × Int)
  pathRef : Option Int
  pathShift : Int
  asymShift : Int
  collecting : Option (Nat × Int)
  healthySince : Option Nat
  measured : Bool
  raw : Int
  phase : Option Int
  rate : Int
  rates : List (Nat × Int)
  deriving DecidableEq, Repr

/-- A pending re-step (R92). -/
structure Restep where
  milestone : DWord
  adopt : Bool
  domain : Fin 2
  delta : Int
  origin : Origin
  tag : Half
  deriving DecidableEq, Repr

/-- A frame queued for launch (R96, R328). -/
inductive LaunchFrame where
  | accept (a : Accept)
  | test (tag : Word)
  | ctrl (mailbox : BitVec 3) (hops : BitVec 4) (route : Word) (block : Block)
  deriving DecidableEq, Repr

/-- What is kept of an accept's receipt: ACQ.PRETRIG, ACQ.MAX_BOOKINGS and ACQ.TAIL as they stood (R176), the clock count at which it entered the launch
queue, and its place among the accepts of one cycle (R161). -/
structure Receipt where
  pretrig : Nat
  maxBookings : Nat
  tail : Nat
  entered : Nat
  place : Nat
  deriving DecidableEq, Repr

/-- An entry of the launch queue (R96): a booking opening (`station` names the engine that submitted it) or a frame. -/
inductive LaunchEntry where
  | booking (a : Accept) (station : Option (Fin 128)) (r : Receipt)
  | frame (tick : DWord) (port : Fin 16) (f : LaunchFrame) (tag : Half)
  deriving DecidableEq, Repr

/-- The launch tick of an entry. -/
def LaunchEntry.tick : LaunchEntry → DWord
  | .booking a _ _ => a.launch
  | .frame t _ _ _ => t

/-- The timebase (PD30). `clock` counts the edges of the measurement clock since PD30 came out of reset and is never
stepped; `tick` and `fine` are device time (R75). `everLocked` says that the servo has been LOCKED (R71). `seen` lists the domains that have had a valid exchange in the running exchange interval; `stepAt` lists the milestones at which steps took effect (R80), newest first. -/
structure TimeState where
  clock : Nat
  tick : DWord
  fine : BitVec 10
  servo : Servo
  active : Fin 2
  stepped : Bool
  everLocked : Bool
  epoch : Nat
  firstStep : Option (DWord × Int × Fin 2)
  restep : Option Restep
  domains : Vector Domain 2
  lockRun : Nat
  unlockRun : Nat
  sawHoldover : Bool
  sawSwitch : Bool
  rate : Int
  correction : Int
  limited : Bool
  lastStep : Int
  holdStart : Option Int
  driftPosted : Bool
  bothJumped : Bool
  nextSeq : Half
  seen : List (Fin 2)
  lastMilestone : Option DWord
  stepAt : List DWord
  queue : List LaunchEntry
  deriving DecidableEq, Repr

/-! ### Reference block (spec/03) -/

/-- A stamper (R58): the clock times, in fine steps, of the last edges its two TACs took, its table, and a table
that waits for the next milestone (R323), and whether it is being recalibrated (R60). -/
structure Stamper where
  tacs : List Nat
  lastEdge : Option Nat
  table : Option LinTable
  staged : Option LinTable
  calibrating : Bool
  calStart : Nat
  deriving DecidableEq, Repr

/-- A gate that an edge has closed and whose result is still to come (R62, R63): t[k], b[k+1], t[k+1] where that edge was stamped, the edge count,
whether nothing made it invalid before its closing edge, and its flags as they stand in REFIN.STATUS [5:2]. -/
structure ClosedGate where
  opened : Int
  boundary : Int
  stamp : Option Int
  edges : Nat
  sound : Bool
  flags : Nat
  deriving DecidableEq, Repr

/-- The gate of a reference input (R62, R63). `opened` is the stamp t[k] of the gate that awaits its closing edge, the first at or after `boundary`; its edges and
flags stand here. `closing` is a gate that awaits GATE_RESULT. From `lostTo` on no edge has come: the gates between two boundaries from there on are LOS. `late`
gives of the flags STEP, HOLDOVER and CALIBRATING (by their weights) the time at which they last stood. -/
structure Gate where
  opened : Option Int
  boundary : Int
  edges : Nat
  closing : Option ClosedGate
  first : Bool
  noStamp : Bool
  overspeed : Bool
  step : Bool
  holdover : Bool
  calibrated : Bool
  lostTo : Int
  late : List (Nat × Int)
  lost : Bool
  seq : Half
  freq : DWord
  count : BitVec 48
  span : DWord
  phase : Word
  status : Half
  deriving DecidableEq, Repr

/-- A delay unit (R65–R67). -/
structure DelayUnit where
  start : Option Int
  startClock : Nat
  stops : List Int
  stepped : Bool
  n : Nat
  first : Int
  sum : Int
  sumsq : DWord
  last : Int
  sat : Bool
  deriving DecidableEq, Repr

/-- A running or armed CALOUT train (R68): its latched settings and the index of its next pulse. -/
structure Train where
  tick : DWord
  fine : Nat
  width : Nat
  period : Nat
  count : Nat
  next : Nat
  deriving DecidableEq, Repr

/-- A CALOUT output: its train, the pulses launched of it, the clock count at which the active pulse ends, and whether the block drives the pin (R394). -/
structure CalOut where
  train : Option Train
  launched : Nat
  active : Option Nat
  driven : Bool
  deriving DecidableEq, Repr

/-- A CLKOUT output (R70). `staged` holds CK_M, CK_D and CK_OFFSET that wait for the second `stagedAt`; `applied` holds CK_M, CK_D, CK_OFFSET and the
second S of the setting in force; `edge` is the index j of its next rising edge, below 0 where a backward step has gone behind S; `driven` whether the block
drives the pin (R394). -/
structure ClkOut where
  enabled : Bool
  staged : Option (Nat × Nat × Int)
  stagedAt : DWord
  stopping : Bool
  applied : Option (Nat × Nat × Int × DWord)
  edge : Int
  level : Bool
  driven : Bool
  deriving DecidableEq, Repr

/-- PPSOUT and PPSIN (R71, R72); `driven` says that the block drives PPSOUT (R394). -/
structure Pps where
  enabled : Bool
  offset : Int
  staged : Option (Int × DWord)
  level : Bool
  started : Nat
  lastSecond : Option Nat
  inValid : Bool
  inLast : Option Nat
  inOffset : Int
  driven : Bool
  deriving DecidableEq, Repr

/-- The reference block (PD31). Stamper 4 is PPSIN's; `trim` is the trim code of the stampers' TAC current reference (R59), none while it stands at its factory value. -/
structure RefBlock where
  trim : Option Nat
  stampers : Vector Stamper 5
  gates : Vector Gate 4
  units : Vector DelayUnit 4
  calout : Vector CalOut 4
  clkout : Vector ClkOut 2
  pps : Pps
  deriving DecidableEq, Repr

end Sys2Proof.Machine
end

