-- ==== Sys2Proof/Machine/Sparse.lean ====
section
/-! DEFINITION. Sparse data by key in one canonical form: keys strictly rising, and no entry equal to what an unlisted
key reads as. Memory and the parameter store are such lists. -/

namespace Sys2Proof.Machine

open Sys2Proof

variable {α : Type}

/-- The entry of a key, if it is listed. -/
def sfind (k : Nat) : List (Nat × α) → Option α
  | [] => none
  | (j, v) :: m => if j = k then some v else if k < j then none else sfind k m

/-- The list without a key. -/
def sdrop (k : Nat) : List (Nat × α) → List (Nat × α)
  | [] => []
  | (j, v) :: m => if j = k then m else if k < j then (j, v) :: m else (j, v) :: sdrop k m

/-- The list with a key set. -/
def sset (k : Nat) (x : α) : List (Nat × α) → List (Nat × α)
  | [] => [(k, x)]
  | (j, v) :: m => if j = k then (k, x) :: m else if k < j then (k, x) :: (j, v) :: m else (j, v) :: sset k x m

/-- A write in canonical form: the value `d` of an unlisted key removes the entry. -/
def sput [DecidableEq α] (d : α) (k : Nat) (x : α) (m : List (Nat × α)) : List (Nat × α) :=
  if x = d then sdrop k m else sset k x m

/-- The canonical form, for a value `d k` that an unlisted key `k` reads as. -/
abbrev SparseWf (d : Nat → α) (m : List (Nat × α)) : Prop :=
  m.Pairwise (fun p q => p.1 < q.1) ∧ ∀ p ∈ m, p.2 ≠ d p.1

/-- The byte at an address of a memory: an unlisted address reads 0. -/
def Memory.get (m : Memory) (a : Nat) : Byte := (sfind a m).getD 0

/-- The memory with one byte written. -/
def Memory.put (m : Memory) (a : Nat) (b : Byte) : Memory := sput 0 a b m

/-- The canonical form of a memory. -/
abbrev Memory.wf (m : Memory) : Prop := SparseWf (fun _ => (0 : Byte)) m

/-- The bytes from an address on. -/
def Memory.bytes (m : Memory) (a : Nat) : Nat → List Byte
  | 0 => []
  | n + 1 => m.get a :: Memory.bytes m (a + 1) n

/-- The memory with a list of bytes written from an address on. -/
def Memory.putBytes (m : Memory) (a : Nat) : List Byte → Memory
  | [] => m
  | b :: bs => Memory.putBytes (m.put a b) (a + 1) bs

/-- The number that bytes spell, least significant byte first (R10). -/
def leNat : List Byte → Nat
  | [] => 0
  | b :: bs => b.toNat + 256 * leNat bs

/-- The `n` low bytes of a number, least significant byte first (R10). -/
def natLe : Nat → Nat → List Byte
  | 0, _ => []
  | n + 1, x => BitVec.ofNat 8 x :: natLe n (x / 256)

/-- The little-endian number of `n` bytes at an offset of an image. -/
def imageAt (bs : List Byte) (o n : Nat) : Nat := leNat ((bs.drop o).take n)

/-- What the first `k` 64-bit words of `new` leave of an image (R356). -/
def patch (k : Nat) (old new : List Byte) : List Byte := new.take (8 * k) ++ old.drop (8 * k)

/-- The little-endian word of `n` bytes at an address. -/
def Memory.getLe (m : Memory) (a n : Nat) : Nat := leNat (m.bytes a n)

/-- The memory with the `n` low bytes of a number written from an address on. -/
def Memory.putLe (m : Memory) (a n x : Nat) : Memory := m.putBytes a (natLe n x)

/-- The field [hi:lo] of a number. -/
def field (x hi lo : Nat) : Nat := x / 2 ^ lo % 2 ^ (hi - lo + 1)

/-- A number as a two's-complement field of `n` bits. -/
def signed (n x : Nat) : Int := if x % 2 ^ n < 2 ^ (n - 1) then (x % 2 ^ n : Int) else (x % 2 ^ n : Int) - (2 ^ n : Int)

/-- An integer as a two's-complement field of `n` bits. -/
def unsigned (n : Nat) (x : Int) : Nat := (x % (2 ^ n : Int)).toNat

/-- An integer held between two bounds. -/
def clamp (lo hi x : Int) : Int := max lo (min hi x)

/-- 1 for true. -/
def bit (b : Bool) : Nat := if b then 1 else 0

/-- The numbers of the set bits of a mask below `n`, ascending. -/
def bitsOf (mask n : Nat) : List Nat := (List.range n).filter (fun i => mask.testBit i)

end Sys2Proof.Machine
end

