-- ==== Sys2Proof/Machine/Check.lean ====
section
/-! DEFINITION. The check values of Table 10.6 (R226) and the code of the external words (R274, R275). -/

namespace Sys2Proof.Machine

open Sys2Proof

/-- One bit of a CRC that is not reflected: shift left, and the polynomial if a bit falls out. -/
def crcUp {n : Nat} (poly c : BitVec n) : BitVec n := if c.msb then (c <<< 1) ^^^ poly else c <<< 1

/-- One bit of a reflected CRC. -/
def crcDown {n : Nat} (poly c : BitVec n) : BitVec n := if c.getLsbD 0 then (c >>> 1) ^^^ poly else c >>> 1

/-- `k` applications of a function. -/
def times {α : Type} (f : α → α) : Nat → α → α
  | 0, x => x
  | k + 1, x => times f k (f x)

/-- CRC-16 over bytes (Table 10.6): polynomial 0x1021, initial value 0xFFFF, not reflected. -/
def crc16 (bs : List Byte) : Half :=
  bs.foldl (fun c b => times (crcUp 0x1021#16) 8 (c ^^^ ((b.setWidth 16 : Half) <<< 8))) 0xFFFF#16

/-- A reflected 32-bit CRC over bytes from a running value. -/
def crc32Run (poly : Word) (c : Word) (bs : List Byte) : Word :=
  bs.foldl (fun c b => times (crcDown poly) 8 (c ^^^ b.setWidth 32)) c

/-- CRC-32 (Table 10.6): 0x04C1_1DB7 reflected is 0xEDB8_8320. -/
def crc32 (bs : List Byte) : Word := crc32Run 0xEDB88320#32 0xFFFFFFFF#32 bs ^^^ 0xFFFFFFFF#32

/-- The running value of a CRC-32C over bytes, from a running value (R226): 0x1EDC_6F41 reflected is 0x82F6_3B78. -/
def crc32cRun (c : Word) (bs : List Byte) : Word := crc32Run 0x82F63B78#32 c bs

/-- The initial running value of a CRC-32C, and what its end is XORed with (Table 10.6). -/
def crc32cSeed : Word := 0xFFFFFFFF#32

/-- CRC-32C (Table 10.6). -/
def crc32c (bs : List Byte) : Word := crc32cRun crc32cSeed bs ^^^ crc32cSeed

/-- The number of set bits of a byte. -/
def weight (b : Nat) : Nat := ((List.range 8).filter (fun i => b.testBit i)).length

/-- The columns h[0]–h[63] of R274: the 56 values of weight 3 and the first 8 of weight 5, ascending. -/
def columns : List Nat :=
  (List.range 256).filter (fun b => weight b = 3) ++ ((List.range 256).filter (fun b => weight b = 5)).take 8

/-- The check bits of a data word (R274). -/
def checkBits (d : DWord) : Byte :=
  BitVec.ofNat 8 ((columns.zipIdx.filter (fun p => d.getLsbD p.2)).foldl (fun c p => c ^^^ p.1) 0)

/-- The class of a word read (R275); `corrected` gives the repaired data and the code bit (0–71). -/
inductive WordClass where
  | good
  | poison
  | corrected (data : DWord) (bit : Nat)
  | bad
  deriving DecidableEq, Repr

/-- The classing of R275. A double error of an all-zero word may read as poison; the code cannot tell the two apart
(log entry 14). -/
def classify (d : DWord) (c : Byte) : WordClass :=
  let s := (c ^^^ checkBits d).toNat
  if s = 0 then .good
  else if d = 0 && c = 0x03 then .poison
  else if weight s = 1 then .corrected d (64 + Nat.log2 s)
  else match columns.findIdx? (fun h => h = s) with
    | some i => .corrected (d ^^^ (1#64 <<< i)) i
    | none => .bad

end Sys2Proof.Machine
end

