-- ==== Sys2Proof/Machine/ParamTable.lean ====
section
/-! DEFINITION. The parameter items (R13, Tables 2.1 … 17.8): access, reset value, number of instances and
the values a write may carry. The item constants name the addresses. -/

namespace Sys2Proof.Machine

open Sys2Proof

/-- Access codes, Table 0.5. -/
inductive Acc where
  | ro | rw | wo | rc
  deriving DecidableEq, Repr

/-- A row of a parameter table: access, reset value, instances and allowed values of a write, as closed ranges. -/
structure Item where
  acc : Acc
  reset : Nat
  insts : Nat
  allowed : List (Nat × Nat)
  deriving DecidableEq, Repr

/-- The items of class DEV (code 0x04, Table 0.6). -/
def itemsDev : Nat → Option Item
  | 0x001 => some ⟨.rw, 0xffff, 1, [(0, 65535)]⟩  -- NUMBER
  | 0x002 => some ⟨.rw, 0, 1, [(0, 15)]⟩  -- ARRAY
  | 0x003 => some ⟨.rw, 0, 1, [(0, 1)]⟩  -- ROOT
  | _ => none

/-- The items of class CHAN (code 0x01, Table 0.6). -/
def itemsChan : Nat → Option Item
  | 0x001 => some ⟨.rw, 0, 256, [(0, 4095)]⟩  -- THRESH
  | 0x002 => some ⟨.rw, 4, 256, [(0, 31)]⟩  -- HYST
  | 0x003 => some ⟨.rw, 0, 256, [(0, 2)]⟩  -- MODE
  | 0x004 => some ⟨.rw, 0, 256, [(0, 1)]⟩  -- POLARITY
  | 0x005 => some ⟨.rw, 1, 256, [(0, 1)]⟩  -- TERM
  | 0x006 => some ⟨.rw, 0, 256, [(0, 32767), (32769, 65535)]⟩  -- OFFSET
  | 0x007 => some ⟨.rw, 0x10000, 256, [(4096, 16777215)]⟩  -- STUCK_LIMIT
  | 0x008 => some ⟨.rw, 0, 256, [(0, 1)]⟩  -- AUTOREADMIT
  | 0x009 => some ⟨.wo, 0, 256, [(0, 1)]⟩  -- READMIT
  | 0x00A => some ⟨.ro, 0, 256, []⟩  -- STATE
  | 0x00B => some ⟨.ro, 0, 256, []⟩  -- CAL_TEMP
  | 0x00C => some ⟨.ro, 0, 256, []⟩  -- CAL_SPAN
  | 0x00D => some ⟨.ro, 0xffffffff, 256, []⟩  -- CAL_AGE
  | 0x010 => some ⟨.rc, 0, 256, []⟩  -- CNT_HITS
  | 0x011 => some ⟨.rc, 0, 256, []⟩  -- CNT_PILEUP
  | 0x012 => some ⟨.rc, 0, 256, []⟩  -- CNT_LOST
  | 0x013 => some ⟨.rc, 0, 256, []⟩  -- CNT_BLANKED
  | 0x014 => some ⟨.rc, 0, 256, []⟩  -- CNT_STUCK
  | 0x015 => some ⟨.rc, 0, 256, []⟩  -- CNT_OUTRANGE
  | _ => none

/-- The items of class TILE (code 0x02, Table 0.6). -/
def itemsTile : Nat → Option Item
  | 0x001 => some ⟨.rw, 10, 16, [(0, 3600)]⟩  -- CAL_PERIOD
  | 0x002 => some ⟨.rw, 16, 16, [(4, 255)]⟩  -- CAL_DT
  | 0x003 => some ⟨.rw, 20, 16, [(18, 22)]⟩  -- CAL_EDGES
  | 0x004 => some ⟨.rw, 1, 16, [(0, 1)]⟩  -- TRIM_EN
  | 0x005 => some ⟨.rw, 0, 16, [(0, 1023)]⟩  -- TAC_TRIM0
  | 0x006 => some ⟨.rw, 0, 16, [(0, 65535)]⟩  -- TAC_T0
  | 0x007 => some ⟨.rw, 0, 16, [(0, 65535)]⟩  -- TAC_TC
  | 0x008 => some ⟨.ro, 0, 16, []⟩  -- TAC_TRIM
  | 0x009 => some ⟨.ro, 0, 16, []⟩  -- TEMP
  | 0x00A => some ⟨.ro, 255, 16, []⟩  -- CAL_CHANNEL
  | _ => none

/-- The items of class REFIN (code 0x0D, Table 0.6). -/
def itemsRefin : Nat → Option Item
  | 0x001 => some ⟨.rw, 0, 4, [(0, 2)]⟩  -- MODE
  | 0x002 => some ⟨.rw, 0, 4, [(0, 6)]⟩  -- PRESCALE
  | 0x003 => some ⟨.rw, 0, 4, [(0, 1)]⟩  -- EDGE
  | 0x004 => some ⟨.rw, 0xf4240, 4, [(10, 1000000000)]⟩  -- GATE
  | 0x005 => some ⟨.wo, 0, 4, [(0, 1)]⟩  -- CAL
  | 0x010 => some ⟨.ro, 0, 4, []⟩  -- FREQ_LO
  | 0x011 => some ⟨.ro, 0, 4, []⟩  -- FREQ_HI
  | 0x012 => some ⟨.ro, 0, 4, []⟩  -- COUNT_LO
  | 0x013 => some ⟨.ro, 0, 4, []⟩  -- COUNT_HI
  | 0x014 => some ⟨.ro, 0, 4, []⟩  -- SPAN_LO
  | 0x015 => some ⟨.ro, 0, 4, []⟩  -- SPAN_HI
  | 0x016 => some ⟨.ro, 0, 4, []⟩  -- PHASE
  | 0x017 => some ⟨.ro, 0, 4, []⟩  -- STATUS
  | 0x018 => some ⟨.rc, 0, 4, []⟩  -- CNT_NOSTAMP
  | 0x101 => some ⟨.rw, 0, 4, [(0, 9)]⟩  -- DM_START
  | 0x102 => some ⟨.rw, 0, 4, [(0, 767)]⟩  -- DM_STOP
  | 0x103 => some ⟨.rw, 0, 4, [(0, 4194303)]⟩  -- DM_OPEN
  | 0x104 => some ⟨.rw, 16, 4, [(1, 4194303)]⟩  -- DM_CLOSE
  | 0x105 => some ⟨.wo, 0, 4, [(0, 1)]⟩  -- DM_CLEAR
  | 0x110 => some ⟨.ro, 0, 4, []⟩  -- DM_N
  | 0x111 => some ⟨.ro, 0, 4, []⟩  -- DM_FIRST
  | 0x112 => some ⟨.ro, 0, 4, []⟩  -- DM_SUM
  | 0x113 => some ⟨.ro, 0, 4, []⟩  -- DM_SUMSQ_LO
  | 0x114 => some ⟨.ro, 0, 4, []⟩  -- DM_SUMSQ_HI
  | 0x115 => some ⟨.ro, 0, 4, []⟩  -- DM_LAST
  | 0x116 => some ⟨.ro, 0, 4, []⟩  -- DM_STATUS
  | 0x118 => some ⟨.rc, 0, 4, []⟩  -- DM_CNT_IGNORED
  | 0x119 => some ⟨.rc, 0, 4, []⟩  -- DM_CNT_STARTLOST
  | 0x11A => some ⟨.rc, 0, 4, []⟩  -- DM_CNT_VOID
  | 0x201 => some ⟨.rw, 0, 4, [(0, 4294967295)]⟩  -- CO_TICK_LO
  | 0x202 => some ⟨.rw, 0, 4, [(0, 4294967295)]⟩  -- CO_TICK_HI
  | 0x203 => some ⟨.rw, 0, 4, [(0, 127)]⟩  -- CO_FINE
  | 0x204 => some ⟨.rw, 16, 4, [(1, 255)]⟩  -- CO_WIDTH
  | 0x205 => some ⟨.rw, 0x1000, 4, [(256, 16777215)]⟩  -- CO_PERIOD
  | 0x206 => some ⟨.rw, 1, 4, [(1, 16777215)]⟩  -- CO_COUNT
  | 0x207 => some ⟨.wo, 0, 4, [(0, 1)]⟩  -- CO_ARM
  | 0x208 => some ⟨.ro, 0, 4, []⟩  -- CO_STATE
  | 0x209 => some ⟨.rc, 0, 4, []⟩  -- CO_MISSED
  | 0x301 => some ⟨.rw, 5, 2, [(1, 4294967295)]⟩  -- CK_M
  | 0x302 => some ⟨.rw, 0x200, 2, [(0, 4294967295)]⟩  -- CK_D
  | 0x303 => some ⟨.rw, 0, 2, [(0, 4294967295)]⟩  -- CK_OFFSET
  | 0x304 => some ⟨.rw, 0, 2, [(0, 1)]⟩  -- CK_EN
  | 0x401 => some ⟨.rw, 0, 1, [(0, 1)]⟩  -- PPS_EN
  | 0x402 => some ⟨.rw, 0, 1, [(0, 4294967295)]⟩  -- PPS_OFFSET
  | 0x403 => some ⟨.rw, 100, 1, [(1, 500000)]⟩  -- PPS_WIDTH
  | 0x404 => some ⟨.rw, 0, 1, [(0, 1)]⟩  -- PPS_UNLOCKED
  | 0x410 => some ⟨.ro, 0, 1, []⟩  -- PPSIN_OFFSET
  | 0x411 => some ⟨.rw, 0x3e8, 1, [(1, 100000)]⟩  -- PPSIN_WINDOW
  | 0x412 => some ⟨.rc, 0, 1, []⟩  -- PPSIN_CNT_IGNORED
  | 0x413 => some ⟨.ro, 0, 1, []⟩  -- PPSIN_STATUS
  | _ => none

/-- The items of class TIME (code 0x0C, Table 0.6). -/
def itemsTime : Nat → Option Item
  | 0x001 => some ⟨.rw, 0, 1, [(0, 1)]⟩  -- SOURCE
  | 0x002 => some ⟨.rw, 0, 1, [(0, 1)]⟩  -- PREFER
  | 0x003 => some ⟨.rw, 0, 1, [(0, 1)]⟩  -- REVERT
  | 0x004 => some ⟨.rw, 60, 1, [(1, 86400)]⟩  -- REVERT_HOLD
  | 0x005 => some ⟨.rw, 100, 1, [(10, 1000000)]⟩  -- STEP_LIMIT
  | 0x006 => some ⟨.rw, 50, 1, [(5, 10000)]⟩  -- PATH_LIMIT
  | 0x007 => some ⟨.rw, 0x2710, 1, [(1, 50000000)]⟩  -- SLEW_MAX
  | 0x008 => some ⟨.rw, 252, 1, [(0, 0), (249, 255)]⟩  -- SYNC_LOG
  | 0x009 => some ⟨.rw, 4, 1, [(2, 64)]⟩  -- LOST_COUNT
  | 0x00A => some ⟨.rw, 64, 1, [(1, 4096)]⟩  -- HOLD_AVG
  | 0x00B => some ⟨.rw, 0x3e8, 1, [(0, 1048575)]⟩  -- HOLD_ALARM
  | 0x00C => some ⟨.rw, 0, 1, [(0, 255)]⟩  -- PTP_DOMAIN
  | 0x010 => some ⟨.ro, 0, 1, []⟩  -- NOW_LO
  | 0x011 => some ⟨.ro, 0, 1, []⟩  -- NOW_HI
  | 0x012 => some ⟨.ro, 0, 1, []⟩  -- NOW_FINE
  | 0x013 => some ⟨.ro, 0, 1, []⟩  -- STATE
  | 0x014 => some ⟨.ro, 0, 1, []⟩  -- RATE_LO
  | 0x015 => some ⟨.ro, 0, 1, []⟩  -- RATE_HI
  | 0x016 => some ⟨.ro, 0, 1, []⟩  -- LAST_STEP_LO
  | 0x017 => some ⟨.ro, 0, 1, []⟩  -- LAST_STEP_HI
  | 0x018 => some ⟨.ro, 0, 1, []⟩  -- STEPS
  | 0x019 => some ⟨.rc, 0, 1, []⟩  -- CNT_LAUNCH_MISSED
  | 0x01A => some ⟨.rc, 0, 1, []⟩  -- CNT_QFULL
  | 0x01B => some ⟨.ro, 0, 1, []⟩  -- HOLD_DRIFT
  | 0x01C => some ⟨.ro, 0, 1, []⟩  -- UTC_OFFSET
  | 0x101 => some ⟨.rw, 0, 2, [(0, 1)]⟩  -- D_ENABLE
  | 0x102 => some ⟨.rw, 0, 2, [(0, 1)]⟩  -- D_TRANSPORT
  | 0x103 => some ⟨.rw, 0, 2, [(0, 4294967295)]⟩  -- D_ASYM
  | 0x110 => some ⟨.ro, 0, 2, []⟩  -- D_FLAGS
  | 0x111 => some ⟨.ro, 0, 2, []⟩  -- D_OFFSET
  | 0x112 => some ⟨.ro, 0, 2, []⟩  -- D_MPD_LO
  | 0x113 => some ⟨.ro, 0, 2, []⟩  -- D_MPD_HI
  | 0x114 => some ⟨.ro, 0, 2, []⟩  -- D_ASYM_PROPOSAL
  | 0x115 => some ⟨.ro, 0, 2, []⟩  -- D_EXCHANGES
  | 0x116 => some ⟨.rc, 0, 2, []⟩  -- D_CNT_BAD
  | _ => none

/-- The items of class ENG (code 0x05, Table 0.6). -/
def itemsEng : Nat → Option Item
  | 0x001 => some ⟨.wo, 0, 128, [(1, 2)]⟩  -- RUN
  | 0x002 => some ⟨.rw, 0, 128, [(0, 2047)]⟩  -- ENTRY
  | 0x003 => some ⟨.rw, 0, 128, [(0, 65535)]⟩  -- CHANMASK
  | 0x004 => some ⟨.rw, 0, 128, [(0, 3)]⟩  -- COPY
  | 0x005 => some ⟨.rw, 0x1000, 128, [(0, 0), (16, 65535)]⟩  -- BUDGET
  | 0x006 => some ⟨.rw, 0, 128, [(0, 1)]⟩  -- PRIV
  | 0x007 => some ⟨.rw, 0, 128, [(0, 15)]⟩  -- AUTORESTART
  | 0x010 => some ⟨.ro, 0, 128, []⟩  -- STATE
  | 0x011 => some ⟨.ro, 0, 128, []⟩  -- PC
  | 0x012 => some ⟨.ro, 0, 128, []⟩  -- TRAP
  | 0x013 => some ⟨.ro, 0, 128, []⟩  -- IMAGE_CRC
  | 0x014 => some ⟨.rc, 0, 128, []⟩  -- MAX_CYCLES
  | 0x020 => some ⟨.rc, 0, 128, []⟩  -- CNT_DROPPED
  | 0x021 => some ⟨.rc, 0, 128, []⟩  -- CNT_IDLE
  | 0x022 => some ⟨.rc, 0, 128, []⟩  -- CNT_PRIM
  | 0x023 => some ⟨.rc, 0, 128, []⟩  -- CNT_PRIM_LOST
  | 0x024 => some ⟨.rc, 0, 128, []⟩  -- CNT_EMITS
  | 0x025 => some ⟨.rc, 0, 128, []⟩  -- CNT_RAISE_LOST
  | 0x026 => some ⟨.rc, 0, 128, []⟩  -- CNT_STALL
  | 0x027 => some ⟨.rc, 0, 128, []⟩  -- CNT_TRAPS
  | 0x028 => some ⟨.rc, 0, 128, []⟩  -- CNT_PORT_REFUSED
  | _ => none

/-- The items of class ACQ (code 0x06, Table 0.6). -/
def itemsAcq : Nat → Option Item
  | 0x001 => some ⟨.rw, 0x100000, 1, [(1024, 1073741824)]⟩  -- PRETRIG
  | 0x002 => some ⟨.rw, 0x10000, 1, [(1, 1073741824)]⟩  -- WINDOW_MAX
  | 0x003 => some ⟨.rw, 0x1000, 1, [(2112, 16777215)]⟩  -- TAIL
  | 0x004 => some ⟨.rw, 0x4000, 1, [(16, 65535)]⟩  -- MAX_BOOKINGS
  | 0x005 => some ⟨.rw, 0, 1, [(0, 2)]⟩  -- STATION
  | 0x006 => some ⟨.rw, 1, 1, [(0, 1)]⟩  -- PRIM_UP
  | 0x007 => some ⟨.rw, 0, 1, [(0, 1)]⟩  -- ARM_UNLOCKED
  | 0x008 => some ⟨.rw, 6, 1, [(0, 7)]⟩  -- RED_CHAN
  | 0x009 => some ⟨.rw, 6, 1, [(0, 7)]⟩  -- RED_PFE
  | 0x00A => some ⟨.rw, 0xffffffff, 1, [(0, 4294967295)]⟩  -- RED_PFE_MASK
  | 0x00B => some ⟨.rw, 7, 1, [(0, 7)]⟩  -- RED_ACQ
  | 0x00C => some ⟨.rw, 0x1000, 1, [(64, 65536)]⟩  -- MON_MAX_ROOMS
  | 0x010 => some ⟨.ro, 0, 1, []⟩  -- STATE
  | 0x011 => some ⟨.ro, 0, 1, []⟩  -- ARM_TICK_LO
  | 0x012 => some ⟨.ro, 0, 1, []⟩  -- ARM_TICK_HI
  | 0x013 => some ⟨.ro, 0, 1, []⟩  -- ARMED_TICKS_LO
  | 0x014 => some ⟨.ro, 0, 1, []⟩  -- ARMED_TICKS_HI
  | 0x015 => some ⟨.ro, 0, 1, []⟩  -- DEAD_TICKS_LO
  | 0x016 => some ⟨.ro, 0, 1, []⟩  -- DEAD_TICKS_HI
  | 0x017 => some ⟨.ro, 0, 1, []⟩  -- DEAD_ROOMS
  | 0x018 => some ⟨.ro, 0, 1, []⟩  -- DEAD_DEPTH
  | 0x019 => some ⟨.ro, 0, 1, []⟩  -- DEAD_BOOKINGS
  | 0x01A => some ⟨.ro, 0, 1, []⟩  -- DEAD_PINS
  | 0x01B => some ⟨.ro, 0, 1, []⟩  -- BOOKINGS_HELD
  | 0x01C => some ⟨.ro, 0, 1, []⟩  -- STATION_SEQ
  | 0x020 => some ⟨.rc, 0, 1, []⟩  -- CNT_ACCEPTS
  | 0x021 => some ⟨.rc, 0, 1, []⟩  -- CNT_REFUSED
  | 0x030 => some ⟨.rc, 0, 13, []⟩  -- CNT_REF
  | 0x031 => some ⟨.rc, 0, 1, []⟩  -- CNT_PRIM_DROPPED
  | 0x032 => some ⟨.rc, 0, 1, []⟩  -- CNT_MON_DROPPED
  | _ => none

/-- The items of class ROOMS (code 0x07, Table 0.6). -/
def itemsRooms : Nat → Option Item
  | 0x001 => some ⟨.rw, 0x200000, 1, [(1048576, 1073741824)]⟩  -- HOLD
  | 0x002 => some ⟨.rw, 0x2000, 1, [(0, 131072)]⟩  -- LOW_WATER
  | 0x003 => some ⟨.rw, 0x400, 1, [(256, 65536)]⟩  -- RESERVE
  | 0x004 => some ⟨.rw, 7, 1, [(0, 15)]⟩  -- W_TRIG
  | 0x005 => some ⟨.rw, 1, 1, [(0, 15)]⟩  -- W_MON
  | 0x006 => some ⟨.rw, 0x1000, 1, [(1, 65535)]⟩  -- BACKLOG_ALARM
  | 0x007 => some ⟨.rw, 0, 1, [(0, 262143)]⟩  -- MAP_SEL
  | 0x010 => some ⟨.ro, 0, 1, []⟩  -- TOTAL
  | 0x011 => some ⟨.ro, 0, 1, []⟩  -- FREE
  | 0x012 => some ⟨.rc, 0, 1, []⟩  -- FREE_MIN
  | 0x013 => some ⟨.ro, 0, 1, []⟩  -- PINNED
  | 0x014 => some ⟨.ro, 0, 1, []⟩  -- DETACHED
  | 0x015 => some ⟨.ro, 0, 1, []⟩  -- FRAGMENT
  | 0x016 => some ⟨.ro, 0, 1, []⟩  -- MONITOR
  | 0x017 => some ⟨.ro, 0x800, 1, []⟩  -- SPARES_LEFT
  | 0x018 => some ⟨.ro, 0, 1, []⟩  -- READY
  | 0x020 => some ⟨.ro, 0, 1, []⟩  -- MAP_W0
  | 0x021 => some ⟨.ro, 0, 1, []⟩  -- MAP_W1
  | 0x022 => some ⟨.ro, 0, 1, []⟩  -- MAP_W2
  | 0x023 => some ⟨.ro, 0, 1, []⟩  -- MAP_W3
  | 0x030 => some ⟨.rc, 0, 1, []⟩  -- CNT_STARVED
  | 0x031 => some ⟨.rc, 0, 1, []⟩  -- CNT_TRUNCATED
  | 0x032 => some ⟨.rc, 0, 1, []⟩  -- CNT_RECYCLED
  | 0x033 => some ⟨.rc, 0, 1, []⟩  -- CNT_BOOKING_CRC
  | 0x034 => some ⟨.rc, 0, 1, []⟩  -- CNT_CACHE_MISS
  | 0x101 => some ⟨.ro, 0, 17, []⟩  -- C_LENGTH
  | 0x102 => some ⟨.ro, 0, 17, []⟩  -- C_DEPTH
  | 0x103 => some ⟨.ro, 0, 17, []⟩  -- C_HELD_LO
  | 0x104 => some ⟨.ro, 0, 17, []⟩  -- C_HELD_HI
  | _ => none

/-- The items of class CMP (code 0x08, Table 0.6). -/
def itemsCmp : Nat → Option Item
  | 0x001 => some ⟨.rw, 2, 1, [(0, 2)]⟩  -- MODE
  | 0x002 => some ⟨.rw, 3, 1, [(0, 0), (3, 3)]⟩  -- MON_MODE
  | 0x003 => some ⟨.rw, 8, 1, [(1, 16)]⟩  -- CHAIN_DEPTH
  | 0x004 => some ⟨.rw, 0, 1, [(0, 2)]⟩  -- HUFFMAN
  | 0x005 => some ⟨.rw, 16, 1, [(1, 16)]⟩  -- STREAM_KIB
  | 0x006 => some ⟨.rw, 0x100000, 1, [(4096, 67108864)]⟩  -- D_LIMIT_MAX
  | 0x010 => some ⟨.ro, 15, 1, []⟩  -- IN_SERVICE
  | 0x011 => some ⟨.ro, 0, 1, []⟩  -- RAW_BYTES_LO
  | 0x012 => some ⟨.ro, 0, 1, []⟩  -- RAW_BYTES_HI
  | 0x013 => some ⟨.ro, 0, 1, []⟩  -- OUT_BYTES_LO
  | 0x014 => some ⟨.ro, 0, 1, []⟩  -- OUT_BYTES_HI
  | 0x015 => some ⟨.rc, 0, 1, []⟩  -- CNT_STORED
  | 0x016 => some ⟨.rc, 0, 1, []⟩  -- CNT_FALLBACK
  | 0x017 => some ⟨.rc, 0, 1, []⟩  -- CNT_NOUNIT
  | 0x101 => some ⟨.ro, 0, 4, []⟩  -- U_STATE
  | 0x102 => some ⟨.wo, 0, 4, [(0, 1)]⟩  -- U_READMIT
  | 0x103 => some ⟨.rc, 0, 4, []⟩  -- U_CNT_MISMATCH
  | 0x104 => some ⟨.rc, 0, 4, []⟩  -- U_CNT_FRAGMENTS
  | 0x201 => some ⟨.ro, 0, 2, []⟩  -- D_STATE
  | 0x202 => some ⟨.rc, 0, 2, []⟩  -- D_CNT_JOBS
  | 0x203 => some ⟨.rc, 0, 2, []⟩  -- D_CNT_ABORTS
  | _ => none

/-- The items of class PORT (code 0x0B, Table 0.6). -/
def itemsPort : Nat → Option Item
  | 0x001 => some ⟨.rw, 0, 18, [(0, 1)]⟩  -- P_ENABLE
  | 0x002 => some ⟨.rw, 16, 18, [(4, 16)]⟩  -- P_CREDIT_MAX
  | 0x003 => some ⟨.rw, 0xfd0, 18, [(256, 4048)]⟩  -- P_DATA_MAX
  | 0x010 => some ⟨.ro, 0, 18, []⟩  -- P_STATE
  | 0x011 => some ⟨.ro, 0, 18, []⟩  -- P_PARTNER
  | 0x012 => some ⟨.ro, 0, 18, []⟩  -- P_LAST_INC
  | 0x013 => some ⟨.ro, 0, 18, []⟩  -- P_CREDIT
  | 0x014 => some ⟨.ro, 0, 18, []⟩  -- P_LANTERN
  | 0x015 => some ⟨.ro, 0, 18, []⟩  -- P_TEST_TAG
  | 0x016 => some ⟨.ro, 0, 18, []⟩  -- P_TEST_TICK
  | 0x101 => some ⟨.rc, 0, 18, []⟩  -- P_CNT_FRAMES
  | 0x102 => some ⟨.rc, 0, 18, []⟩  -- P_CNT_CHECK
  | 0x103 => some ⟨.rc, 0, 18, []⟩  -- P_CNT_CODE
  | 0x104 => some ⟨.rc, 0, 18, []⟩  -- P_CNT_STALE
  | 0x105 => some ⟨.rc, 0, 18, []⟩  -- P_CNT_REFUSED_FRAME
  | 0x106 => some ⟨.rc, 0, 18, []⟩  -- P_CNT_LATE
  | 0x107 => some ⟨.rc, 0, 18, []⟩  -- P_CNT_DAMAGED
  | 0x108 => some ⟨.rc, 0, 18, []⟩  -- P_CNT_TIMEOUT
  | 0x109 => some ⟨.rc, 0, 18, []⟩  -- P_CNT_ABSENT
  | 0x10A => some ⟨.rc, 0, 18, []⟩  -- P_CNT_REFUSED
  | 0x10B => some ⟨.rc, 0, 18, []⟩  -- P_CNT_DROPPED
  | 0x10C => some ⟨.rc, 0, 18, []⟩  -- P_CNT_ABORTS
  | 0x10D => some ⟨.rc, 0, 18, []⟩  -- P_CNT_PREEMPT
  | 0x10E => some ⟨.rc, 0, 18, []⟩  -- P_CNT_TEST
  | 0x201 => some ⟨.rw, 0, 1, [(0, 1)]⟩  -- DATA_PATH
  | 0x202 => some ⟨.rw, 0x3e8, 1, [(10, 1000000)]⟩  -- COMPLETE_TIMEOUT
  | 0x203 => some ⟨.ro, 0, 1, []⟩  -- INCARNATION
  | 0x204 => some ⟨.rc, 0, 1, []⟩  -- CNT_PASS_FULL
  | _ => none

/-- The items of class LANE (code 0x0A, Table 0.6). -/
def itemsLane : Nat → Option Item
  | 0x001 => some ⟨.rw, 4, 21, [(0, 4)]⟩  -- MAX_RUNG
  | 0x010 => some ⟨.ro, 0, 21, []⟩  -- STATE
  | 0x011 => some ⟨.ro, 0, 21, []⟩  -- RUNG
  | 0x012 => some ⟨.ro, 0, 21, []⟩  -- EQ
  | 0x013 => some ⟨.ro, 0, 21, []⟩  -- PRBS_ERRORS
  | 0x014 => some ⟨.ro, 0, 21, []⟩  -- SKEW
  | 0x020 => some ⟨.rc, 0, 21, []⟩  -- CNT_VIOL
  | 0x021 => some ⟨.rc, 0, 21, []⟩  -- CNT_LOCK_LOST
  | 0x022 => some ⟨.rc, 0, 21, []⟩  -- CNT_RUNG_FAIL
  | 0x023 => some ⟨.rc, 0, 21, []⟩  -- CNT_BRINGUP
  | 0x030 => some ⟨.rw, 0, 21, [(0, 2)]⟩  -- LOWPOWER
  | 0x031 => some ⟨.wo, 0, 21, [(0, 1)]⟩  -- RETRAIN
  | 0x101 => some ⟨.rw, 0, 4, [(0, 4)]⟩  -- G_GROUPING
  | 0x201 => some ⟨.rw, 1, 1, [(1, 2), (4, 4)]⟩  -- UP_WIDTH
  | 0x202 => some ⟨.rw, 22, 1, [(16, 34)]⟩  -- PRBS_LOG
  | 0x203 => some ⟨.rw, 0, 1, [(0, 65535)]⟩  -- PRBS_MAX
  | 0x204 => some ⟨.rw, 100, 1, [(10, 60000)]⟩  -- RETRY
  | 0x205 => some ⟨.ro, 0, 1, []⟩  -- EQ_SOURCE
  | 0x206 => some ⟨.rw, 0, 1, [(0, 4294967295)]⟩  -- MAC_LO
  | 0x207 => some ⟨.rw, 0, 1, [(0, 65535)]⟩  -- MAC_HI
  | 0x208 => some ⟨.ro, 0, 1, []⟩  -- BASEX_STATUS
  | 0x209 => some ⟨.rc, 0, 1, []⟩  -- BASEX_CNT_DISCARD
  | _ => none

/-- The items of class MEM (code 0x09, Table 0.6). -/
def itemsMem : Nat → Option Item
  | 0x001 => some ⟨.rw, 0x320, 1, [(533, 1066)]⟩  -- FREQ
  | 0x002 => some ⟨.rw, 1, 1, [(0, 1)]⟩  -- DENSITY
  | 0x003 => some ⟨.rw, 0, 1, [(0, 1)]⟩  -- AP_EN
  | 0x004 => some ⟨.rw, 1, 1, [(0, 1)]⟩  -- DINV
  | 0x005 => some ⟨.rw, 0x258, 1, [(0, 0), (10, 86400)]⟩  -- SCRUB_PERIOD
  | 0x006 => some ⟨.rw, 0, 1, [(0, 1)]⟩  -- LOG_CE
  | 0x007 => some ⟨.wo, 0, 1, [(0, 1)]⟩  -- RETRAIN
  | 0x010 => some ⟨.ro, 0, 1, []⟩  -- ROOMS_FIT
  | 0x011 => some ⟨.ro, 0, 1, []⟩  -- SCRUB_PASSES
  | 0x012 => some ⟨.ro, 0, 1, []⟩  -- LOG_HEAD
  | 0x013 => some ⟨.rc, 0, 1, []⟩  -- CNT_LOG_LOST
  | 0x014 => some ⟨.rc, 0, 1, []⟩  -- CNT_ONCHIP_CE
  | 0x015 => some ⟨.rc, 0, 1, []⟩  -- CNT_ONCHIP_UE
  | 0x101 => some ⟨.ro, 0, 4, []⟩  -- C_STATE
  | 0x102 => some ⟨.rc, 0, 4, []⟩  -- C_CNT_CE
  | 0x103 => some ⟨.rc, 0, 4, []⟩  -- C_CNT_UE
  | 0x104 => some ⟨.rc, 0, 4, []⟩  -- C_CNT_POISON
  | 0x105 => some ⟨.rc, 0, 4, []⟩  -- C_CNT_AP
  | 0x106 => some ⟨.rc, 0, 4, []⟩  -- C_CNT_MERGE
  | 0x107 => some ⟨.rc, 0, 4, []⟩  -- C_HIT_PEAK
  | 0x108 => some ⟨.ro, 0, 4, []⟩  -- C_SCRUB_ADDR
  | _ => none

/-- The items of class EVQ (code 0x12, Table 0.6). -/
def itemsEvq : Nat → Option Item
  | 0x001 => some ⟨.rw, 0, 16, [(0, 4294967295)]⟩  -- MASK
  | 0x002 => some ⟨.rw, 1, 1, [(0, 1)]⟩  -- UP
  | 0x010 => some ⟨.ro, 0, 1, []⟩  -- LEVEL
  | 0x011 => some ⟨.rc, 0, 1, []⟩  -- CNT_UP_LOST
  | 0x012 => some ⟨.rc, 0, 1, []⟩  -- CNT_SRC_LOST
  | _ => none

/-- The items of class LEDGER (code 0x13, Table 0.6). -/
def itemsLedger : Nat → Option Item
  | 0x010 => some ⟨.ro, 0, 1, []⟩  -- HEAD
  | 0x011 => some ⟨.ro, 0, 1, []⟩  -- OLDEST
  | 0x012 => some ⟨.ro, 0, 1, []⟩  -- PENDING
  | 0x013 => some ⟨.rc, 0, 1, []⟩  -- CNT_LOST
  | 0x014 => some ⟨.rc, 0, 1, []⟩  -- CNT_DENIED
  | _ => none

/-- The items of class SPARE (code 0x11, Table 0.6). -/
def itemsSpare : Nat → Option Item
  | 0x001 => some ⟨.rw, 60, 1, [(1, 3600)]⟩  -- CKPT_PERIOD
  | 0x002 => some ⟨.rw, 0x258, 1, [(0, 0), (60, 86400)]⟩  -- SELFTEST_PERIOD
  | 0x003 => some ⟨.rw, 1, 1, [(0, 1)]⟩  -- DP_AUTO
  | 0x004 => some ⟨.rw, 100, 1, [(0, 10000)]⟩  -- DP_HOLD
  | 0x010 => some ⟨.ro, 0, 1, []⟩  -- STATE
  | 0x011 => some ⟨.ro, 0, 1, []⟩  -- CKPT_SEQ
  | 0x012 => some ⟨.ro, 0, 1, []⟩  -- CKPT_AGE
  | 0x013 => some ⟨.ro, 0, 1, []⟩  -- SELFTEST_SEQ
  | 0x020 => some ⟨.rc, 0, 1, []⟩  -- CNT_FENCE_HITS
  | 0x021 => some ⟨.rc, 0, 1, []⟩  -- CNT_FAILOVERS
  | 0x022 => some ⟨.rc, 0, 1, []⟩  -- CNT_SPARE_RESETS
  | 0x023 => some ⟨.rc, 0, 1, []⟩  -- CNT_SELFTEST_FAIL
  | 0x024 => some ⟨.rc, 0, 1, []⟩  -- CNT_DP_MOVES
  | 0x025 => some ⟨.rc, 0, 1, []⟩  -- CNT_DP_RELEASED
  | _ => none

/-- The items of class PWR (code 0x10, Table 0.6). -/
def itemsPwr : Nat → Option Item
  | 0x001 => some ⟨.rw, 0xdfffffff, 1, [(0, 4294967295)]⟩  -- BOOT_ON_LO
  | 0x002 => some ⟨.rw, 7, 1, [(0, 15)]⟩  -- BOOT_ON_HI
  | 0x003 => some ⟨.rw, 0x186a0, 1, [(1000, 100000000)]⟩  -- HOLD_CAP
  | 0x004 => some ⟨.rw, 0xbb8, 1, [(1000, 15000)]⟩  -- HOLD_VMIN
  | 0x005 => some ⟨.rw, 0x1f4, 1, [(10, 10000)]⟩  -- HOLD_POWER
  | 0x006 => some ⟨.rw, 2, 1, [(1, 8)]⟩  -- HOLD_MARGIN
  | 0x010 => some ⟨.ro, 0, 1, []⟩  -- DOMAINS_LO
  | 0x011 => some ⟨.ro, 0, 1, []⟩  -- DOMAINS_HI
  | 0x012 => some ⟨.ro, 0, 1, []⟩  -- HOLD_V
  | 0x013 => some ⟨.ro, 0, 1, []⟩  -- HOLD_CAP_MEAS
  | 0x014 => some ⟨.ro, 0, 1, []⟩  -- HOLD_ENERGY
  | 0x015 => some ⟨.ro, 0, 1, []⟩  -- RESET_CAUSE
  | 0x016 => some ⟨.rc, 0, 1, []⟩  -- CNT_DEFERRED
  | 0x017 => some ⟨.rc, 0, 1, []⟩  -- CNT_W_RESETS
  | 0x018 => some ⟨.rc, 0, 1, []⟩  -- CNT_RESYNC
  | 0x101 => some ⟨.rc, 0, 51, []⟩  -- I_STATUS
  | _ => none

/-- The items of class THERM (code 0x0F, Table 0.6). -/
def itemsTherm : Nat → Option Item
  | 0x001 => some ⟨.rw, 0x5f0, 1, [(0, 65535)]⟩  -- T_WARN
  | 0x002 => some ⟨.rw, 0x640, 1, [(0, 65535)]⟩  -- T_THROTTLE
  | 0x003 => some ⟨.rw, 0x6e0, 1, [(0, 65535)]⟩  -- T_CRIT
  | 0x004 => some ⟨.rw, 32, 1, [(8, 255)]⟩  -- HYST
  | 0x005 => some ⟨.rw, 32, 1, [(4, 4095)]⟩  -- R_WARN
  | 0x006 => some ⟨.rw, 80, 1, [(8, 4095)]⟩  -- R_THROTTLE
  | 0x007 => some ⟨.rw, 4, 1, [(1, 7)]⟩  -- THROTTLE_KEEP
  | 0x008 => some ⟨.rw, 1, 1, [(0, 2)]⟩  -- TB_SOURCE
  | 0x009 => some ⟨.rw, 0, 1, [(0, 31)]⟩  -- TB_INPUT
  | 0x00A => some ⟨.rw, 0, 1, [(0, 65535)]⟩  -- TB_T0
  | 0x00B => some ⟨.rw, 0, 1, [(0, 4294967295)]⟩  -- TB_C1
  | 0x00C => some ⟨.rw, 0, 1, [(0, 4294967295)]⟩  -- TB_C2
  | 0x010 => some ⟨.ro, 0, 1, []⟩  -- STATE
  | 0x011 => some ⟨.ro, 0, 1, []⟩  -- WORST
  | 0x012 => some ⟨.ro, 0, 1, []⟩  -- RATE
  | 0x013 => some ⟨.ro, 0, 1, []⟩  -- BROKEN
  | 0x014 => some ⟨.ro, 0, 1, []⟩  -- TB_CORR
  | 0x015 => some ⟨.rc, 0, 1, []⟩  -- CNT_THROTTLE
  | 0x101 => some ⟨.ro, 0, 17, []⟩  -- S_TEMP
  | 0x102 => some ⟨.wo, 0, 17, [(0, 1)]⟩  -- S_READMIT
  | _ => none

/-- The items of class PFE (code 0x0E, Table 0.6). -/
def itemsPfe : Nat → Option Item
  | 0x001 => some ⟨.rw, 0, 1, [(0, 3)]⟩  -- MODE
  | 0x002 => some ⟨.rw, 0, 1, [(0, 31)]⟩  -- SELECT
  | 0x003 => some ⟨.rw, 3, 1, [(1, 4)]⟩  -- ORDER
  | 0x004 => some ⟨.rw, 0x14000, 1, [(64, 1048575)]⟩  -- DECIM
  | 0x005 => some ⟨.rw, 0, 1, [(0, 1)]⟩  -- INTERLEAVE
  | 0x006 => some ⟨.rw, 1, 1, [(1, 65535)]⟩  -- WORDS
  | 0x007 => some ⟨.rw, 0, 1, [(0, 4294967295)]⟩  -- SCAN
  | 0x008 => some ⟨.rw, 0, 1, [(0, 3)]⟩  -- EXC_A_MODE
  | 0x009 => some ⟨.rw, 10, 1, [(1, 100)]⟩  -- EXC_A_I
  | 0x00A => some ⟨.rw, 10, 1, [(1, 100)]⟩  -- EXC_B_I
  | 0x00B => some ⟨.rw, 0x3e8, 1, [(0, 65535)]⟩  -- EXC_SETTLE
  | 0x010 => some ⟨.ro, 0, 1, []⟩  -- RESULT
  | 0x011 => some ⟨.ro, 0, 1, []⟩  -- ENG
  | 0x012 => some ⟨.ro, 0, 1, []⟩  -- STATUS
  | 0x013 => some ⟨.rc, 0, 1, []⟩  -- OVERRUN
  | 0x014 => some ⟨.ro, 0, 1, []⟩  -- SEQ
  | 0x015 => some ⟨.ro, 0, 1, []⟩  -- R_TICK_LO
  | 0x016 => some ⟨.ro, 0, 1, []⟩  -- R_TICK_HI
  | 0x020 => some ⟨.rc, 0, 1, []⟩  -- CNT_START_LOST
  | 0x021 => some ⟨.rc, 0, 1, []⟩  -- CNT_RESULTS
  | 0x022 => some ⟨.rc, 0, 1, []⟩  -- CNT_OPEN
  | 0x023 => some ⟨.rc, 0, 1, []⟩  -- CNT_OVR
  | 0x101 => some ⟨.rw, 0, 32, [(0, 7)]⟩  -- I_GAIN
  | 0x102 => some ⟨.rw, 0, 32, [(0, 65535)]⟩  -- I_SETTLE
  | 0x103 => some ⟨.rw, 0, 32, [(0, 3)]⟩  -- I_EXC
  | 0x104 => some ⟨.rw, 0, 32, [(0, 256)]⟩  -- I_BURNOUT
  | 0x105 => some ⟨.rw, 32, 32, [(0, 32), (63, 63)]⟩  -- I_TREF
  | 0x106 => some ⟨.ro, 4, 32, []⟩  -- I_STATE
  | 0x107 => some ⟨.ro, 0x7fc00000, 32, []⟩  -- I_ENG
  | 0x201 => some ⟨.rw, 0, 8, [(0, 2)]⟩  -- D_MODE
  | 0x202 => some ⟨.rw, 0, 8, [(0, 65535)]⟩  -- D_CODE
  | 0x203 => some ⟨.rw, 0, 8, [(0, 65535)]⟩  -- D_CODE0
  | 0x204 => some ⟨.rw, 0, 8, [(0, 65535)]⟩  -- D_T0
  | 0x205 => some ⟨.rw, 0, 8, [(0, 65535)]⟩  -- D_TC
  | 0x206 => some ⟨.rw, 32, 8, [(0, 32)]⟩  -- D_TINPUT
  | 0x207 => some ⟨.rw, 16, 8, [(1, 65535)]⟩  -- D_STEP
  | 0x208 => some ⟨.rw, 0, 8, [(0, 65535)]⟩  -- D_MIN
  | 0x209 => some ⟨.rw, 0xffff, 8, [(0, 65535)]⟩  -- D_MAX
  | 0x20A => some ⟨.ro, 0, 8, []⟩  -- D_STATE
  | _ => none

/-- The row of an item, by class and item code. -/
def paramItem (cls item : Nat) : Option Item :=
  match cls with
  | 4 => itemsDev item
  | 1 => itemsChan item
  | 2 => itemsTile item
  | 13 => itemsRefin item
  | 12 => itemsTime item
  | 5 => itemsEng item
  | 6 => itemsAcq item
  | 7 => itemsRooms item
  | 8 => itemsCmp item
  | 11 => itemsPort item
  | 10 => itemsLane item
  | 9 => itemsMem item
  | 18 => itemsEvq item
  | 19 => itemsLedger item
  | 17 => itemsSpare item
  | 16 => itemsPwr item
  | 15 => itemsTherm item
  | 14 => itemsPfe item
  | _ => none

/-- The address of an item of an instance (R13): class [31:24], instance [23:12], item [11:0]. -/
def pAddr (cls item inst : Nat) : Nat := cls * 0x1000000 + inst * 0x1000 + item

/-! Addresses of class DEV. -/
/-- DEV.NUMBER -/ abbrev pDevNumber : Nat := 0x04000001
/-- DEV.ARRAY -/ abbrev pDevArray : Nat := 0x04000002
/-- DEV.ROOT -/ abbrev pDevRoot : Nat := 0x04000003

/-! Addresses of class CHAN. -/
/-- CHAN.THRESH of an instance -/ def pChanThresh (i : Nat) : Nat := pAddr 1 0x001 i
/-- CHAN.HYST of an instance -/ def pChanHyst (i : Nat) : Nat := pAddr 1 0x002 i
/-- CHAN.MODE of an instance -/ def pChanMode (i : Nat) : Nat := pAddr 1 0x003 i
/-- CHAN.POLARITY of an instance -/ def pChanPolarity (i : Nat) : Nat := pAddr 1 0x004 i
/-- CHAN.TERM of an instance -/ def pChanTerm (i : Nat) : Nat := pAddr 1 0x005 i
/-- CHAN.OFFSET of an instance -/ def pChanOffset (i : Nat) : Nat := pAddr 1 0x006 i
/-- CHAN.STUCK_LIMIT of an instance -/ def pChanStuckLimit (i : Nat) : Nat := pAddr 1 0x007 i
/-- CHAN.AUTOREADMIT of an instance -/ def pChanAutoreadmit (i : Nat) : Nat := pAddr 1 0x008 i
/-- CHAN.READMIT of an instance -/ def pChanReadmit (i : Nat) : Nat := pAddr 1 0x009 i
/-- CHAN.STATE of an instance -/ def pChanState (i : Nat) : Nat := pAddr 1 0x00A i
/-- CHAN.CAL_TEMP of an instance -/ def pChanCalTemp (i : Nat) : Nat := pAddr 1 0x00B i
/-- CHAN.CAL_SPAN of an instance -/ def pChanCalSpan (i : Nat) : Nat := pAddr 1 0x00C i
/-- CHAN.CAL_AGE of an instance -/ def pChanCalAge (i : Nat) : Nat := pAddr 1 0x00D i
/-- CHAN.CNT_HITS of an instance -/ def pChanCntHits (i : Nat) : Nat := pAddr 1 0x010 i
/-- CHAN.CNT_PILEUP of an instance -/ def pChanCntPileup (i : Nat) : Nat := pAddr 1 0x011 i
/-- CHAN.CNT_LOST of an instance -/ def pChanCntLost (i : Nat) : Nat := pAddr 1 0x012 i
/-- CHAN.CNT_BLANKED of an instance -/ def pChanCntBlanked (i : Nat) : Nat := pAddr 1 0x013 i
/-- CHAN.CNT_STUCK of an instance -/ def pChanCntStuck (i : Nat) : Nat := pAddr 1 0x014 i
/-- CHAN.CNT_OUTRANGE of an instance -/ def pChanCntOutrange (i : Nat) : Nat := pAddr 1 0x015 i

/-! Addresses of class TILE. -/
/-- TILE.CAL_PERIOD of an instance -/ def pTileCalPeriod (i : Nat) : Nat := pAddr 2 0x001 i
/-- TILE.CAL_DT of an instance -/ def pTileCalDt (i : Nat) : Nat := pAddr 2 0x002 i
/-- TILE.CAL_EDGES of an instance -/ def pTileCalEdges (i : Nat) : Nat := pAddr 2 0x003 i
/-- TILE.TRIM_EN of an instance -/ def pTileTrimEn (i : Nat) : Nat := pAddr 2 0x004 i
/-- TILE.TAC_TRIM0 of an instance -/ def pTileTacTrim0 (i : Nat) : Nat := pAddr 2 0x005 i
/-- TILE.TAC_T0 of an instance -/ def pTileTacT0 (i : Nat) : Nat := pAddr 2 0x006 i
/-- TILE.TAC_TC of an instance -/ def pTileTacTc (i : Nat) : Nat := pAddr 2 0x007 i
/-- TILE.TAC_TRIM of an instance -/ def pTileTacTrim (i : Nat) : Nat := pAddr 2 0x008 i
/-- TILE.TEMP of an instance -/ def pTileTemp (i : Nat) : Nat := pAddr 2 0x009 i
/-- TILE.CAL_CHANNEL of an instance -/ def pTileCalChannel (i : Nat) : Nat := pAddr 2 0x00A i

/-! Addresses of class REFIN. -/
/-- REFIN.MODE of an instance -/ def pRefinMode (i : Nat) : Nat := pAddr 13 0x001 i
/-- REFIN.PRESCALE of an instance -/ def pRefinPrescale (i : Nat) : Nat := pAddr 13 0x002 i
/-- REFIN.EDGE of an instance -/ def pRefinEdge (i : Nat) : Nat := pAddr 13 0x003 i
/-- REFIN.GATE of an instance -/ def pRefinGate (i : Nat) : Nat := pAddr 13 0x004 i
/-- REFIN.CAL of an instance -/ def pRefinCal (i : Nat) : Nat := pAddr 13 0x005 i
/-- REFIN.FREQ_LO of an instance -/ def pRefinFreqLo (i : Nat) : Nat := pAddr 13 0x010 i
/-- REFIN.FREQ_HI of an instance -/ def pRefinFreqHi (i : Nat) : Nat := pAddr 13 0x011 i
/-- REFIN.COUNT_LO of an instance -/ def pRefinCountLo (i : Nat) : Nat := pAddr 13 0x012 i
/-- REFIN.COUNT_HI of an instance -/ def pRefinCountHi (i : Nat) : Nat := pAddr 13 0x013 i
/-- REFIN.SPAN_LO of an instance -/ def pRefinSpanLo (i : Nat) : Nat := pAddr 13 0x014 i
/-- REFIN.SPAN_HI of an instance -/ def pRefinSpanHi (i : Nat) : Nat := pAddr 13 0x015 i
/-- REFIN.PHASE of an instance -/ def pRefinPhase (i : Nat) : Nat := pAddr 13 0x016 i
/-- REFIN.STATUS of an instance -/ def pRefinStatus (i : Nat) : Nat := pAddr 13 0x017 i
/-- REFIN.CNT_NOSTAMP of an instance -/ def pRefinCntNostamp (i : Nat) : Nat := pAddr 13 0x018 i
/-- REFIN.DM_START of an instance -/ def pRefinDmStart (i : Nat) : Nat := pAddr 13 0x101 i
/-- REFIN.DM_STOP of an instance -/ def pRefinDmStop (i : Nat) : Nat := pAddr 13 0x102 i
/-- REFIN.DM_OPEN of an instance -/ def pRefinDmOpen (i : Nat) : Nat := pAddr 13 0x103 i
/-- REFIN.DM_CLOSE of an instance -/ def pRefinDmClose (i : Nat) : Nat := pAddr 13 0x104 i
/-- REFIN.DM_CLEAR of an instance -/ def pRefinDmClear (i : Nat) : Nat := pAddr 13 0x105 i
/-- REFIN.DM_N of an instance -/ def pRefinDmN (i : Nat) : Nat := pAddr 13 0x110 i
/-- REFIN.DM_FIRST of an instance -/ def pRefinDmFirst (i : Nat) : Nat := pAddr 13 0x111 i
/-- REFIN.DM_SUM of an instance -/ def pRefinDmSum (i : Nat) : Nat := pAddr 13 0x112 i
/-- REFIN.DM_SUMSQ_LO of an instance -/ def pRefinDmSumsqLo (i : Nat) : Nat := pAddr 13 0x113 i
/-- REFIN.DM_SUMSQ_HI of an instance -/ def pRefinDmSumsqHi (i : Nat) : Nat := pAddr 13 0x114 i
/-- REFIN.DM_LAST of an instance -/ def pRefinDmLast (i : Nat) : Nat := pAddr 13 0x115 i
/-- REFIN.DM_STATUS of an instance -/ def pRefinDmStatus (i : Nat) : Nat := pAddr 13 0x116 i
/-- REFIN.DM_CNT_IGNORED of an instance -/ def pRefinDmCntIgnored (i : Nat) : Nat := pAddr 13 0x118 i
/-- REFIN.DM_CNT_STARTLOST of an instance -/ def pRefinDmCntStartlost (i : Nat) : Nat := pAddr 13 0x119 i
/-- REFIN.DM_CNT_VOID of an instance -/ def pRefinDmCntVoid (i : Nat) : Nat := pAddr 13 0x11A i
/-- REFIN.CO_TICK_LO of an instance -/ def pRefinCoTickLo (i : Nat) : Nat := pAddr 13 0x201 i
/-- REFIN.CO_TICK_HI of an instance -/ def pRefinCoTickHi (i : Nat) : Nat := pAddr 13 0x202 i
/-- REFIN.CO_FINE of an instance -/ def pRefinCoFine (i : Nat) : Nat := pAddr 13 0x203 i
/-- REFIN.CO_WIDTH of an instance -/ def pRefinCoWidth (i : Nat) : Nat := pAddr 13 0x204 i
/-- REFIN.CO_PERIOD of an instance -/ def pRefinCoPeriod (i : Nat) : Nat := pAddr 13 0x205 i
/-- REFIN.CO_COUNT of an instance -/ def pRefinCoCount (i : Nat) : Nat := pAddr 13 0x206 i
/-- REFIN.CO_ARM of an instance -/ def pRefinCoArm (i : Nat) : Nat := pAddr 13 0x207 i
/-- REFIN.CO_STATE of an instance -/ def pRefinCoState (i : Nat) : Nat := pAddr 13 0x208 i
/-- REFIN.CO_MISSED of an instance -/ def pRefinCoMissed (i : Nat) : Nat := pAddr 13 0x209 i
/-- REFIN.CK_M of an instance -/ def pRefinCkM (i : Nat) : Nat := pAddr 13 0x301 i
/-- REFIN.CK_D of an instance -/ def pRefinCkD (i : Nat) : Nat := pAddr 13 0x302 i
/-- REFIN.CK_OFFSET of an instance -/ def pRefinCkOffset (i : Nat) : Nat := pAddr 13 0x303 i
/-- REFIN.CK_EN of an instance -/ def pRefinCkEn (i : Nat) : Nat := pAddr 13 0x304 i
/-- REFIN.PPS_EN -/ abbrev pRefinPpsEn : Nat := 0x0D000401
/-- REFIN.PPS_OFFSET -/ abbrev pRefinPpsOffset : Nat := 0x0D000402
/-- REFIN.PPS_WIDTH -/ abbrev pRefinPpsWidth : Nat := 0x0D000403
/-- REFIN.PPS_UNLOCKED -/ abbrev pRefinPpsUnlocked : Nat := 0x0D000404
/-- REFIN.PPSIN_OFFSET -/ abbrev pRefinPpsinOffset : Nat := 0x0D000410
/-- REFIN.PPSIN_WINDOW -/ abbrev pRefinPpsinWindow : Nat := 0x0D000411
/-- REFIN.PPSIN_CNT_IGNORED -/ abbrev pRefinPpsinCntIgnored : Nat := 0x0D000412
/-- REFIN.PPSIN_STATUS -/ abbrev pRefinPpsinStatus : Nat := 0x0D000413

/-! Addresses of class TIME. -/
/-- TIME.SOURCE -/ abbrev pTimeSource : Nat := 0x0C000001
/-- TIME.PREFER -/ abbrev pTimePrefer : Nat := 0x0C000002
/-- TIME.REVERT -/ abbrev pTimeRevert : Nat := 0x0C000003
/-- TIME.REVERT_HOLD -/ abbrev pTimeRevertHold : Nat := 0x0C000004
/-- TIME.STEP_LIMIT -/ abbrev pTimeStepLimit : Nat := 0x0C000005
/-- TIME.PATH_LIMIT -/ abbrev pTimePathLimit : Nat := 0x0C000006
/-- TIME.SLEW_MAX -/ abbrev pTimeSlewMax : Nat := 0x0C000007
/-- TIME.SYNC_LOG -/ abbrev pTimeSyncLog : Nat := 0x0C000008
/-- TIME.LOST_COUNT -/ abbrev pTimeLostCount : Nat := 0x0C000009
/-- TIME.HOLD_AVG -/ abbrev pTimeHoldAvg : Nat := 0x0C00000A
/-- TIME.HOLD_ALARM -/ abbrev pTimeHoldAlarm : Nat := 0x0C00000B
/-- TIME.PTP_DOMAIN -/ abbrev pTimePtpDomain : Nat := 0x0C00000C
/-- TIME.NOW_LO -/ abbrev pTimeNowLo : Nat := 0x0C000010
/-- TIME.NOW_HI -/ abbrev pTimeNowHi : Nat := 0x0C000011
/-- TIME.NOW_FINE -/ abbrev pTimeNowFine : Nat := 0x0C000012
/-- TIME.STATE -/ abbrev pTimeState : Nat := 0x0C000013
/-- TIME.RATE_LO -/ abbrev pTimeRateLo : Nat := 0x0C000014
/-- TIME.RATE_HI -/ abbrev pTimeRateHi : Nat := 0x0C000015
/-- TIME.LAST_STEP_LO -/ abbrev pTimeLastStepLo : Nat := 0x0C000016
/-- TIME.LAST_STEP_HI -/ abbrev pTimeLastStepHi : Nat := 0x0C000017
/-- TIME.STEPS -/ abbrev pTimeSteps : Nat := 0x0C000018
/-- TIME.CNT_LAUNCH_MISSED -/ abbrev pTimeCntLaunchMissed : Nat := 0x0C000019
/-- TIME.CNT_QFULL -/ abbrev pTimeCntQfull : Nat := 0x0C00001A
/-- TIME.HOLD_DRIFT -/ abbrev pTimeHoldDrift : Nat := 0x0C00001B
/-- TIME.UTC_OFFSET -/ abbrev pTimeUtcOffset : Nat := 0x0C00001C
/-- TIME.D_ENABLE of an instance -/ def pTimeDEnable (i : Nat) : Nat := pAddr 12 0x101 i
/-- TIME.D_TRANSPORT of an instance -/ def pTimeDTransport (i : Nat) : Nat := pAddr 12 0x102 i
/-- TIME.D_ASYM of an instance -/ def pTimeDAsym (i : Nat) : Nat := pAddr 12 0x103 i
/-- TIME.D_FLAGS of an instance -/ def pTimeDFlags (i : Nat) : Nat := pAddr 12 0x110 i
/-- TIME.D_OFFSET of an instance -/ def pTimeDOffset (i : Nat) : Nat := pAddr 12 0x111 i
/-- TIME.D_MPD_LO of an instance -/ def pTimeDMpdLo (i : Nat) : Nat := pAddr 12 0x112 i
/-- TIME.D_MPD_HI of an instance -/ def pTimeDMpdHi (i : Nat) : Nat := pAddr 12 0x113 i
/-- TIME.D_ASYM_PROPOSAL of an instance -/ def pTimeDAsymProposal (i : Nat) : Nat := pAddr 12 0x114 i
/-- TIME.D_EXCHANGES of an instance -/ def pTimeDExchanges (i : Nat) : Nat := pAddr 12 0x115 i
/-- TIME.D_CNT_BAD of an instance -/ def pTimeDCntBad (i : Nat) : Nat := pAddr 12 0x116 i

/-! Addresses of class ENG. -/
/-- ENG.RUN of an instance -/ def pEngRun (i : Nat) : Nat := pAddr 5 0x001 i
/-- ENG.ENTRY of an instance -/ def pEngEntry (i : Nat) : Nat := pAddr 5 0x002 i
/-- ENG.CHANMASK of an instance -/ def pEngChanmask (i : Nat) : Nat := pAddr 5 0x003 i
/-- ENG.COPY of an instance -/ def pEngCopy (i : Nat) : Nat := pAddr 5 0x004 i
/-- ENG.BUDGET of an instance -/ def pEngBudget (i : Nat) : Nat := pAddr 5 0x005 i
/-- ENG.PRIV of an instance -/ def pEngPriv (i : Nat) : Nat := pAddr 5 0x006 i
/-- ENG.AUTORESTART of an instance -/ def pEngAutorestart (i : Nat) : Nat := pAddr 5 0x007 i
/-- ENG.STATE of an instance -/ def pEngState (i : Nat) : Nat := pAddr 5 0x010 i
/-- ENG.PC of an instance -/ def pEngPc (i : Nat) : Nat := pAddr 5 0x011 i
/-- ENG.TRAP of an instance -/ def pEngTrap (i : Nat) : Nat := pAddr 5 0x012 i
/-- ENG.IMAGE_CRC of an instance -/ def pEngImageCrc (i : Nat) : Nat := pAddr 5 0x013 i
/-- ENG.MAX_CYCLES of an instance -/ def pEngMaxCycles (i : Nat) : Nat := pAddr 5 0x014 i
/-- ENG.CNT_DROPPED of an instance -/ def pEngCntDropped (i : Nat) : Nat := pAddr 5 0x020 i
/-- ENG.CNT_IDLE of an instance -/ def pEngCntIdle (i : Nat) : Nat := pAddr 5 0x021 i
/-- ENG.CNT_PRIM of an instance -/ def pEngCntPrim (i : Nat) : Nat := pAddr 5 0x022 i
/-- ENG.CNT_PRIM_LOST of an instance -/ def pEngCntPrimLost (i : Nat) : Nat := pAddr 5 0x023 i
/-- ENG.CNT_EMITS of an instance -/ def pEngCntEmits (i : Nat) : Nat := pAddr 5 0x024 i
/-- ENG.CNT_RAISE_LOST of an instance -/ def pEngCntRaiseLost (i : Nat) : Nat := pAddr 5 0x025 i
/-- ENG.CNT_STALL of an instance -/ def pEngCntStall (i : Nat) : Nat := pAddr 5 0x026 i
/-- ENG.CNT_TRAPS of an instance -/ def pEngCntTraps (i : Nat) : Nat := pAddr 5 0x027 i
/-- ENG.CNT_PORT_REFUSED of an instance -/ def pEngCntPortRefused (i : Nat) : Nat := pAddr 5 0x028 i

/-! Addresses of class ACQ. -/
/-- ACQ.PRETRIG -/ abbrev pAcqPretrig : Nat := 0x06000001
/-- ACQ.WINDOW_MAX -/ abbrev pAcqWindowMax : Nat := 0x06000002
/-- ACQ.TAIL -/ abbrev pAcqTail : Nat := 0x06000003
/-- ACQ.MAX_BOOKINGS -/ abbrev pAcqMaxBookings : Nat := 0x06000004
/-- ACQ.STATION -/ abbrev pAcqStation : Nat := 0x06000005
/-- ACQ.PRIM_UP -/ abbrev pAcqPrimUp : Nat := 0x06000006
/-- ACQ.ARM_UNLOCKED -/ abbrev pAcqArmUnlocked : Nat := 0x06000007
/-- ACQ.RED_CHAN -/ abbrev pAcqRedChan : Nat := 0x06000008
/-- ACQ.RED_PFE -/ abbrev pAcqRedPfe : Nat := 0x06000009
/-- ACQ.RED_PFE_MASK -/ abbrev pAcqRedPfeMask : Nat := 0x0600000A
/-- ACQ.RED_ACQ -/ abbrev pAcqRedAcq : Nat := 0x0600000B
/-- ACQ.MON_MAX_ROOMS -/ abbrev pAcqMonMaxRooms : Nat := 0x0600000C
/-- ACQ.STATE -/ abbrev pAcqState : Nat := 0x06000010
/-- ACQ.ARM_TICK_LO -/ abbrev pAcqArmTickLo : Nat := 0x06000011
/-- ACQ.ARM_TICK_HI -/ abbrev pAcqArmTickHi : Nat := 0x06000012
/-- ACQ.ARMED_TICKS_LO -/ abbrev pAcqArmedTicksLo : Nat := 0x06000013
/-- ACQ.ARMED_TICKS_HI -/ abbrev pAcqArmedTicksHi : Nat := 0x06000014
/-- ACQ.DEAD_TICKS_LO -/ abbrev pAcqDeadTicksLo : Nat := 0x06000015
/-- ACQ.DEAD_TICKS_HI -/ abbrev pAcqDeadTicksHi : Nat := 0x06000016
/-- ACQ.DEAD_ROOMS -/ abbrev pAcqDeadRooms : Nat := 0x06000017
/-- ACQ.DEAD_DEPTH -/ abbrev pAcqDeadDepth : Nat := 0x06000018
/-- ACQ.DEAD_BOOKINGS -/ abbrev pAcqDeadBookings : Nat := 0x06000019
/-- ACQ.DEAD_PINS -/ abbrev pAcqDeadPins : Nat := 0x0600001A
/-- ACQ.BOOKINGS_HELD -/ abbrev pAcqBookingsHeld : Nat := 0x0600001B
/-- ACQ.STATION_SEQ -/ abbrev pAcqStationSeq : Nat := 0x0600001C
/-- ACQ.CNT_ACCEPTS -/ abbrev pAcqCntAccepts : Nat := 0x06000020
/-- ACQ.CNT_REFUSED -/ abbrev pAcqCntRefused : Nat := 0x06000021
/-- ACQ.CNT_REF of an instance -/ def pAcqCntRef (i : Nat) : Nat := pAddr 6 0x030 i
/-- ACQ.CNT_PRIM_DROPPED -/ abbrev pAcqCntPrimDropped : Nat := 0x06000031
/-- ACQ.CNT_MON_DROPPED -/ abbrev pAcqCntMonDropped : Nat := 0x06000032

/-! Addresses of class ROOMS. -/
/-- ROOMS.HOLD -/ abbrev pRoomsHold : Nat := 0x07000001
/-- ROOMS.LOW_WATER -/ abbrev pRoomsLowWater : Nat := 0x07000002
/-- ROOMS.RESERVE -/ abbrev pRoomsReserve : Nat := 0x07000003
/-- ROOMS.W_TRIG -/ abbrev pRoomsWTrig : Nat := 0x07000004
/-- ROOMS.W_MON -/ abbrev pRoomsWMon : Nat := 0x07000005
/-- ROOMS.BACKLOG_ALARM -/ abbrev pRoomsBacklogAlarm : Nat := 0x07000006
/-- ROOMS.MAP_SEL -/ abbrev pRoomsMapSel : Nat := 0x07000007
/-- ROOMS.TOTAL -/ abbrev pRoomsTotal : Nat := 0x07000010
/-- ROOMS.FREE -/ abbrev pRoomsFree : Nat := 0x07000011
/-- ROOMS.FREE_MIN -/ abbrev pRoomsFreeMin : Nat := 0x07000012
/-- ROOMS.PINNED -/ abbrev pRoomsPinned : Nat := 0x07000013
/-- ROOMS.DETACHED -/ abbrev pRoomsDetached : Nat := 0x07000014
/-- ROOMS.FRAGMENT -/ abbrev pRoomsFragment : Nat := 0x07000015
/-- ROOMS.MONITOR -/ abbrev pRoomsMonitor : Nat := 0x07000016
/-- ROOMS.SPARES_LEFT -/ abbrev pRoomsSparesLeft : Nat := 0x07000017
/-- ROOMS.READY -/ abbrev pRoomsReady : Nat := 0x07000018
/-- ROOMS.MAP_W0 -/ abbrev pRoomsMapW0 : Nat := 0x07000020
/-- ROOMS.MAP_W1 -/ abbrev pRoomsMapW1 : Nat := 0x07000021
/-- ROOMS.MAP_W2 -/ abbrev pRoomsMapW2 : Nat := 0x07000022
/-- ROOMS.MAP_W3 -/ abbrev pRoomsMapW3 : Nat := 0x07000023
/-- ROOMS.CNT_STARVED -/ abbrev pRoomsCntStarved : Nat := 0x07000030
/-- ROOMS.CNT_TRUNCATED -/ abbrev pRoomsCntTruncated : Nat := 0x07000031
/-- ROOMS.CNT_RECYCLED -/ abbrev pRoomsCntRecycled : Nat := 0x07000032
/-- ROOMS.CNT_BOOKING_CRC -/ abbrev pRoomsCntBookingCrc : Nat := 0x07000033
/-- ROOMS.CNT_CACHE_MISS -/ abbrev pRoomsCntCacheMiss : Nat := 0x07000034
/-- ROOMS.C_LENGTH of an instance -/ def pRoomsCLength (i : Nat) : Nat := pAddr 7 0x101 i
/-- ROOMS.C_DEPTH of an instance -/ def pRoomsCDepth (i : Nat) : Nat := pAddr 7 0x102 i
/-- ROOMS.C_HELD_LO of an instance -/ def pRoomsCHeldLo (i : Nat) : Nat := pAddr 7 0x103 i
/-- ROOMS.C_HELD_HI of an instance -/ def pRoomsCHeldHi (i : Nat) : Nat := pAddr 7 0x104 i

/-! Addresses of class CMP. -/
/-- CMP.MODE -/ abbrev pCmpMode : Nat := 0x08000001
/-- CMP.MON_MODE -/ abbrev pCmpMonMode : Nat := 0x08000002
/-- CMP.CHAIN_DEPTH -/ abbrev pCmpChainDepth : Nat := 0x08000003
/-- CMP.HUFFMAN -/ abbrev pCmpHuffman : Nat := 0x08000004
/-- CMP.STREAM_KIB -/ abbrev pCmpStreamKib : Nat := 0x08000005
/-- CMP.D_LIMIT_MAX -/ abbrev pCmpDLimitMax : Nat := 0x08000006
/-- CMP.IN_SERVICE -/ abbrev pCmpInService : Nat := 0x08000010
/-- CMP.RAW_BYTES_LO -/ abbrev pCmpRawBytesLo : Nat := 0x08000011
/-- CMP.RAW_BYTES_HI -/ abbrev pCmpRawBytesHi : Nat := 0x08000012
/-- CMP.OUT_BYTES_LO -/ abbrev pCmpOutBytesLo : Nat := 0x08000013
/-- CMP.OUT_BYTES_HI -/ abbrev pCmpOutBytesHi : Nat := 0x08000014
/-- CMP.CNT_STORED -/ abbrev pCmpCntStored : Nat := 0x08000015
/-- CMP.CNT_FALLBACK -/ abbrev pCmpCntFallback : Nat := 0x08000016
/-- CMP.CNT_NOUNIT -/ abbrev pCmpCntNounit : Nat := 0x08000017
/-- CMP.U_STATE of an instance -/ def pCmpUState (i : Nat) : Nat := pAddr 8 0x101 i
/-- CMP.U_READMIT of an instance -/ def pCmpUReadmit (i : Nat) : Nat := pAddr 8 0x102 i
/-- CMP.U_CNT_MISMATCH of an instance -/ def pCmpUCntMismatch (i : Nat) : Nat := pAddr 8 0x103 i
/-- CMP.U_CNT_FRAGMENTS of an instance -/ def pCmpUCntFragments (i : Nat) : Nat := pAddr 8 0x104 i
/-- CMP.D_STATE of an instance -/ def pCmpDState (i : Nat) : Nat := pAddr 8 0x201 i
/-- CMP.D_CNT_JOBS of an instance -/ def pCmpDCntJobs (i : Nat) : Nat := pAddr 8 0x202 i
/-- CMP.D_CNT_ABORTS of an instance -/ def pCmpDCntAborts (i : Nat) : Nat := pAddr 8 0x203 i

/-! Addresses of class PORT. -/
/-- PORT.P_ENABLE of an instance -/ def pPortPEnable (i : Nat) : Nat := pAddr 11 0x001 i
/-- PORT.P_CREDIT_MAX of an instance -/ def pPortPCreditMax (i : Nat) : Nat := pAddr 11 0x002 i
/-- PORT.P_DATA_MAX of an instance -/ def pPortPDataMax (i : Nat) : Nat := pAddr 11 0x003 i
/-- PORT.P_STATE of an instance -/ def pPortPState (i : Nat) : Nat := pAddr 11 0x010 i
/-- PORT.P_PARTNER of an instance -/ def pPortPPartner (i : Nat) : Nat := pAddr 11 0x011 i
/-- PORT.P_LAST_INC of an instance -/ def pPortPLastInc (i : Nat) : Nat := pAddr 11 0x012 i
/-- PORT.P_CREDIT of an instance -/ def pPortPCredit (i : Nat) : Nat := pAddr 11 0x013 i
/-- PORT.P_LANTERN of an instance -/ def pPortPLantern (i : Nat) : Nat := pAddr 11 0x014 i
/-- PORT.P_TEST_TAG of an instance -/ def pPortPTestTag (i : Nat) : Nat := pAddr 11 0x015 i
/-- PORT.P_TEST_TICK of an instance -/ def pPortPTestTick (i : Nat) : Nat := pAddr 11 0x016 i
/-- PORT.P_CNT_FRAMES of an instance -/ def pPortPCntFrames (i : Nat) : Nat := pAddr 11 0x101 i
/-- PORT.P_CNT_CHECK of an instance -/ def pPortPCntCheck (i : Nat) : Nat := pAddr 11 0x102 i
/-- PORT.P_CNT_CODE of an instance -/ def pPortPCntCode (i : Nat) : Nat := pAddr 11 0x103 i
/-- PORT.P_CNT_STALE of an instance -/ def pPortPCntStale (i : Nat) : Nat := pAddr 11 0x104 i
/-- PORT.P_CNT_REFUSED_FRAME of an instance -/ def pPortPCntRefusedFrame (i : Nat) : Nat := pAddr 11 0x105 i
/-- PORT.P_CNT_LATE of an instance -/ def pPortPCntLate (i : Nat) : Nat := pAddr 11 0x106 i
/-- PORT.P_CNT_DAMAGED of an instance -/ def pPortPCntDamaged (i : Nat) : Nat := pAddr 11 0x107 i
/-- PORT.P_CNT_TIMEOUT of an instance -/ def pPortPCntTimeout (i : Nat) : Nat := pAddr 11 0x108 i
/-- PORT.P_CNT_ABSENT of an instance -/ def pPortPCntAbsent (i : Nat) : Nat := pAddr 11 0x109 i
/-- PORT.P_CNT_REFUSED of an instance -/ def pPortPCntRefused (i : Nat) : Nat := pAddr 11 0x10A i
/-- PORT.P_CNT_DROPPED of an instance -/ def pPortPCntDropped (i : Nat) : Nat := pAddr 11 0x10B i
/-- PORT.P_CNT_ABORTS of an instance -/ def pPortPCntAborts (i : Nat) : Nat := pAddr 11 0x10C i
/-- PORT.P_CNT_PREEMPT of an instance -/ def pPortPCntPreempt (i : Nat) : Nat := pAddr 11 0x10D i
/-- PORT.P_CNT_TEST of an instance -/ def pPortPCntTest (i : Nat) : Nat := pAddr 11 0x10E i
/-- PORT.DATA_PATH -/ abbrev pPortDataPath : Nat := 0x0B000201
/-- PORT.COMPLETE_TIMEOUT -/ abbrev pPortCompleteTimeout : Nat := 0x0B000202
/-- PORT.INCARNATION -/ abbrev pPortIncarnation : Nat := 0x0B000203
/-- PORT.CNT_PASS_FULL -/ abbrev pPortCntPassFull : Nat := 0x0B000204

/-! Addresses of class LANE. -/
/-- LANE.MAX_RUNG of an instance -/ def pLaneMaxRung (i : Nat) : Nat := pAddr 10 0x001 i
/-- LANE.STATE of an instance -/ def pLaneState (i : Nat) : Nat := pAddr 10 0x010 i
/-- LANE.RUNG of an instance -/ def pLaneRung (i : Nat) : Nat := pAddr 10 0x011 i
/-- LANE.EQ of an instance -/ def pLaneEq (i : Nat) : Nat := pAddr 10 0x012 i
/-- LANE.PRBS_ERRORS of an instance -/ def pLanePrbsErrors (i : Nat) : Nat := pAddr 10 0x013 i
/-- LANE.SKEW of an instance -/ def pLaneSkew (i : Nat) : Nat := pAddr 10 0x014 i
/-- LANE.CNT_VIOL of an instance -/ def pLaneCntViol (i : Nat) : Nat := pAddr 10 0x020 i
/-- LANE.CNT_LOCK_LOST of an instance -/ def pLaneCntLockLost (i : Nat) : Nat := pAddr 10 0x021 i
/-- LANE.CNT_RUNG_FAIL of an instance -/ def pLaneCntRungFail (i : Nat) : Nat := pAddr 10 0x022 i
/-- LANE.CNT_BRINGUP of an instance -/ def pLaneCntBringup (i : Nat) : Nat := pAddr 10 0x023 i
/-- LANE.LOWPOWER of an instance -/ def pLaneLowpower (i : Nat) : Nat := pAddr 10 0x030 i
/-- LANE.RETRAIN of an instance -/ def pLaneRetrain (i : Nat) : Nat := pAddr 10 0x031 i
/-- LANE.G_GROUPING of an instance -/ def pLaneGGrouping (i : Nat) : Nat := pAddr 10 0x101 i
/-- LANE.UP_WIDTH -/ abbrev pLaneUpWidth : Nat := 0x0A000201
/-- LANE.PRBS_LOG -/ abbrev pLanePrbsLog : Nat := 0x0A000202
/-- LANE.PRBS_MAX -/ abbrev pLanePrbsMax : Nat := 0x0A000203
/-- LANE.RETRY -/ abbrev pLaneRetry : Nat := 0x0A000204
/-- LANE.EQ_SOURCE -/ abbrev pLaneEqSource : Nat := 0x0A000205
/-- LANE.MAC_LO -/ abbrev pLaneMacLo : Nat := 0x0A000206
/-- LANE.MAC_HI -/ abbrev pLaneMacHi : Nat := 0x0A000207
/-- LANE.BASEX_STATUS -/ abbrev pLaneBasexStatus : Nat := 0x0A000208
/-- LANE.BASEX_CNT_DISCARD -/ abbrev pLaneBasexCntDiscard : Nat := 0x0A000209

/-! Addresses of class MEM. -/
/-- MEM.FREQ -/ abbrev pMemFreq : Nat := 0x09000001
/-- MEM.DENSITY -/ abbrev pMemDensity : Nat := 0x09000002
/-- MEM.AP_EN -/ abbrev pMemApEn : Nat := 0x09000003
/-- MEM.DINV -/ abbrev pMemDinv : Nat := 0x09000004
/-- MEM.SCRUB_PERIOD -/ abbrev pMemScrubPeriod : Nat := 0x09000005
/-- MEM.LOG_CE -/ abbrev pMemLogCe : Nat := 0x09000006
/-- MEM.RETRAIN -/ abbrev pMemRetrain : Nat := 0x09000007
/-- MEM.ROOMS_FIT -/ abbrev pMemRoomsFit : Nat := 0x09000010
/-- MEM.SCRUB_PASSES -/ abbrev pMemScrubPasses : Nat := 0x09000011
/-- MEM.LOG_HEAD -/ abbrev pMemLogHead : Nat := 0x09000012
/-- MEM.CNT_LOG_LOST -/ abbrev pMemCntLogLost : Nat := 0x09000013
/-- MEM.CNT_ONCHIP_CE -/ abbrev pMemCntOnchipCe : Nat := 0x09000014
/-- MEM.CNT_ONCHIP_UE -/ abbrev pMemCntOnchipUe : Nat := 0x09000015
/-- MEM.C_STATE of an instance -/ def pMemCState (i : Nat) : Nat := pAddr 9 0x101 i
/-- MEM.C_CNT_CE of an instance -/ def pMemCCntCe (i : Nat) : Nat := pAddr 9 0x102 i
/-- MEM.C_CNT_UE of an instance -/ def pMemCCntUe (i : Nat) : Nat := pAddr 9 0x103 i
/-- MEM.C_CNT_POISON of an instance -/ def pMemCCntPoison (i : Nat) : Nat := pAddr 9 0x104 i
/-- MEM.C_CNT_AP of an instance -/ def pMemCCntAp (i : Nat) : Nat := pAddr 9 0x105 i
/-- MEM.C_CNT_MERGE of an instance -/ def pMemCCntMerge (i : Nat) : Nat := pAddr 9 0x106 i
/-- MEM.C_HIT_PEAK of an instance -/ def pMemCHitPeak (i : Nat) : Nat := pAddr 9 0x107 i
/-- MEM.C_SCRUB_ADDR of an instance -/ def pMemCScrubAddr (i : Nat) : Nat := pAddr 9 0x108 i

/-! Addresses of class EVQ. -/
/-- EVQ.MASK of an instance -/ def pEvqMask (i : Nat) : Nat := pAddr 18 0x001 i
/-- EVQ.UP -/ abbrev pEvqUp : Nat := 0x12000002
/-- EVQ.LEVEL -/ abbrev pEvqLevel : Nat := 0x12000010
/-- EVQ.CNT_UP_LOST -/ abbrev pEvqCntUpLost : Nat := 0x12000011
/-- EVQ.CNT_SRC_LOST -/ abbrev pEvqCntSrcLost : Nat := 0x12000012

/-! Addresses of class LEDGER. -/
/-- LEDGER.HEAD -/ abbrev pLedgerHead : Nat := 0x13000010
/-- LEDGER.OLDEST -/ abbrev pLedgerOldest : Nat := 0x13000011
/-- LEDGER.PENDING -/ abbrev pLedgerPending : Nat := 0x13000012
/-- LEDGER.CNT_LOST -/ abbrev pLedgerCntLost : Nat := 0x13000013
/-- LEDGER.CNT_DENIED -/ abbrev pLedgerCntDenied : Nat := 0x13000014

/-! Addresses of class SPARE. -/
/-- SPARE.CKPT_PERIOD -/ abbrev pSpareCkptPeriod : Nat := 0x11000001
/-- SPARE.SELFTEST_PERIOD -/ abbrev pSpareSelftestPeriod : Nat := 0x11000002
/-- SPARE.DP_AUTO -/ abbrev pSpareDpAuto : Nat := 0x11000003
/-- SPARE.DP_HOLD -/ abbrev pSpareDpHold : Nat := 0x11000004
/-- SPARE.STATE -/ abbrev pSpareState : Nat := 0x11000010
/-- SPARE.CKPT_SEQ -/ abbrev pSpareCkptSeq : Nat := 0x11000011
/-- SPARE.CKPT_AGE -/ abbrev pSpareCkptAge : Nat := 0x11000012
/-- SPARE.SELFTEST_SEQ -/ abbrev pSpareSelftestSeq : Nat := 0x11000013
/-- SPARE.CNT_FENCE_HITS -/ abbrev pSpareCntFenceHits : Nat := 0x11000020
/-- SPARE.CNT_FAILOVERS -/ abbrev pSpareCntFailovers : Nat := 0x11000021
/-- SPARE.CNT_SPARE_RESETS -/ abbrev pSpareCntSpareResets : Nat := 0x11000022
/-- SPARE.CNT_SELFTEST_FAIL -/ abbrev pSpareCntSelftestFail : Nat := 0x11000023
/-- SPARE.CNT_DP_MOVES -/ abbrev pSpareCntDpMoves : Nat := 0x11000024
/-- SPARE.CNT_DP_RELEASED -/ abbrev pSpareCntDpReleased : Nat := 0x11000025

/-! Addresses of class PWR. -/
/-- PWR.BOOT_ON_LO -/ abbrev pPwrBootOnLo : Nat := 0x10000001
/-- PWR.BOOT_ON_HI -/ abbrev pPwrBootOnHi : Nat := 0x10000002
/-- PWR.HOLD_CAP -/ abbrev pPwrHoldCap : Nat := 0x10000003
/-- PWR.HOLD_VMIN -/ abbrev pPwrHoldVmin : Nat := 0x10000004
/-- PWR.HOLD_POWER -/ abbrev pPwrHoldPower : Nat := 0x10000005
/-- PWR.HOLD_MARGIN -/ abbrev pPwrHoldMargin : Nat := 0x10000006
/-- PWR.DOMAINS_LO -/ abbrev pPwrDomainsLo : Nat := 0x10000010
/-- PWR.DOMAINS_HI -/ abbrev pPwrDomainsHi : Nat := 0x10000011
/-- PWR.HOLD_V -/ abbrev pPwrHoldV : Nat := 0x10000012
/-- PWR.HOLD_CAP_MEAS -/ abbrev pPwrHoldCapMeas : Nat := 0x10000013
/-- PWR.HOLD_ENERGY -/ abbrev pPwrHoldEnergy : Nat := 0x10000014
/-- PWR.RESET_CAUSE -/ abbrev pPwrResetCause : Nat := 0x10000015
/-- PWR.CNT_DEFERRED -/ abbrev pPwrCntDeferred : Nat := 0x10000016
/-- PWR.CNT_W_RESETS -/ abbrev pPwrCntWResets : Nat := 0x10000017
/-- PWR.CNT_RESYNC -/ abbrev pPwrCntResync : Nat := 0x10000018
/-- PWR.I_STATUS of an instance -/ def pPwrIStatus (i : Nat) : Nat := pAddr 16 0x101 i

/-! Addresses of class THERM. -/
/-- THERM.T_WARN -/ abbrev pThermTWarn : Nat := 0x0F000001
/-- THERM.T_THROTTLE -/ abbrev pThermTThrottle : Nat := 0x0F000002
/-- THERM.T_CRIT -/ abbrev pThermTCrit : Nat := 0x0F000003
/-- THERM.HYST -/ abbrev pThermHyst : Nat := 0x0F000004
/-- THERM.R_WARN -/ abbrev pThermRWarn : Nat := 0x0F000005
/-- THERM.R_THROTTLE -/ abbrev pThermRThrottle : Nat := 0x0F000006
/-- THERM.THROTTLE_KEEP -/ abbrev pThermThrottleKeep : Nat := 0x0F000007
/-- THERM.TB_SOURCE -/ abbrev pThermTbSource : Nat := 0x0F000008
/-- THERM.TB_INPUT -/ abbrev pThermTbInput : Nat := 0x0F000009
/-- THERM.TB_T0 -/ abbrev pThermTbT0 : Nat := 0x0F00000A
/-- THERM.TB_C1 -/ abbrev pThermTbC1 : Nat := 0x0F00000B
/-- THERM.TB_C2 -/ abbrev pThermTbC2 : Nat := 0x0F00000C
/-- THERM.STATE -/ abbrev pThermState : Nat := 0x0F000010
/-- THERM.WORST -/ abbrev pThermWorst : Nat := 0x0F000011
/-- THERM.RATE -/ abbrev pThermRate : Nat := 0x0F000012
/-- THERM.BROKEN -/ abbrev pThermBroken : Nat := 0x0F000013
/-- THERM.TB_CORR -/ abbrev pThermTbCorr : Nat := 0x0F000014
/-- THERM.CNT_THROTTLE -/ abbrev pThermCntThrottle : Nat := 0x0F000015
/-- THERM.S_TEMP of an instance -/ def pThermSTemp (i : Nat) : Nat := pAddr 15 0x101 i
/-- THERM.S_READMIT of an instance -/ def pThermSReadmit (i : Nat) : Nat := pAddr 15 0x102 i

/-! Addresses of class PFE. -/
/-- PFE.MODE -/ abbrev pPfeMode : Nat := 0x0E000001
/-- PFE.SELECT -/ abbrev pPfeSelect : Nat := 0x0E000002
/-- PFE.ORDER -/ abbrev pPfeOrder : Nat := 0x0E000003
/-- PFE.DECIM -/ abbrev pPfeDecim : Nat := 0x0E000004
/-- PFE.INTERLEAVE -/ abbrev pPfeInterleave : Nat := 0x0E000005
/-- PFE.WORDS -/ abbrev pPfeWords : Nat := 0x0E000006
/-- PFE.SCAN -/ abbrev pPfeScan : Nat := 0x0E000007
/-- PFE.EXC_A_MODE -/ abbrev pPfeExcAMode : Nat := 0x0E000008
/-- PFE.EXC_A_I -/ abbrev pPfeExcAI : Nat := 0x0E000009
/-- PFE.EXC_B_I -/ abbrev pPfeExcBI : Nat := 0x0E00000A
/-- PFE.EXC_SETTLE -/ abbrev pPfeExcSettle : Nat := 0x0E00000B
/-- PFE.RESULT -/ abbrev pPfeResult : Nat := 0x0E000010
/-- PFE.ENG -/ abbrev pPfeEng : Nat := 0x0E000011
/-- PFE.STATUS -/ abbrev pPfeStatus : Nat := 0x0E000012
/-- PFE.OVERRUN -/ abbrev pPfeOverrun : Nat := 0x0E000013
/-- PFE.SEQ -/ abbrev pPfeSeq : Nat := 0x0E000014
/-- PFE.R_TICK_LO -/ abbrev pPfeRTickLo : Nat := 0x0E000015
/-- PFE.R_TICK_HI -/ abbrev pPfeRTickHi : Nat := 0x0E000016
/-- PFE.CNT_START_LOST -/ abbrev pPfeCntStartLost : Nat := 0x0E000020
/-- PFE.CNT_RESULTS -/ abbrev pPfeCntResults : Nat := 0x0E000021
/-- PFE.CNT_OPEN -/ abbrev pPfeCntOpen : Nat := 0x0E000022
/-- PFE.CNT_OVR -/ abbrev pPfeCntOvr : Nat := 0x0E000023
/-- PFE.I_GAIN of an instance -/ def pPfeIGain (i : Nat) : Nat := pAddr 14 0x101 i
/-- PFE.I_SETTLE of an instance -/ def pPfeISettle (i : Nat) : Nat := pAddr 14 0x102 i
/-- PFE.I_EXC of an instance -/ def pPfeIExc (i : Nat) : Nat := pAddr 14 0x103 i
/-- PFE.I_BURNOUT of an instance -/ def pPfeIBurnout (i : Nat) : Nat := pAddr 14 0x104 i
/-- PFE.I_TREF of an instance -/ def pPfeITref (i : Nat) : Nat := pAddr 14 0x105 i
/-- PFE.I_STATE of an instance -/ def pPfeIState (i : Nat) : Nat := pAddr 14 0x106 i
/-- PFE.I_ENG of an instance -/ def pPfeIEng (i : Nat) : Nat := pAddr 14 0x107 i
/-- PFE.D_MODE of an instance -/ def pPfeDMode (i : Nat) : Nat := pAddr 14 0x201 i
/-- PFE.D_CODE of an instance -/ def pPfeDCode (i : Nat) : Nat := pAddr 14 0x202 i
/-- PFE.D_CODE0 of an instance -/ def pPfeDCode0 (i : Nat) : Nat := pAddr 14 0x203 i
/-- PFE.D_T0 of an instance -/ def pPfeDT0 (i : Nat) : Nat := pAddr 14 0x204 i
/-- PFE.D_TC of an instance -/ def pPfeDTc (i : Nat) : Nat := pAddr 14 0x205 i
/-- PFE.D_TINPUT of an instance -/ def pPfeDTinput (i : Nat) : Nat := pAddr 14 0x206 i
/-- PFE.D_STEP of an instance -/ def pPfeDStep (i : Nat) : Nat := pAddr 14 0x207 i
/-- PFE.D_MIN of an instance -/ def pPfeDMin (i : Nat) : Nat := pAddr 14 0x208 i
/-- PFE.D_MAX of an instance -/ def pPfeDMax (i : Nat) : Nat := pAddr 14 0x209 i
/-- PFE.D_STATE of an instance -/ def pPfeDState (i : Nat) : Nat := pAddr 14 0x20A i

end Sys2Proof.Machine
end

