-- ==== Sys2Proof/Machine/Blocks.lean ====
section
/-! DEFINITION. The data types State is made of: acquisition, porter, compression, links, lanes, external memory,
front desk, Innkeeper, MRAM, power, thermal, precision front end and redundancy. All plain data. -/

namespace Sys2Proof.Machine

open Sys2Proof

/-! ### Acquisition and reductions (spec/07) -/

/-- ACQ.STATE [1:0], Table 7.7. -/
inductive ArmState where
  | disarmed | armPending | armed | disarmPending
  deriving DecidableEq, Repr

/-- The code ACQ.STATE reads. -/
def ArmState.code : ArmState → Nat
  | .disarmed => 0 | .armPending => 1 | .armed => 2 | .disarmPending => 3

/-- One accumulator of the reduction unit (R168–R171): kind 0 channel or 1 front-end input, the input and the decimation. -/
structure RedAcc where
  kind : Nat
  input : Nat
  decim : Nat
  count : Nat
  sum : Int
  max : Int
  min : Int
  unsettled : Bool
  isOpen : Bool
  ovr : Bool
  deriving DecidableEq, Repr

/-- The acquisition counts of one decimation (Table 7.5): dead ticks and refusals per input 0–4, accepts honoured and received. -/
structure AcqAcc where
  dead : List Nat
  refused : List Nat
  honoured : Nat
  received : Nat
  deriving DecidableEq, Repr

/-- The reduction settings in force (R173). -/
structure RedSetting where
  chan : Nat
  pfe : Nat
  pfeMask : Nat
  acq : Nat
  deriving DecidableEq, Repr

/-- The reduction unit (PD34). `accs` run; `ready` are those of intervals whose milestone word has entered the tile
stream (R170) or, for the front end, has been reached; `due` is the milestone whose records are still to enter the
monitor stream, and `closing` the setting their intervals ran under (R173). `step`, `holdover` and `edge` say of each decimation whether the running interval holds a STEP, a
holdover or A or D, `unseen` that it has not been observed from its start to its end (kind 3, R168), and `notRunning` which channels were not RUNNING for all of it; the `…Ended` fields hold the same of the interval that ended at `due`. -/
structure Reduction where
  inForce : RedSetting
  closing : RedSetting
  accs : List RedAcc
  ready : List RedAcc
  acq : Vector AcqAcc 3
  acqEnded : Vector AcqAcc 3
  step : Vector Bool 3
  holdover : Vector Bool 3
  edge : Vector Bool 3
  unseen : Vector Bool 3
  stepEnded : Vector Bool 3
  holdoverEnded : Vector Bool 3
  edgeEnded : Vector Bool 3
  unseenEnded : Vector Bool 3
  notRunning : Vector (BitVec 256) 3
  notRunningEnded : Vector (BitVec 256) 3
  ended : Nat
  due : Option DWord
  engineSeq : Vector Nat 128
  tileNext : Nat
  deriving DecidableEq, Repr

/-- Acquisition (R148–R166, PD20). `deadFrom` counts the ticks of the dead episode that is running; `deadTicks` and
`deadCond` count ticks. `criticalOff` is the milestone at which a CRITICAL device switches its domains off (R365). -/
structure Acq where
  state : ArmState
  armTick : DWord
  disarmTick : DWord
  criticalOff : Option DWord
  armedTicks : Nat
  deadTicks : Nat
  deadCond : Vector Nat 4
  deadMask : BitVec 4
  deadFrom : Nat
  stationSeq : BitVec 31
  prims : List Primitive
  primTile : Nat
  deriving DecidableEq, Repr

/-! ### Rooms, bookings, porter (spec/08) -/

/-- Room states, Table 8.2. -/
inductive RoomState where
  | free | opened | history | detached | monitor | fragment | index | out
  deriving DecidableEq, Repr

/-- The code of a room state, Table 8.2. -/
def RoomState.code : RoomState → Nat
  | .free => 0 | .opened => 1 | .history => 2 | .detached => 3 | .monitor => 4 | .fragment => 5 | .index => 6 | .out => 7

/-- A room map entry (Table 8.1). PINS includes the pins a fence stands for (R185). `wroteAt` gives of each word
written its index and the tick of its write (R155). `dated` says that MIN and MAX hold the tick of a word, `fresh` that nothing has been written since the
room was taken (R179). -/
structure Room where
  state : RoomState
  next : Option Nat
  pins : Nat
  suspect : Bool
  spare : Option Nat
  truncated : Bool
  chain : Nat
  count : Nat
  slot : Nat
  min : Nat
  max : Nat
  dated : Bool
  fresh : Bool
  wroteAt : List (Nat × DWord)
  deriving DecidableEq, Repr

/-- A chain (R180, R181): its written rooms from the tail to the open room, the next room granted in advance, the
words given a place in the open room and the next room, the mark H, and whether it starves. -/
structure Chain where
  active : Bool
  rooms : List Nat
  next : Option Nat
  assigned : Nat
  held : DWord
  starved : Bool
  deriving DecidableEq, Repr

/-- Booking states, Table 8.5 (FREE is the absence of the booking). -/
inductive BookState where
  | opened | closed | ready | sending
  deriving DecidableEq, Repr

/-- The code of a booking state, Table 8.5. -/
def BookState.code : BookState → Nat
  | .opened => 1 | .closed => 2 | .ready => 3 | .sending => 4

/-- A child record stored in a booking (R242): its port, its head waybill, its bytes, waybill included, and its rooms. -/
structure ChildRecord where
  port : Nat
  waybill : Waybill
  bytes : Nat
  rooms : List Nat
  deriving DecidableEq, Repr

/-- A booking (R188). `ranges` names the rooms pinned of each chain; `enabled` and `standby` are the port masks at the
launch tick (R244); `index` is its INDEX room, none until it is granted (R193); `order` is the launch-queue order (R161). -/
structure Booking where
  event : Word
  state : BookState
  station : Bool
  step : Bool
  suspect : Bool
  truncated : Bool
  corrupt : Bool
  expected : Half
  start : DWord
  length : Word
  launch : DWord
  close : DWord
  reported : Half
  absent : Half
  enabled : Half
  standby : Half
  index : Option Nat
  ranges : List (Nat × List Nat)
  children : List ChildRecord
  ownBytes : Nat
  order : Nat
  deriving DecidableEq, Repr

/-- A record on the pass-through list (R246), with the tick of its last EOF once that has come. -/
structure PassRecord where
  id : Nat
  waybill : Waybill
  bytes : Nat
  rooms : List Nat
  done : Option DWord
  deriving DecidableEq, Repr

/-- A closed monitor fragment (R174) with the tick at which it closed. -/
structure MonFragment where
  seq : Word
  start : DWord
  closed : DWord
  rooms : List Nat
  truncated : Bool
  step : Bool
  deriving DecidableEq, Repr

/-- What waits to enter the monitor chain (R174): a word of the monitor stream, or the close of the fragment at a milestone. -/
inductive MonItem where
  | word (w : DWord)
  | close (m : DWord)
  deriving DecidableEq, Repr

/-- The fetch of a booking record in progress (R189): the reads still to be served, the words read, whether one was bad, and whether it is the index room that
is read, after the record has failed its check. -/
structure Fetch where
  slot : Nat
  awaiting : Nat
  words : List (Nat × DWord)
  bad : Bool
  walking : Bool
  deriving DecidableEq, Repr

/-- What a readout serves. -/
inductive ReadSource where
  | booking (slot : Nat)
  | monitor (seq : Nat)
  | pass (id : Nat)
  deriving DecidableEq, Repr

/-- The stage of a readout (R207, R211): reading rooms for codec 0, waiting to start again from pass 1, in pass 1, in pass 2, or handed whole to the courier. -/
inductive ReadStage where
  | reading | again | pass1 | pass2 | handed
  deriving DecidableEq, Repr

/-- A fragment in readout (R192, R207) with its latched settings; `words` are the own words read, each with its room and
index; `childWords` the child record words read so far by port; `awaiting` the reads still to be served. `size` and `streams` are what pass 1 has kept: the
payload bytes, and of each stream its block type, length and CRC-32C. -/
structure Readout where
  source : ReadSource
  stage : ReadStage
  unit : Option Nat
  codec : Nat
  depth : Nat
  huffman : Nat
  streamKib : Nat
  awaiting : Nat
  words : List (Nat × Nat × DWord)
  childWords : List (Nat × Nat × DWord)
  raw : List DWord
  size : Nat
  streams : List (Nat × Nat × Word)
  payload : List Byte
  corrupt : Bool
  fallback : Bool
  nounit : Bool
  deriving DecidableEq, Repr

/-- The porter (PD20). `fresh` is the next never-used room number and `freed` the rooms returned to the tail of the free
list, oldest first; `rooms` lists the entries that differ from a free one; `requests` the requesters waiting
(R193) with their number of rooms; `turnM` says that the deficit round-robin stands at class M (R191); `monQueue` holds what waits to enter the monitor chain; `monDropped` says that the monitor fragment in progress has been dropped (R187); `rebuild` says that the free list is built again once every channel is READY (R270); `headWaybills` those waiting to go up without a booking (R245). -/
structure Porter where
  total : Nat
  fresh : Nat
  freed : List Nat
  freeCount : Nat
  rooms : List (Nat × Room)
  heldSlots : List Nat
  chains : Vector Chain 17
  requests : List (Nat × Nat)
  pointer : Nat
  lastChain : Nat
  bookings : List (Nat × Booking)
  cached : List Nat
  fetches : List Fetch
  orderNext : Nat
  pass : List PassRecord
  passNext : Nat
  monitor : List MonFragment
  monSeq : Word
  monStart : DWord
  monStep : Bool
  monTruncated : Bool
  monDropped : Bool
  monQueue : List MonItem
  readouts : List Readout
  deficitT : Int
  deficitM : Int
  turnM : Bool
  headWaybills : List Waybill
  lowWater : Bool
  reserve : Bool
  backlog : Bool
  mapSnapshot : Word × Word × Word
  inForce : List (Nat × Nat)
  rebuild : Bool
  deriving DecidableEq, Repr

/-! ### Compression (spec/09) -/

/-- CMP.U_STATE [1:0], Table 9.7. -/
inductive UnitState where
  | idle | pass1 | pass2 | quarantined
  deriving DecidableEq, Repr

/-- The code CMP.U_STATE reads. -/
def UnitState.code : UnitState → Nat
  | .idle => 0 | .pass1 => 1 | .pass2 => 2 | .quarantined => 3

/-- A compression unit. -/
structure CompUnit where
  state : UnitState
  mismatches : Nat
  deriving DecidableEq, Repr

/-- A decompression job (R212): its tag, its source bytes, its format, limit, and the mailbox whose command it serves
with the part of the output that the reply carries (none: the output is an engine image). -/
structure Job where
  tag : Half
  source : List Byte
  memErr : Bool
  format : Nat
  limit : Nat
  mailbox : Fin 8
  window : Option (Nat × Nat)
  deriving DecidableEq, Repr

/-- The compression island (PD21). -/
structure Compression where
  units : Vector CompUnit 4
  jobs : Vector (Option Job) 2
  errors : Vector Nat 2
  waiting : List Job
  rawBytes : DWord
  outBytes : DWord
  deriving DecidableEq, Repr

/-! ### Links (spec/10) -/

/-- PORT.P_STATE, Table 10.21. -/
inductive PortState where
  | disabled | down | admitting | admitted | standby | absent
  deriving DecidableEq, Repr

/-- The code PORT.P_STATE reads. -/
def PortState.code : PortState → Nat
  | .disabled => 0 | .down => 1 | .admitting => 2 | .admitted => 3 | .standby => 4 | .absent => 5

/-- A TIME frame's message (Table 10.12). -/
inductive TimeMsg where
  | sync | followUp (t1 : Stamp) | delayReq | delayResp (t4 : Stamp) | announce (utcOffset : Half) (steps : Half) (source flags : Byte)
  | signaling (flags : Byte)
  deriving DecidableEq, Repr

/-- The kinds of an ADMIT frame (Table 10.15). -/
inductive AdmitKind where
  | request | grant | refuse | confirm | close | role | renew
  deriving DecidableEq, Repr

/-- The code of an ADMIT kind. -/
def AdmitKind.code : AdmitKind → Nat
  | .request => 1 | .grant => 2 | .refuse => 3 | .confirm => 4 | .close => 5 | .role => 6 | .renew => 7

/-- The body of a frame to be sent; `mac` is a PTP message in an IEEE 802.3 frame on 1000BASE-X (Table 11.9), and `abort` the PREEMPT and EOF that end an aborted
DATA frame (R224). -/
inductive TxBody where
  | prim (f : PrimFrame)
  | accept (f : Accept)
  | test (tag : Word)
  | ctrl (f : CtrlFrame)
  | time (seq : Half) (msg : TimeMsg)
  | lantern (seq device : Half) (summary : Word)
  | evq (f : EvqFrame)
  | credit (limit : Nat) (granted : Word)
  | adm (kind : AdmitKind) (f : AdmitFrame)
  | mac (dest source : BitVec 48) (domain : Byte) (seq : Half) (msg : TimeMsg)
  | data (f : DataFrame)
  | abort
  deriving DecidableEq, Repr

/-- A frame waiting in a port's transmit queue: its launch tick when it is a launched frame (R96), whether it is one
forwarded for another device (R229), and its LINK byte. -/
structure TxFrame where
  body : TxBody
  launched : Option DWord
  tag : Half
  forwarded : Bool
  link : Byte
  deriving DecidableEq, Repr

/-- The record a port sends (R192): what it serves (nothing for a head waybill alone, R245), its head waybill, its content after the
waybill, the bytes of it already cut into DATA frames, and whether its first frame has started. -/
structure TxRecord where
  source : Option ReadSource
  waybill : Waybill
  content : List Byte
  sent : Nat
  started : Bool
  deriving DecidableEq, Repr

/-- Where the record in progress on a downstream port goes. -/
inductive RxTarget where
  | booking (slot : Nat)
  | pass (id : Nat)
  | drop
  deriving DecidableEq, Repr

/-- The record being received on a downstream port (R242); `stored` counts its content bytes received. -/
structure RxRecord where
  target : RxTarget
  waybill : Waybill
  stored : Nat
  deriving DecidableEq, Repr

/-- A frame's bytes in a port's receive buffer that wait for FRAGMENT rooms, its units, and where they go. -/
structure RxWait where
  target : RxTarget
  offset : Nat
  bytes : List Byte
  units : Nat
  deriving DecidableEq, Repr

/-- What an absence or a completion timeout of the present tick cut off on a port (R240): the state the port was in, the record in progress, the bookings that it
was marked absent in, and those of them cut by the timeout, with their event numbers. It is settled as the tick ends: a record whose last EOF arrives in the
same tick still counts as received. -/
structure TickCut where
  was : PortState
  rx : Option RxRecord
  slots : List Nat
  timed : List (Nat × Word)
  deriving DecidableEq, Repr

/-- A port (R217–R248). Ports 0–15 are downstream, 16 upstream, 17 spare lane. Times are measurement-clock counts.
`inc` is the link incarnation. On a downstream port `granted`, `consumed` and `announced` are the parent's grant, the units taken and
the grant last sent; on the other ports the child's copies. `sending` is the DATA frame in progress and `sendingUntil` the count at which it ends; `busyUntil` is the
count at which the frame of another type on the wire ends, and `inserted` says that such a frame stands inside the DATA frame (R223, R224). `lanternDue` is the
count at which the waiting LANTERN fell due (R237). -/
structure Port where
  state : PortState
  partner : Half
  partnerArray : BitVec 4
  inc : Byte
  lastInc : Option Byte
  role : Nat
  granted : Word
  consumed : Word
  announced : Word
  creditAt : Nat
  limit : Nat
  tx : List TxFrame
  lastSent : Option TxFrame
  sending : Option DataFrame
  sendingUntil : Nat
  busyUntil : Nat
  inserted : Bool
  record : Option TxRecord
  cut : Option TickCut
  rx : Option RxRecord
  rxWait : List RxWait
  lanternSeq : Half
  lanternDue : Nat
  lanternAt : Nat
  lapsed : Bool
  summary : Word
  askedAt : Option Nat
  refusedAt : Option Nat
  grantAt : Option Nat
  renewAt : Option Nat
  oldInc : Option Byte
  windowEnd : Option Nat
  testTag : Word
  testTick : Word
  timeSeq : Half
  deriving DecidableEq, Repr

/-! ### Lanes (spec/11) -/

/-- LANE.STATE, Table 11.12. -/
inductive LaneState where
  | off | locking | caps | training | running | idle | sleep | basex | unused
  deriving DecidableEq, Repr

/-- The code LANE.STATE reads. -/
def LaneState.code : LaneState → Nat
  | .off => 0 | .locking => 1 | .caps => 2 | .training => 3 | .running => 4 | .idle => 5 | .sleep => 6 | .basex => 7 | .unused => 8

/-- Where a port in LOCKING or TRAINING stands (R256, R258): `search` is the comma search; `verdictLate` the wait for verdicts past the VERDICT
period; `acking` a child that answers STEP. -/
inductive TrainStage where
  | none | search | start | prbs | verdict | verdictLate | stepping | acking | relock | finalCommas | waitRetry
  deriving DecidableEq, Repr

/-- One lane: what belongs to it alone. `capSets` counts the valid CAP sets received in CAPS, `capSeen` those of them with SEEN, `ackCount` the
ACK sets of the next rung, and `comma` is the comma-alignment offset recorded at the last lock (R84). `seeded` says that its checker has been seeded by a START
set, `pass` whether its count is within LANE.PRBS_MAX (R258), and `sent` are the START or GO sets that it sent last. -/
structure Lane where
  signal : Bool
  inverted : Bool
  eq : Half
  errors : Half
  partnerErrors : Half
  skew : Nat
  capSets : Nat
  capSeen : Nat
  ackCount : Nat
  verdictPass : Option Bool
  comma : Nat
  seeded : Bool
  pass : Option Bool
  sent : List (SetKind × TrainSet)
  deriving DecidableEq, Repr

/-- The bring-up of a port (Table 11.5). `width` is the width in effect, 0 where the port is not in service (R250–R252), and `noWork` says that LOCK_TIMEOUT has
left it without work (R260). `offer` and `table` are the rung offered and the equalisation table as the bring-up found them (R252);
`partnerOffer` the lowest rung the partner's CAP sets offered. `resume` says that a resume check runs. -/
structure Bringup where
  state : LaneState
  width : Nat
  stage : TrainStage
  rung : Nat
  target : Nat
  offer : Nat
  partnerOffer : Nat
  table : Option (List Byte)
  resume : Bool
  ownPass : Option Bool
  mismatch : Bool
  wokenByRetry : Bool
  noWork : Bool
  deriving DecidableEq, Repr

/-- 1000BASE-X (R264). -/
structure BaseX where
  sync : Bool
  anComplete : Bool
  linkUp : Bool
  partner : Half
  deriving DecidableEq, Repr

/-- The lanes: 21 lanes, the bring-up of each of 18 ports, the default equalisation table in use, 1000BASE-X of lanes 16 and 20, and
of each domain whether its lane runs 1000BASE-X since its last bring-up (R263). -/
structure Lanes where
  lanes : Vector Lane 21
  ports : Vector Bringup 18
  eqTable : Option (List Byte)
  eqDefault : Bool
  basex : Vector BaseX 2
  basexLast : Nat
  onBasex : Vector Bool 2
  refclk128 : Bool
  refclk125 : Bool
  deriving DecidableEq, Repr

/-! ### External memory (spec/12) -/

/-- MEM.C_STATE [1:0], Table 12.10. -/
inductive MemState where
  | off | training | ready | fault
  deriving DecidableEq, Repr

/-- The code MEM.C_STATE reads. -/
def MemState.code : MemState → Nat
  | .off => 0 | .training => 1 | .ready => 2 | .fault => 3

/-- Whom a general read serves. -/
inductive ReadDest where
  | own (src : ReadSource) (room index : Nat)
  | child (src : ReadSource) (port index : Nat)
  | record (slot index : Nat)
  | index (slot index : Nat)
  | night
  | none
  deriving DecidableEq, Repr

/-- A general access (Table 12.4): a corrected write-back, a poison rewrite, a 64-bit write, a read-modify-write of some
bytes, or a read. -/
inductive MemOp where
  | corrected (w : DWord)
  | poison
  | write (w : DWord)
  | modify (bytes : List (Nat × Byte))
  | read (dest : ReadDest)
  deriving DecidableEq, Repr

/-- A waiting general access: its level in Table 12.4, its word number (R268) and what it does. -/
structure Access where
  level : Nat
  word : Nat
  op : MemOp
  deriving DecidableEq, Repr

/-- A word in a hit write queue (R272): the chain, room and index it goes to, and the tick for MIN and MAX. -/
structure HitWrite where
  chain : Nat
  room : Nat
  index : Nat
  data : DWord
  tick : Nat
  deriving DecidableEq, Repr

/-- An entry of a merge buffer (R282): the word number and the bytes written to it. -/
structure MergeEntry where
  word : Nat
  bytes : List (Nat × Byte)
  last : Nat
  deriving DecidableEq, Repr

/-- A memory channel. `overrun` says that HIT_OVERRUN was posted since MEM.C_HIT_PEAK was last read; `parity` holds the clock counts of its recent address parity errors (R281). -/
structure MemChannel where
  state : MemState
  cause : Nat
  freq : Nat
  density : Nat
  ap : Nat
  dinv : Nat
  hits : List HitWrite
  general : List Access
  merge : List MergeEntry
  mergeNext : Nat
  scrub : Nat
  overrun : Bool
  parity : List Nat
  deriving DecidableEq, Repr

/-- External memory: the four channels, the words rewritten as poison, the data bytes by device data address and the check bytes by word number. -/
structure ExtMem where
  channels : Vector MemChannel 4
  poisoned : List Nat
  data : Memory
  check : Memory
  deriving DecidableEq, Repr

/-! ### MRAM (spec/13) -/

/-- A ledger entry (Table 13.10) without its CRC-16, and whether that passes. -/
structure LedgerEntry where
  seq : Word
  tick : DWord
  origin : Nat
  kind : Nat
  command : Half
  object : Word
  old : Word
  new : Word
  detail : Half
  crcOk : Bool
  deriving DecidableEq, Repr

/-- An error log entry (Table 12.7) without its CRC-16. -/
structure LogEntry where
  seq : Word
  tick : DWord
  kind : Nat
  channel : Nat
  reader : Nat
  syndrome : Byte
  address : Word
  room : Option Nat
  bit : Nat
  deriving DecidableEq, Repr

/-- A checkpoint (R337): its header fields and the part of its body that the spec names. -/
structure Checkpoint where
  seq : Word
  tick : DWord
  ledger : Word
  bootCount : Nat
  quarantined : List Nat
  calNext : List Nat
  dacCodes : List Nat
  maint : List (Option Nat)
  valid : Bool
  deriving DecidableEq, Repr

/-- An MRAM batch other than a ledger entry (R369). -/
inductive Batch where
  | log (e : LogEntry)
  | incarnation (n : Byte)
  | checkpoint (c : Checkpoint)
  deriving DecidableEq, Repr

/-- The MRAM (PD33) and its batches. `ledger`, `log` and `checkpoints` are newest first; a ledger entry whose batch was cut stands in its slot with
`crcOk` false (R310, R356). `configBank` is the configuration bank selected in MRAM, and `retirement` the retirement map as bytes (Table 12.8). -/
structure Mram where
  ledger : List LedgerEntry
  ledgerHead : Word
  buffer : List LedgerEntry
  gap : Option (DWord × Nat)
  log : List LogEntry
  logHead : Word
  logBuffer : List LogEntry
  checkpoints : List Checkpoint
  checkpointSeq : Word
  bootImages : Vector (List Byte) 2
  bootBank : Nat
  configBanks : Vector (List Byte) 2
  configBank : Option Nat
  eqImage : List Byte
  linImages : List (Nat × List Byte)
  retirement : List Byte
  coefs : List (Nat × List Byte)
  incarnation : Byte
  waiting : List Batch
  running : Option Batch
  deriving DecidableEq, Repr

/-! ### Front desk, mailboxes, Aelko (spec/13, 14) -/

/-- Mailbox states (R297). -/
inductive MbState where
  | free | posted | busy | done
  deriving DecidableEq, Repr

/-- The code FD_MB_STATE reads. -/
def MbState.code : MbState → Nat
  | .free => 0 | .posted => 1 | .busy => 2 | .done => 3

/-- Maintenance held by an origin (R293). `ends` is the clock count at which a grant expires. -/
structure Maint where
  strap : Bool
  ends : Option Nat
  seconds : Nat
  deriving DecidableEq, Repr

/-- The front desk (AON). `events` is the local queue, `upstream` the upstream buffer, `sources` the records in the
source buffers (source, record), `evqHi` and `nowHi` the copies held for the HI registers; `jtagDr` is the data
register of FDACCESS and `jtagLast` the data read by its previous access (R302). -/
structure FrontDesk where
  mbMem : Memory
  mb : Vector MbState 8
  mbDone : Byte
  mbErr : Half
  attnEn : Byte
  events : List DWord
  evqHi : Word
  evqLost : Nat
  upstream : List DWord
  upstreamAt : Nat
  sources : List (Nat × DWord)
  sourceNext : Nat
  nowHi : Word
  uid : DWord
  isSealed : Bool
  strap : Bool
  maint : Vector (Option Maint) 2
  release : Half
  aelkoReady : Bool
  stage : Nat
  jtagDr : BitVec 49
  jtagLast : Word
  deriving DecidableEq, Repr

/-- A multi-block transfer in progress in a mailbox (R318). -/
structure Transfer where
  command : Half
  tag : Half
  selector : Word
  total : Nat
  data : List Byte
  check : Word
  at_ : Nat
  deriving DecidableEq, Repr

/-- The six check-value units (R226): their running values; for the courier's units 0–3 the port last served by each, and the running values parked for other
ports, whose CTRL frames are still on the wire. What Aelko's unit 4 parks stands with each transfer. -/
structure CheckUnits where
  running : Vector Word 6
  owner : Vector (Option Nat) 4
  parked : List (Nat × Word)
  deriving DecidableEq, Repr

/-- A command that Aelko has taken and not completed: its tag, origin and fields, and whether its block carried CONT; `verdict` is what the check of a
list of writes found at the start of its round (R327): the first pair that fails, its status and whether its origin was refused. -/
structure InFlight where
  tag : Half
  code : Half
  cont : Bool
  origin : Origin
  cmd : AelkoCmd
  verdict : Option (Nat × Status × Bool)
  deriving DecidableEq, Repr

/-- A port-window parameter write that waits for a round (R108, R299). -/
structure WindowWrite where
  engine : Fin 128
  addr : Word
  value : Word
  deriving DecidableEq, Repr

/-- Innkeeper states, Table 15.3. -/
inductive SpareState where
  | pair | selftest | spareActive | pairCycled | handover | none
  deriving DecidableEq, Repr

/-- The code SPARE.STATE reads. -/
def SpareState.code : SpareState → Nat
  | .pair => 0 | .selftest => 1 | .spareActive => 2 | .pairCycled => 3 | .handover => 4 | .none => 5

/-- A health report (Table 15.5) without magic, version and CRC. -/
structure HealthReport where
  byCommand : Bool
  seq : Word
  tick : DWord
  micros : Word
  failed : BitVec 7
  temperature : Half
  corrected : Half
  bank : Nat
  deriving DecidableEq, Repr

/-- The management cores (spec/15) and Aelko's own state. `switching` names the mailbox, tag and command of a RED_SWITCH or
RED_READMIT whose reply the other core sends, `bootFrom` the state before the boot of the spare that runs;
`dpAwaits` says that the data path has moved and its new link is still to be admitted (R347), `dpUpAt` gives the clock count at which its link was last
ADMITTED or took its place (R346; log entry 82), `selftestAt` that from which the period of the spare's self-test runs, and `selftestAsked` that of the RED_SELFTEST
that waits (R344). `configBank` is the configuration bank in use since the last start (R324). -/
structure Keeper where
  inFlight : Vector (Option InFlight) 8
  transfers : Vector (Option Transfer) 8
  window : List WindowWrite
  bootCount : Nat
  skipped : Nat
  configBank : Option Nat
  spare : SpareState
  fenced : Bool
  cycled : Bool
  selftestFailed : Bool
  selftestRunning : Option (Bool × DWord)
  selftestWaits : Option Bool
  selftestAt : Nat
  selftestMb : Option (Fin 8)
  selftestAsked : Nat
  report : Option HealthReport
  reportSeq : Word
  spareResets : List Nat
  switching : Option (Fin 8 × InFlight)
  bootFrom : SpareState
  ckptCommitted : Nat
  ckptAt : Nat
  dpMovedAt : Option Nat
  noStandby : Bool
  dpAwaits : Bool
  dpUpAt : Nat
  sysReset : Option Nat
  deriving DecidableEq, Repr

/-! ### Power, thermal (spec/16) -/

/-- Power and reset (AON). `domains` bit n is PD n. `handshakes` lists the class S crossings, as pairs of islands, whose
reset-done handshake is in progress (R359), and `signals` the islands that a single control signal has been raised to and not yet acknowledged (R357). `cutting`
says that PWRGOOD has fallen in the running tick and that no batch has been cut by it yet (R356; log entry 26). -/
structure Power where
  poreset : Bool
  pwrgood : Bool
  lowLong : Bool
  domains : BitVec 36
  cause : Nat
  hold : Nat
  cMeas : Option Nat
  testRunning : Bool
  testEnded : Bool
  short : Bool
  handshakes : List (Nat × Nat)
  signals : List Nat
  pairTesting : Bool
  cutting : Bool
  deriving DecidableEq, Repr

/-- One thermal sensor: its reading, whether it is broken, its run of deviating samples (R362), the sum and number of the
samples of the running 16 ms block, the block means of the last 256 ms, newest first, and the samples left before it returns to 1 kHz (R361). -/
structure Sensor where
  reading : Int
  broken : Bool
  deviating : Nat
  sum : Int
  samples : Nat
  means : List Int
  rate : Int
  high : Bool
  fast : Nat
  deriving DecidableEq, Repr

/-- Thermal states, Table 16.6. -/
inductive ThermState where
  | normal | warn | throttle | critical
  deriving DecidableEq, Repr

/-- The code THERM.STATE reads. -/
def ThermState.code : ThermState → Nat
  | .normal => 0 | .warn => 1 | .throttle => 2 | .critical => 3

/-- Thermal management. `critRun` counts consecutive samples at or above T_CRIT; `calm` counts the 16 ms updates for which
the leaving condition of the state has held; `critSeen` holds the sensors sampled in the running round of samples; `cycles` the cycles that the engine clocks have passed (R120, R364). -/
structure Thermal where
  sensors : Vector Sensor 17
  state : ThermState
  critRun : Nat
  critSeen : BitVec 17
  calm : Nat
  corr : Int
  cycles : Nat
  deriving DecidableEq, Repr

/-! ### Precision front end (spec/17) -/

/-- An input of the precision front end. `eng` is binary32; `count` the results since its last burnout test. -/
structure PfeInput where
  isOpen : Bool
  ovr : Bool
  valid : Bool
  eng : Word
  coefs : List Word
  count : Nat
  deriving DecidableEq, Repr

/-- A bias-trim DAC, its code apart (that is PFE.D_CODE): LIMIT and HOLD, the clock count of its last valid temperature, and whether a result of
its input has entered PFE.I_ENG that its loop has not yet taken. -/
structure Dac where
  limit : Bool
  hold : Bool
  lastTemp : Nat
  due : Bool
  deriving DecidableEq, Repr

/-- The precision front end (PD32). `settled` counts the settled results of the conversion or visit; `unsettled` the results
still unsettled; `delay` says that a delay runs; `delayStops` conversion is stopped by it; `testDue` that a burnout test comes at the end of the word of the other modulator; `tripA`, `tripB` that an excitation is tripped; `openWords` the words in
progress that a trip lets complete with OPEN. -/
structure Pfe where
  converting : Bool
  seq : Word
  settled : Nat
  unsettled : Nat
  delay : Bool
  delayStops : Bool
  testing : Bool
  testDue : Bool
  tripA : Bool
  tripB : Bool
  openWords : Nat
  result : Word
  eng : Word
  unread : Bool
  overrun : Bool
  tick : DWord
  modulator : Bool
  inputs : Vector PfeInput 32
  dacs : Vector Dac 8
  deriving DecidableEq, Repr

/-! ### The running tick (R12) -/

/-- What has been counted and set in the running tick (R12): of each counter its address, its value before and the increments, and the bits of FD_MB_DONE and
FD_MB_ERR that the device set. -/
structure Fresh where
  counts : List (Nat × Nat × Nat)
  done : Byte
  err : Half
  deriving DecidableEq, Repr

/-- A flipped word of an on-chip memory other than an engine's or a tile's table (R288): the memory as `memoryDomain` numbers it, the word, and whether it is
uncorrectable. -/
structure FlippedWord where
  memory : Nat
  word : Nat
  double : Bool
  deriving DecidableEq, Repr

end Sys2Proof.Machine
end

