-- ==== Sys2Proof/Machine/State.lean ====
section
/-! DEFINITION. The state of the LG9128 as plain data, the reasons a step can stop, and the state after reset. -/

namespace Sys2Proof.Machine

open Sys2Proof

/-- The whole state. `params` holds every parameter register and counter by address where it differs from its reset
value; `pending` the commands that wait, first in, first out. `free` is the model's own counter, at which the free
values of Config are taken (log entry 5); `lastStatus` the model's own record of how the last parameter write
that came with an origin completed (log entry 6). -/
structure State where
  params : Params
  time : TimeState
  chans : Vector Channel 256
  tiles : Vector TileState 16
  engines : Vector Engine 128
  ref : RefBlock
  acq : Acq
  red : Reduction
  porter : Porter
  comp : Compression
  ports : Vector Port 18
  checks : CheckUnits
  lanes : Lanes
  mem : ExtMem
  mram : Mram
  fd : FrontDesk
  keeper : Keeper
  power : Power
  therm : Thermal
  pfe : Pfe
  onchip : List FlippedWord
  fresh : Fresh
  free : Nat
  lastStatus : Status
  pending : List Instr
  deriving DecidableEq, Repr

/-- The faults of a step. No command of this part stops the machine: the constructor is raised by nothing. -/
inductive Fault where
  /-- Raised by no meaning. Safe: it never occurs. -/
  | none
  deriving DecidableEq, Repr

/-- The refusals of a step. -/
inductive Refusal where
  /-- Raised by an arm of `exec` whose command has no meaning yet. Safe: nothing can be proved of a next state. -/
  | notModelled (mnemonic : String)
  deriving DecidableEq, Repr

/-! ### Reset values of each block: what it holds at the release of its reset. -/

/-- A front end at reset (Table 2.12: THRESH 0, HYST 4, MODE 0, POLARITY 0, TERM 1). -/
def FrontEnd.reset : FrontEnd := { thresh := 0, hyst := 4, mode := 0, polarity := 0, term := 1 }

/-- A channel at reset (R48): DISABLED, nothing captured. -/
def Channel.reset : Channel :=
  { state := .disabled, level := false, volts := 0, front := FrontEnd.reset, entries := [], blind := none, blank := none,
    stuckFrom := none, inactiveFrom := none, offset := 0, table := none, tableBuilt := none,
    stagedTable := none, calStart := none, calOutcome := none, calWaiting := false, calDue := false, calPosted := false }

/-- A tile at reset. -/
def TileState.reset : TileState :=
  { held := [], output := [], lastLeft := none, disarmWord := none, prims := [], records := [], table := [],
    tableCe := [], tableBad := [], banks := Vector.replicate 4 0, calNext := 0, calLast := 0 }

/-- An engine at reset (R110, Table 5.3): STOPPED, registers and memories 0. -/
def Engine.reset : Engine :=
  { state := .stopped, v := Vector.replicate 16 0, h0 := 0, h1 := 0, pc := 0, flags := 0, imem := [], imemCe := [], imemBad := [],
    dmem := [], dmemCe := [], dmemBad := [], queue := [], late := [], watchdog := 0, restarts := 0, loaded := .none, trapCause := 0, trapPc := 0,
    trapCycle := 0, ready := 0, waitTarget := 0, dropped := 0, accStart := 0, accLength := 0, accLaunch := 0,
    accGo := ⟨0, false⟩, pwAddr := 0, pwValue := 0, pwGo := ⟨0, false⟩ }

/-- An exchange that has not begun. -/
def Exchange.reset : Exchange :=
  { seq := none, t1 := none, t2 := none, reqSeq := 0, reqSent := false, t3 := none, epoch := 0, bad := false }

/-- A domain at reset (Table 4.12): no flag is set. -/
def Domain.reset : Domain :=
  { lost := false, masterJump := false, pathChanged := false, tracking := false, l1sync := false, proposalValid := false,
    proposalHoldover := false, offset := 0, mpd := 0, proposal := 0, exchange := Exchange.reset, consecutive := 0,
    missed := 0, recent := [], jumps := [], within := 0, pathRun := [], pathRef := none, pathShift := 0, asymShift := 0, collecting := none, healthySince := none,
    measured := false, raw := 0, phase := none, rate := 0, rates := [] }

/-- The timebase at reset (R75): it counts from 0, FREERUN, domain A active. -/
def TimeState.reset : TimeState :=
  { clock := 0, tick := 0, fine := 0, servo := .freerun, active := 0, stepped := false, everLocked := false, epoch := 0, firstStep := none,
    restep := none, domains := Vector.replicate 2 Domain.reset, lockRun := 0, unlockRun := 0, sawHoldover := false,
    sawSwitch := false, rate := 0, correction := 0, limited := false, lastStep := 0,
    holdStart := none, driftPosted := false, bothJumped := false, nextSeq := 0, seen := [], lastMilestone := none, stepAt := [],
    queue := [] }

/-- The reference block at reset: everything off. -/
def RefBlock.reset : RefBlock :=
  { trim := none
    stampers := Vector.replicate 5 ⟨[], none, none, none, false, 0⟩
    gates := Vector.replicate 4
      { opened := none, boundary := 0, edges := 0, closing := none, first := true, noStamp := false, overspeed := false,
        step := false, holdover := false, calibrated := false, lostTo := 0, late := [], lost := false, seq := 0, freq := 0, count := 0, span := 0,
        phase := 0, status := 0 }
    units := Vector.replicate 4
      { start := none, startClock := 0, stops := [], stepped := false, n := 0, first := 0, sum := 0, sumsq := 0, last := 0,
        sat := false }
    calout := Vector.replicate 4 ⟨none, 0, none, false⟩
    clkout := Vector.replicate 2
      { enabled := false, staged := none, stagedAt := 0, stopping := false, applied := none, edge := 0, level := false, driven := false }
    pps :=
      { enabled := false, offset := 0, staged := none, level := false, started := 0, lastSecond := none,
        inValid := false, inLast := none, inOffset := 0, driven := false } }

/-- Acquisition at reset (Table 7.7): disarmed. -/
def Acq.reset : Acq :=
  { state := .disarmed, armTick := 0, disarmTick := 0, criticalOff := none, armedTicks := 0, deadTicks := 0,
    deadCond := Vector.replicate 4 0, deadMask := 0, deadFrom := 0, stationSeq := 0, prims := [], primTile := 0 }

/-- Acquisition counts of an interval that has just begun. -/
def AcqAcc.reset : AcqAcc := { dead := [0, 0, 0, 0, 0], refused := [0, 0, 0, 0, 0], honoured := 0, received := 0 }

/-- The reduction unit at reset; its settings are the reset values of Table 7.7. -/
def Reduction.reset : Reduction :=
  { inForce := ⟨6, 6, 0xFFFFFFFF, 7⟩, closing := ⟨6, 6, 0xFFFFFFFF, 7⟩, accs := [], ready := [], acq := Vector.replicate 3 AcqAcc.reset,
    acqEnded := Vector.replicate 3 AcqAcc.reset, step := Vector.replicate 3 false, holdover := Vector.replicate 3 false,
    edge := Vector.replicate 3 false, stepEnded := Vector.replicate 3 false, holdoverEnded := Vector.replicate 3 false,
    edgeEnded := Vector.replicate 3 false, unseen := Vector.replicate 3 false, unseenEnded := Vector.replicate 3 false, notRunning := Vector.replicate 3 0, notRunningEnded := Vector.replicate 3 0, ended := 0, due := none, engineSeq := Vector.replicate 128 0, tileNext := 0 }

/-- A free room's map entry (Table 8.1). -/
def Room.reset : Room :=
  { state := .free, next := none, pins := 0, suspect := false, spare := none, truncated := false, chain := 31, count := 0,
    slot := 0, min := 0, max := 0, dated := false, fresh := false, wroteAt := [] }

/-- A chain that does not exist. -/
def Chain.reset : Chain := { active := false, rooms := [], next := none, assigned := 0, held := 0, starved := false }

/-- The porter at reset: no rooms until PD20 switches on and builds the free list (R178). -/
def Porter.reset : Porter :=
  { total := 0, fresh := 0, freed := [], freeCount := 0, rooms := [], heldSlots := [], chains := Vector.replicate 17 Chain.reset,
    requests := [], pointer := 0, lastChain := 0, bookings := [], cached := [], fetches := [], orderNext := 0, pass := [], passNext := 0,
    monitor := [], monSeq := 0, monStart := 0, monStep := false, monTruncated := false, monDropped := false, monQueue := [], readouts := [], deficitT := 0,
    deficitM := 0, turnM := true, headWaybills := [], lowWater := false, reserve := false, backlog := false, mapSnapshot := (0, 0, 0),
    inForce := [], rebuild := false }

/-- The compression island at reset: every unit idle. -/
def Compression.reset : Compression :=
  { units := Vector.replicate 4 ⟨.idle, 0⟩, jobs := Vector.replicate 2 none, errors := Vector.replicate 2 0, waiting := [],
    rawBytes := 0, outBytes := 0 }

/-- A port at reset. -/
def Port.reset : Port :=
  { state := .disabled, partner := 0, partnerArray := 0, inc := 0, lastInc := none, role := 0, granted := 0,
    consumed := 0, announced := 0, creditAt := 0, limit := 16, tx := [], lastSent := none, sending := none, sendingUntil := 0, busyUntil := 0, inserted := false,
    record := none, cut := none,
    rx := none, rxWait := [], lanternSeq := 0, lanternDue := 0, lanternAt := 0, lapsed := false, summary := 0, askedAt := none, refusedAt := none,
    grantAt := none, renewAt := none, oldInc := none, windowEnd := none, testTag := 0, testTick := 0, timeSeq := 0 }

/-- The check-value units at reset: each running value at the initial value of Table 10.6, nothing parked (log entry 80). -/
def CheckUnits.reset : CheckUnits := { running := Vector.replicate 6 0xFFFFFFFF, owner := Vector.replicate 4 none, parked := [] }

/-- A lane at reset. -/
def Lane.reset : Lane :=
  { signal := false, inverted := false, eq := 0, errors := 0, partnerErrors := 0, skew := 0, capSets := 0, capSeen := 0,
    ackCount := 0, verdictPass := none, comma := 0, seeded := false, pass := none, sent := [] }

/-- A port's bring-up at reset: OFF. -/
def Bringup.reset : Bringup :=
  { state := .off, width := 1, stage := .none, rung := 0, target := 0, offer := 4, partnerOffer := 4, table := none, resume := false,
    ownPass := none, mismatch := false, wokenByRetry := false, noWork := false }

/-- The lanes at reset; both reference clocks are taken as present (log entry 7). -/
def Lanes.reset : Lanes :=
  { lanes := Vector.replicate 21 Lane.reset, ports := Vector.replicate 18 Bringup.reset, eqTable := none, eqDefault := false,
    basex := Vector.replicate 2 ⟨false, false, false, 0⟩, basexLast := 0, onBasex := Vector.replicate 2 false, refclk128 := true, refclk125 := true }

/-- A memory channel at reset (R270): OFF. -/
def MemChannel.reset : MemChannel :=
  { state := .off, cause := 0, freq := 800, density := 1, ap := 0, dinv := 1, hits := [], general := [], merge := [], mergeNext := 0,
    scrub := 0, overrun := false, parity := [] }

/-- External memory at reset: nothing listed (log entry 3). -/
def ExtMem.reset : ExtMem := { channels := Vector.replicate 4 MemChannel.reset, poisoned := [], data := [], check := [] }

/-- The Aelko boot image the part leaves the factory with: the shortest that passes the checks of R323 (log entry 8). -/
def factoryImage : List Byte := [0, 0, 0, 0, 0x04, 0x02] ++ List.replicate 1014 0 ++ [0x84, 0xBD, 0x29, 0x64]

/-- The retirement map the part leaves the factory with: one of no entries that passes its checks (Table 12.8; log entry 8). -/
def factoryRetirement : List Byte := [0x4D, 0x52, 1, 0, 0, 0, 0, 0, 0, 0, 0, 0, 0x7A, 0x5A, 0x74, 0xFB]

/-- The MRAM as the part leaves the factory: an Aelko image in boot bank 0, a retirement map without entries and nothing else (log entry 8). -/
def Mram.reset : Mram :=
  { ledger := [], ledgerHead := 0, buffer := [], gap := none, log := [], logHead := 0, logBuffer := [], checkpoints := [],
    checkpointSeq := 0, bootImages := #v[factoryImage, []], bootBank := 0, configBanks := Vector.replicate 2 [],
    configBank := none, eqImage := [], linImages := [], retirement := factoryRetirement, coefs := [], incarnation := 0,
    waiting := [], running := none }

/-- The front desk at reset (Table 13.6); the unique number is the model's (log entry 9). -/
def FrontDesk.reset : FrontDesk :=
  { mbMem := [], mb := Vector.replicate 8 .free, mbDone := 0, mbErr := 0, attnEn := 1,
    events := [], evqHi := 0, evqLost := 0, upstream := [], upstreamAt := 0, sources := [], sourceNext := 0, nowHi := 0,
    uid := 1, isSealed := false, strap := false, maint := Vector.replicate 2 none, release := 0, aelkoReady := false, stage := 0,
    jtagDr := 0, jtagLast := 0 }

/-- The management cores at reset. -/
def Keeper.reset : Keeper :=
  { inFlight := Vector.replicate 8 none, transfers := Vector.replicate 8 none, window := [], bootCount := 0, skipped := 0, configBank := none,
    spare := .pair, fenced := false, cycled := false, selftestFailed := false, selftestRunning := none,
    selftestWaits := none, selftestAt := 0, selftestMb := none, selftestAsked := 0, report := none, reportSeq := 0, spareResets := [], switching := none, bootFrom := .pair,
    ckptCommitted := 0, ckptAt := 0, dpMovedAt := none, noStandby := false, dpAwaits := false, dpUpAt := 0, sysReset := none }

/-- Power at reset: PORESET_N asserted, PWRGOOD taken as high, every switched domain off. -/
def Power.reset : Power :=
  { poreset := true, pwrgood := true, lowLong := false, domains := 0, cause := 1, hold := 0, cMeas := none,
    testRunning := false, testEnded := false, short := false, handshakes := [], signals := [], pairTesting := false, cutting := false }

/-- A sensor that has not been sampled. -/
def Sensor.reset : Sensor :=
  { reading := 0, broken := false, deviating := 0, sum := 0, samples := 0, means := [], rate := 0, high := false, fast := 0 }

/-- Thermal management at reset: NORMAL. -/
def Thermal.reset : Thermal :=
  { sensors := Vector.replicate 17 Sensor.reset, state := .normal, critRun := 0, critSeen := 0, calm := 0, corr := 0, cycles := 0 }

/-- The reset coefficients (R383): c[1] = 1.0, all others 0. -/
def resetCoefs : List Word := [0, 0x3F800000, 0, 0, 0, 0, 0, 0, 0, 0, 0, 0]

/-- The precision front end at reset (Table 17.8). -/
def Pfe.reset : Pfe :=
  { converting := false, seq := 0, settled := 0, unsettled := 0, delay := false, delayStops := false,
    testing := false, testDue := false, tripA := false, tripB := false, openWords := 0, result := 0, eng := 0, unread := false, overrun := false, tick := 0,
    modulator := false,
    inputs := Vector.replicate 32 { isOpen := false, ovr := false, valid := true, eng := 0x7FC00000, coefs := resetCoefs, count := 0 }
    dacs := Vector.replicate 8 ⟨false, false, 0, false⟩ }

/-- A tick in which nothing has been counted or set. -/
def Fresh.reset : Fresh := { counts := [], done := 0, err := 0 }

/-- The machine right after reset: PORESET_N is asserted, every switched domain is off and every register holds its
reset value; the cold start begins with PORESET_RELEASE (R354, R355). -/
def State.reset : State :=
  { params := [], time := TimeState.reset, chans := Vector.replicate 256 Channel.reset, tiles := Vector.replicate 16 TileState.reset,
    engines := Vector.replicate 128 Engine.reset, ref := RefBlock.reset, acq := Acq.reset, red := Reduction.reset,
    porter := Porter.reset, comp := Compression.reset, ports := Vector.replicate 18 Port.reset, checks := CheckUnits.reset,
    lanes := Lanes.reset,
    mem := ExtMem.reset, mram := Mram.reset, fd := FrontDesk.reset, keeper := Keeper.reset, power := Power.reset,
    therm := Thermal.reset, pfe := Pfe.reset, onchip := [], fresh := Fresh.reset, free := 0, lastStatus := .ok, pending := [] }

end Sys2Proof.Machine
end

