-- ==== Sys2Proof/Machine/Ops.lean ====
section
/-! DEFINITION. The named operations every family shares: indexed state, the parameter store, device time, power
domains, event records, the hold-up check and the ledger. -/

namespace Sys2Proof.Machine

open Sys2Proof

/-- The outcome of a command. -/
abbrev Out := Host.Outcome State Fault Refusal

/-- A quotient rounded to the nearest integer, for a positive divisor; a tie goes as the implementation has it (log entry 22). -/
def roundDiv (num den : Int) : Int :=
  let r := num % den
  num / den + (if den < 2 * r then 1 else if 2 * r = den then (if Config.tieUp num den then 1 else 0) else 0)

/-- A vector with one element replaced. -/
def vput {α : Type} {n : Nat} (v : Vector α n) (i : Fin n) (x : α) : Vector α n := v.set i.val x i.isLt

/-- A vector with one element changed by a function. -/
def vmod {α : Type} {n : Nat} (v : Vector α n) (i : Fin n) (f : α → α) : Vector α n := vput v i (f v[i])

/-- The number as an index below `n`, if it is one. -/
def idx? (n k : Nat) : Option (Fin n) := if h : k < n then some ⟨k, h⟩ else none

/-- The state with one channel replaced. -/
def State.setChan (s : State) (ch : Fin 256) (c : Channel) : State := { s with chans := vput s.chans ch c }
/-- The state with one tile replaced. -/
def State.setTile (s : State) (t : Fin 16) (x : TileState) : State := { s with tiles := vput s.tiles t x }
/-- The state with one engine replaced. -/
def State.setEng (s : State) (e : Fin 128) (x : Engine) : State := { s with engines := vput s.engines e x }
/-- The state with one port replaced. -/
def State.setPort (s : State) (p : Fin 18) (x : Port) : State := { s with ports := vput s.ports p x }

/-- The tile of a channel. -/
def tileOf (ch : Fin 256) : Fin 16 := ⟨ch.val / 16, by omega⟩

/-- The channel of a tile and channel-in-tile. -/
def chanOf (t : Fin 16) (cit : Fin 16) : Fin 256 := ⟨16 * t.val + cit.val, by omega⟩

/-- The tile of an engine (R101). -/
def tileOfEng (e : Fin 128) : Fin 16 := ⟨e.val / 8, by omega⟩

/-- The cold-start stage reached (R354, log entry 16): FD_STATUS holds the last one. -/
def State.reachStage (s : State) (n : Nat) : State :=
  { s with fd := { s.fd with stage := if 4 ≤ s.fd.stage then max s.fd.stage n else s.fd.stage } }

/-- Whether a domain is on. -/
def State.on (s : State) (d : Nat) : Bool := s.power.domains.getLsbD d

/-! ### Parameters -/

/-- The class, instance and item of a parameter address (R13). -/
def addrCls (a : Nat) : Nat := a / 0x1000000 % 256
/-- The instance of a parameter address. -/
def addrInst (a : Nat) : Nat := a / 0x1000 % 0x1000
/-- The item of a parameter address. -/
def addrItem (a : Nat) : Nat := a % 0x1000

/-- The reset value of a parameter, with the two items whose reset value differs by instance (Tables 4.12, 10.21). -/
def resetOf (a : Nat) : Nat :=
  if a = pTimeDEnable 0 then 1
  else if a = pPortPEnable 16 then 1
  else match paramItem (addrCls a) (addrItem a) with
    | some i => i.reset
    | none => 0

/-- The value a parameter register holds. -/
def State.rd (s : State) (a : Nat) : Nat := (sfind a s.params).getD (resetOf a)

/-- The state with a parameter register written. -/
def State.wr (s : State) (a v : Nat) : State := { s with params := sput (resetOf a) a v s.params }

/-- Increments of a counter whose value was `before`, noted among those of the running tick (R12). -/
def noteCount (l : List (Nat × Nat × Nat)) (a before n : Nat) : List (Nat × Nat × Nat) :=
  match l.find? (fun x => x.1 = a) with
  | some x => (a, x.2.1, x.2.2 + n) :: l.filter (fun y => y.1 ≠ a)
  | none => (a, before, n) :: l

/-- The increments of a read-clear item of value `before` noted in the running tick; the ticks pass while the timebase is on (R12, log entry 85). -/
def State.counted (s : State) (a before n : Nat) : Fresh :=
  { s.fresh with counts := if s.on 30 && n != 0 then noteCount s.fresh.counts a before n else s.fresh.counts }

/-- What a read-clear item of value `now` was before the running tick's increments, and those increments (R12). -/
def State.freshOf (s : State) (a now : Nat) : Nat × Nat :=
  match s.fresh.counts.find? (fun x => x.1 = a) with
  | some x => if min (x.2.1 + x.2.2) 0xFFFFFFFF = now then (x.2.1, x.2.2) else (now, 0)
  | none => (now, 0)

/-- The notes after a read-clear item has been read: what the running tick had added to it stands alone (R12). -/
def State.readFresh (s : State) (a n : Nat) : Fresh :=
  { s.fresh with counts := if n = 0 then s.fresh.counts.filter (fun x => x.1 ≠ a) else (a, 0, n) :: s.fresh.counts.filter (fun x => x.1 ≠ a) }

/-- A counter increased by `n`; it holds at 0xFFFF_FFFF. -/
def State.bumpBy (s : State) (a n : Nat) : State := { s.wr a (min (s.rd a + n) 0xFFFFFFFF) with fresh := s.counted a (s.rd a) n }

/-- A counter incremented by one; it holds at 0xFFFF_FFFF. -/
def State.bump (s : State) (a : Nat) : State := s.bumpBy a 1

/-- A peak register raised to a level. -/
def State.peak (s : State) (a v : Nat) : State := s.wr a (max (s.rd a) v)

/-! ### Device time (R75–R77) -/

/-- Device time in ticks. -/
def State.now (s : State) : DWord := s.time.tick

/-- Device time at the start of the running tick in fine steps, fine base included (R75). -/
def State.nowFine (s : State) : Int := (s.now.toNat : Int) * 1024 + s.time.fine.toNat

/-- R77 with w = 64: `a` is before `b`. -/
def before (a b : DWord) : Bool := 0 < (b - a).toInt

/-- R77: `a` is at or before `b`. -/
def atOrBefore (a b : DWord) : Bool := 0 ≤ (b - a).toInt

/-- R77 with w = 32, for MIN and MAX of rooms. -/
def before32 (a b : Nat) : Bool := 0 < (BitVec.ofNat 32 b - BitVec.ofNat 32 a).toInt

/-- The short tick: the low 30 bits. -/
def shortTick (t : DWord) : BitVec 30 := t.setWidth 30

/-- A milestone: a multiple of 2²⁰ ticks. -/
def isMilestone (t : DWord) : Bool := t.toNat % 0x100000 = 0

/-- The first milestone at or after a tick. -/
def milestoneAt (t : DWord) : DWord := BitVec.ofNat 64 ((t.toNat + 0xFFFFF) / 0x100000 * 0x100000)

/-- Whether the servo is in holdover. -/
def State.inHoldover (s : State) : Bool := s.time.servo == .holdover

/-! ### Management cores -/

/-- Whether Aelko runs (R297, R341): it has started and its core is neither fenced off nor booting. -/
def State.aelkoRuns (s : State) : Bool := s.fd.aelkoReady && !s.power.poreset

/-- Whether Aelko runs and no MRAM batch is in progress: it runs its batches one at a time, and what needs one waits (R369). -/
def State.aelkoFree (s : State) : Bool := s.aelkoRuns && s.mram.running.isNone

/-! ### Status and signals of the islands (R357, R359, R360) -/

/-- A bit of PWR.I_STATUS is set. -/
def State.islandBit (s : State) (i b : Nat) : State :=
  let old := s.rd (pPwrIStatus i)
  { s.wr (pPwrIStatus i) (old ||| 2 ^ b) with fresh := s.counted (pPwrIStatus i) old ((old ||| 2 ^ b) - old) }

/-- The island of the core that Aelko runs on (Table 16.5). -/
def State.aelkoIsland (s : State) : Nat := if s.keeper.spare = .spareActive ∨ s.keeper.spare = .pairCycled then 44 else 43

/-- A single control signal is raised to an island; raised again before its acknowledgement it merges, and MERGED is set (R357). -/
def State.raiseSignal (s : State) (i : Nat) : State :=
  if s.power.signals.contains i then s.islandBit i 0 else { s with power := { s.power with signals := i :: s.power.signals } }

/-- The signals raised to Aelko's core are acknowledged: it takes what woke it (R357, R299). -/
def State.ackAelko (s : State) : State := { s with power := { s.power with signals := s.power.signals.filter (fun i => i ≠ 43 ∧ i ≠ 44) } }

/-! ### Event records (R304, R305) -/

/-- An event record (Table 13.7). -/
def eventRecord (tick : DWord) (loss : Bool) (src reason arg : Nat) : DWord :=
  BitVec.ofNat 64 ((shortTick tick).toNat * 2 ^ 34 + bit loss * 2 ^ 33 + src % 512 * 2 ^ 24 + reason % 256 * 2 ^ 16 + arg % 2 ^ 16)

/-- Whether a source's buffer of 4 records has room (R305). -/
def State.hasRoom (s : State) (src : Nat) : Bool := ((s.fd.sources.filter (fun r => r.1 = src)).length < 4 : Bool)

/-- A record put into its source's buffer, without the overflow rule. -/
def State.putRecord (s : State) (src reason arg : Nat) : State :=
  { s with fd := { s.fd with sources := s.fd.sources ++ [(src, eventRecord s.now false src reason arg)] } }

/-- A record is posted (R305): it enters its source's buffer of 4, or is dropped and counted, with SRC_LOST on source 507 at the
first drop after EVQ.CNT_SRC_LOST was last read. -/
def State.post (s : State) (src reason arg : Nat) : State :=
  if s.hasRoom src then s.putRecord src reason arg
  else
    let first := s.rd pEvqCntSrcLost = 0
    let s1 := s.bump pEvqCntSrcLost
    if first then
      if s1.hasRoom 507 then s1.putRecord 507 3 src else s1.bump pEvqCntSrcLost
    else s1

/-- A counter is incremented, and a record posted at the first increment after it was last read. -/
def State.bumpPost (s : State) (cnt src reason arg : Nat) : State :=
  let first := s.rd cnt = 0
  let s1 := s.bump cnt
  if first then s1.post src reason arg else s1

/-- A counter is incremented, and its low 16 bits posted at the first increment after it was last read. -/
def State.bumpPostCount (s : State) (cnt src reason : Nat) : State :=
  let first := s.rd cnt = 0
  let s1 := s.bump cnt
  if first then s1.post src reason (s1.rd cnt) else s1

/-- A counter is incremented, and its low 16 bits posted each time. -/
def State.bumpPostEach (s : State) (cnt src reason : Nat) : State := (s.bump cnt).post src reason ((s.bump cnt).rd cnt)

/-! ### The hold-up check (R369) -/

/-- The capacitance in force (R368): the smaller of the declared and the measured one, in nF. -/
def State.holdCap (s : State) : Nat :=
  match s.power.cMeas with
  | some c => min (s.rd pPwrHoldCap) c
  | none => s.rd pPwrHoldCap

/-- Twice the energy available, in 10⁻²¹ J: c × (v² − vmin²), with c in nF and v in µV; 0 at or below vmin. -/
def State.energy2 (s : State) : Nat :=
  let v := s.power.hold
  let vm := 1000 * s.rd pPwrHoldVmin
  if v ≤ vm then 0 else s.holdCap * (v * v - vm * vm)

/-- The energy a batch of `n` words needs, in 10⁻¹² J. -/
def State.batchEnergy (s : State) (n : Nat) : Nat :=
  s.rd pPwrHoldMargin * s.rd pPwrHoldPower * (10000 + 50 * n)

/-- Whether the energy for a batch of `n` words is available. -/
def State.energyOk (s : State) (n : Nat) : Bool := s.batchEnergy n * 2000000000 ≤ s.energy2

/-- PWR.HOLD_ENERGY: the energy available in µJ. -/
def State.energyMicro (s : State) : Nat := s.energy2 / 2000000000000000

/-- The words written of a batch of `n` that starts and is cut by the fall of PWRGOOD (R356; log entry 26); 0 where none is. -/
def State.cutAt (s : State) (n : Nat) : Nat :=
  if s.power.cutting && s.power.testEnded && s.on 33 && s.energyOk n then (Config.freeWord s.free).toNat % n else 0

/-- BATCH_CUT is posted for a batch of `n` words, with the words written before the cut (R356, R370). -/
def State.torn (s : State) (n : Nat) : State :=
  let s1 := s.post 492 1 ((Config.freeWord s.free).toNat % n)
  { s1 with power := { s1.power with cutting := false }, free := s1.free + 1 }

/-- Whether a batch of `n` words may start (R369), with what the check itself does: before the capacitance test has ended it is
deferred without a count; short of energy it is deferred and counted, with HOLD_SHORT at the first; a start after a
shortage posts HOLD_RECOVERED. The batch in progress as PWRGOOD fell starts and is cut (R356). -/
def State.tryBatch (s : State) (n : Nat) : Bool × State :=
  if !s.power.testEnded || !(s.power.pwrgood || s.power.cutting) || !s.on 33 then (false, s)
  else if s.energyOk n then
    let s1 : State := if s.power.short then
      { (s.post 491 2 (min (s.energyMicro / 10) 0xFFFF)) with power := { s.power with short := false } } else s
    if s.power.cutting then (false, s1.torn n) else (true, s1)
  else
    let s1 := s.bump pPwrCntDeferred
    if s.power.short then (false, s1)
    else (false, { (s1.post 491 1 (min (s.energyMicro / 10) 0xFFFF)) with power := { s1.power with short := true } })

/-! ### The ledger (R308–R310) -/

/-- A ledger entry without its sequence number. -/
def State.entry (s : State) (origin kind command object old new detail : Nat) : LedgerEntry :=
  { seq := 0, tick := s.now, origin := origin, kind := kind, command := BitVec.ofNat 16 command, object := BitVec.ofNat 32 object,
    old := BitVec.ofNat 32 old, new := BitVec.ofNat 32 new, detail := BitVec.ofNat 16 detail, crcOk := true }

/-- An entry takes the slot of the ring of 65,536 that its sequence number names (R310); the newest stands first. -/
def Mram.putEntry (m : Mram) (e : LedgerEntry) : List LedgerEntry :=
  { e with seq := m.ledgerHead } :: m.ledger.filter (fun x => x.seq.toNat % 65536 ≠ m.ledgerHead.toNat % 65536)

/-- The entries of the ring, newest first, without the slots of entries whose batch was cut (R310). -/
def Mram.ring (m : Mram) : List LedgerEntry := m.ledger.filter (fun e => decide (0 < (m.ledgerHead - e.seq).toInt))

/-- An entry receives its sequence number and is written to the ring (R309, R310). -/
def State.commitEntry (s : State) (e : LedgerEntry) : State :=
  { s with
    mram := { s.mram with ledger := s.mram.putEntry e, ledgerHead := s.mram.ledgerHead + 1 }
    keeper := { s.keeper with ckptCommitted := s.keeper.ckptCommitted + 1 } }

/-- What `k` words of a cut batch of entries leave in the slots from the head on: the entries written whole, and one in part, which fails its CRC-16; the
head stays (R310, R356). -/
def State.tornLedger (s : State) (k : Nat) (es : List LedgerEntry) : State :=
  let m := (es.zipIdx.take ((k + 3) / 4)).foldl (fun (m : Mram) p =>
    { m with ledger := m.putEntry { p.1 with crcOk := decide (4 * (p.2 + 1) ≤ k) }, ledgerHead := m.ledgerHead + 1 }) s.mram
  { s with mram := { m with ledgerHead := s.mram.ledgerHead } }

/-- An entry of origin 0 or 1 enters the buffer of 256, or is lost, counted and posted (R309). -/
def State.ledgerLater (s : State) (e : LedgerEntry) : State :=
  if s.mram.buffer.length < 256 then { s with mram := { s.mram with buffer := s.mram.buffer ++ [e] } }
  else
    let s1 := s.bumpPostEach pLedgerCntLost 493 1
    { s1 with mram := { s1.mram with gap := match s1.mram.gap with
        | some (t, n) => some (t, n + 1)
        | none => some (e.tick, 1) } }

/-- An autonomous action enters the ledger: kind 9 with source, reason and argument (Table 13.11). -/
def State.ledgerEvent (s : State) (origin src reason arg : Nat) : State :=
  s.ledgerLater (s.entry origin 9 0 src 0 (reason % 256 * 0x10000 + arg % 0x10000) 0)

/-- A record is posted and enters the ledger with origin 0. -/
def State.postLedger (s : State) (src reason arg : Nat) : State := (s.post src reason arg).ledgerEvent 0 src reason arg

/-- A command's entry is committed at once (R309): false when its hold-up check defers it. -/
def State.commitNow (s : State) (e : LedgerEntry) : Bool × State :=
  match s.tryBatch 4 with
  | (true, s1) => (true, s1.commitEntry e)
  | (false, s1) => (false, s1.tornLedger (s.cutAt 4) [e])

/-- The GAP entry of entries lost is committed, hold-up allowing (R309). -/
def State.commitGap (s : State) : State :=
  match s.mram.gap with
  | none => s
  | some (t, n) =>
    match s.commitNow (s.entry 1 12 0 0 (t.toNat / 2 ^ 20 % 2 ^ 32) n 0) with
    | (true, s1) => { s1 with mram := { s1.mram with gap := none } }
    | (false, s1) => s1

/-- The oldest buffered entry is committed, hold-up allowing, and then the GAP entry of entries lost (R309). -/
def State.ledgerCommit (s : State) : State :=
  match s.mram.buffer with
  | [] => s
  | e :: es =>
    match s.commitNow e with
    | (true, s1) => ({ s1 with mram := { s1.mram with buffer := es } } : State).commitGap
    | (false, s1) => s1

/-- The bytes of a linearisation image's slot in MRAM: what nothing has written reads as the factory left it (Table 13.12; log entry 8). -/
def Mram.linSlot (m : Mram) (inst : Nat) : List Byte :=
  (sfind inst m.linImages).getD ((List.range 536).map (fun i => Config.mramByte (0x3C0000 + 536 * inst + i)))

/-- The first `k` words of a linearisation image are written to its slot (R356). -/
def State.tornLin (s : State) (k inst : Nat) (img : List Byte) : State :=
  if k = 0 then s else { s with mram := { s.mram with linImages := sset inst (patch k (s.mram.linSlot inst) img) s.mram.linImages } }

/-- A counter of free values advances (log entry 5). -/
def State.tickFree (s : State) : State := { s with free := s.free + 1 }

end Sys2Proof.Machine
end

