-- ==== Sys2Proof/Machine/Frames.lean ====
section
/-! DEFINITION. The bytes of frames, waybills and records as Tables 10.2–10.18, 8.3, 12.7, 13.10, 15.1 and 15.5 lay them out (R10, R220, R228, R241). -/

namespace Sys2Proof.Machine

open Sys2Proof

/-- Bytes followed by their CRC-16, least significant byte first (R226). -/
def withCrc16 (bs : List Byte) : List Byte := bs ++ natLe 2 (crc16 bs).toNat

/-- Bytes followed by their CRC-32C. -/
def withCrc32c (bs : List Byte) : List Byte := bs ++ natLe 4 (crc32c bs).toNat

/-- Zero bytes up to a multiple of 4. -/
def pad4 (bs : List Byte) : List Byte := bs ++ List.replicate ((4 - bs.length % 4) % 4) 0

/-- A waybill's 32 bytes with its CRC-32C (Table 10.18). -/
def waybillBytes (w : Waybill) : List Byte :=
  withCrc32c (natLe 1 (w.children % 32 + 32 * w.kind.toNat) ++
    natLe 1 (bit w.compressed + 2 * bit w.corrupt + 4 * bit w.truncated + 8 * bit w.partialFlag + 16 * bit w.step + 32 * bit w.suspect) ++
    natLe 2 w.source.toNat ++ [w.incarnation, w.codec] ++ natLe 2 w.absent.toNat ++ natLe 4 w.event.toNat ++
    natLe 8 w.start.toNat ++ natLe 4 w.length.toNat ++ natLe 4 w.payload)

/-- The TYPE of a frame, Table 10.3. -/
def TxBody.type : TxBody → Nat
  | .ctrl _ => 1 | .data _ => 2 | .prim _ => 3 | .accept _ => 4 | .time _ _ => 5 | .mac _ _ _ _ _ => 5 | .lantern _ _ _ => 6 | .evq _ => 7
  | .credit _ _ => 8 | .adm _ _ => 9 | .test _ => 10 | .abort => 2

/-- The 16-bit frame header (Table 10.2). -/
def header (type flags : Nat) (link : Byte) : List Byte := natLe 1 (type + 16 * flags) ++ [link]

/-- The message code and content of a TIME frame (Table 10.12). -/
def TimeMsg.content : TimeMsg → Nat × List Byte
  | .sync => (0, List.replicate 16 0)
  | .followUp t => (8, natLe 8 t.tick.toNat ++ natLe 2 t.fine.toNat ++ List.replicate 6 0)
  | .delayReq => (1, List.replicate 16 0)
  | .delayResp t => (9, natLe 8 t.tick.toNat ++ natLe 2 t.fine.toNat ++ List.replicate 6 0)
  | .announce u st src fl => (11, natLe 2 u.toNat ++ natLe 2 st.toNat ++ [src, fl] ++ List.replicate 10 0)
  | .signaling fl => (12, [fl] ++ List.replicate 15 0)

/-- The bytes of a frame from its header to its check value (R220, Tables 10.8–10.15); of a MAC frame its head (Table 11.9), whose PTP body is that of
IEEE 1588-2019, which the spec does not lay out. -/
def TxBody.bytes (b : TxBody) (link : Byte) (timeDomain : Nat) : List Byte :=
  match b with
  | .ctrl f => withCrc32c (header 1 (bit f.up + 2 * bit f.bcast) link ++ natLe 1 f.mailbox.toNat ++ natLe 1 f.hops.toNat ++
      natLe 4 f.route.toNat ++ natLe 2 f.source.toNat ++ natLe 1 f.array.toNat ++ [0] ++ pad4 f.block)
  | .data f => withCrc16 (header 2 (bit f.first + 2 * bit f.last) link ++ natLe 2 f.segment.length ++ natLe 4 f.offset ++ natLe 2 0) ++
      waybillBytes f.waybill ++ pad4 f.segment
  | .prim f => withCrc16 (header 3 0 0 ++ natLe 2 f.source.toNat ++ natLe 1 f.engine.toNat ++ natLe 1 f.array.toNat ++
      natLe 8 f.tick.toNat ++ natLe 8 f.body.toNat)
  | .accept f => withCrc16 (header 4 0 0 ++ natLe 4 f.event.toNat ++ natLe 8 f.start.toNat ++ natLe 4 f.length.toNat ++ natLe 8 f.launch.toNat)
  | .time seq m => withCrc16 (header 5 0 link ++ natLe 1 m.content.1 ++ natLe 1 timeDomain ++ natLe 2 seq.toNat ++ m.content.2)
  | .mac dest src _ _ _ => (natLe 6 dest.toNat).reverse ++ (natLe 6 src.toNat).reverse ++ [0x88, 0xF7]
  | .lantern seq dev sm => withCrc16 (header 6 0 link ++ natLe 2 seq.toNat ++ natLe 2 dev.toNat ++ natLe 4 sm.toNat)
  | .evq f => withCrc16 (header 7 0 link ++ natLe 1 f.records.length ++ natLe 1 f.hops.toNat ++ natLe 4 f.route.toNat ++
      natLe 2 f.source.toNat ++ natLe 1 f.array.toNat ++ [0] ++ f.records.flatMap (fun r => natLe 8 r.toNat) ++ natLe 2 0)
  | .credit lim g => withCrc16 (header 8 0 link ++ natLe 2 lim ++ natLe 4 g.toNat ++ natLe 2 0)
  | .adm k f => withCrc16 (header 9 0 f.link ++ natLe 1 k.code ++ [f.argument] ++ natLe 2 f.device.toNat ++ natLe 1 f.array.toNat ++
      natLe 1 f.lanes.toNat ++ [f.stepping, 0] ++ natLe 2 f.release.toNat ++ natLe 2 0)
  | .test tag => withCrc16 (header 10 0 link ++ natLe 2 0 ++ natLe 4 tag.toNat ++ natLe 6 0)
  | .abort => []

/-- The size of a frame in bytes, header to check value (Table 10.3). -/
def TxBody.size : TxBody → Nat
  | .ctrl f => 32 + (f.block.length - 16 + 3) / 4 * 4
  | .data f => 44 + (f.segment.length + 3) / 4 * 4
  | .prim _ => 24 | .accept _ => 28 | .time _ _ => 24 | .mac _ _ _ _ _ => 64 | .lantern _ _ _ => 12
  | .evq f => 16 + 8 * f.records.length | .credit _ _ => 12 | .adm _ _ => 16 | .test _ => 16 | .abort => 0

/-! ### Symbols and columns (R218, R219) -/

/-- What a lane carries in one column: a data byte or a special symbol. -/
inductive Symbol where
  | data (b : Byte)
  | special (k : Special)
  deriving DecidableEq, Repr

/-- A special symbol fills a column of `n` lanes. -/
def specialColumn (n : Nat) (k : Special) : List Symbol := List.replicate n (.special k)

/-- The data bytes of a frame in columns of `n` lanes: byte j goes on lane j mod n of column j div n. -/
def stripe (n : Nat) (bs : List Byte) : List (List Symbol) :=
  (List.range ((bs.length + n - 1) / n)).map (fun c => ((bs.drop (n * c)).take n).map .data)

/-- The start symbol of a frame (Table 10.1). -/
def TxBody.start : TxBody → Special
  | .lantern _ _ _ => .lantern
  | _ => .sof

/-- Whether MARK stands ahead of a frame: a Sync or Delay_Req TIME frame (Table 10.1). -/
def TxBody.marked : TxBody → Bool
  | .time _ .sync => true
  | .time _ .delayReq => true
  | _ => false

/-- The columns of a frame on `n` lanes, without SKIP columns: MARK where one stands ahead, its start symbol, its bytes and EOF; of an aborted DATA frame
PREEMPT and EOF (R224). -/
def frameColumns (n : Nat) (b : TxBody) (bytes : List Byte) : List (List Symbol) :=
  match b with
  | .abort => [specialColumn n .preempt, specialColumn n .eof]
  | _ => (if b.marked then [specialColumn n .mark] else []) ++ [specialColumn n b.start] ++ stripe n bytes ++ [specialColumn n .eof]

/-- The number of those columns, for a frame of `size` bytes. -/
def frameCols (n : Nat) (b : TxBody) (size : Nat) : Nat :=
  match b with
  | .abort => 2
  | _ => bit b.marked + 1 + (size + n - 1) / n + 1

/-- Columns sent from the `i`-th column of a port on, with the SKIP columns among them: every 4,096th column of a port is one (R219; log entry 80). -/
def insertSkips (n : Nat) : Nat → List (List Symbol) → List (List Symbol)
  | _, [] => []
  | i, c :: cs => if i % 4096 = 0 then specialColumn n .skip :: c :: insertSkips n (i + 2) cs else c :: insertSkips n (i + 1) cs

/-- The number of columns that `cols` columns from the `i`-th on take, SKIP columns among them. -/
def withSkips (i cols : Nat) : Nat :=
  let r := (4096 - i % 4096) % 4096
  if cols ≤ r then cols else cols + 1 + (cols - r - 1) / 4095

/-- The time of a number of columns in ticks, by the rung (Table 11.3); mode 5 is 1000BASE-X, of 8 ns a byte. -/
def columnTime (rung cols : Nat) : Nat :=
  if rung ≤ 3 then cols * (8 / 2 ^ rung) else if rung = 4 then (cols * 4 + 4) / 5 else (cols * 8192 + 999) / 1000

/-- The time of a number of columns in fine steps, of 1,024 to a tick. -/
def columnFine (rung cols : Nat) : Nat :=
  if rung ≤ 3 then cols * (8192 / 2 ^ rung) else if rung = 4 then (cols * 4096 + 4) / 5 else (cols * 8388608 + 999) / 1000

/-- The number of the column on a port's wire at a clock count. -/
def columnIndex (rung clock : Nat) : Nat := if rung ≤ 3 then clock / (8 / 2 ^ rung) else if rung = 4 then clock * 5 / 4 else clock * 1000 / 8192

/-! ### Training ordered sets (R255) -/

/-- The 16 symbols of a training ordered set (Table 11.4). -/
def TrainSet.symbols (k : SetKind) (t : TrainSet) : List Symbol :=
  .special .comma :: (withCrc16 (natLe 1 k.code ++ natLe 1 t.rung.toNat ++
    natLe 1 (t.laneIndex.toNat + 4 * t.width.toNat + 32 * bit t.fromChild + 64 * bit t.seen) ++ natLe 1 (bit t.pass) ++ natLe 2 t.errors.toNat ++
    natLe 2 t.device.toNat ++ natLe 5 0)).map .data

/-! ### The courier's check-value units (R226) -/

/-- A courier unit runs over the bytes of a port's CTRL frame or waybill: unit p mod 4 of Table 11.1's lanes (log entry 80). The running value of a port whose CTRL
frame is still on the wire is parked, and that of a port whose frame has ended is given up. -/
def State.courierUnit (s : State) (p : Fin 18) (bs : List Byte) : State :=
  let u : Fin 4 := ⟨p.val % 4, by omega⟩
  let k := s.checks
  let live := fun (o : Nat) => match idx? 18 o with
    | some q => q != p && decide (s.time.clock < (s.ports[q]).busyUntil)
    | none => false
  let kept := k.parked.filter (fun e => live e.1)
  let parked := match k.owner[u] with
    | some o => if live o then (o, k.running[u.castLE (by omega : 4 ≤ 6)]) :: kept.filter (fun e => e.1 ≠ o) else kept
    | none => kept
  { s with checks := { running := vput k.running (u.castLE (by omega)) (crc32cRun crc32cSeed bs), owner := vput k.owner u (some p.val), parked := parked } }

/-- One of Aelko's units runs over bytes from a running value. -/
def State.aelkoUnit (s : State) (u : Fin 6) (from_ : Word) (bs : List Byte) : State :=
  { s with checks := { s.checks with running := vput s.checks.running u (crc32cRun from_ bs) } }

/-- The children-absent mask of a booking (R244): of the ports enabled and not STANDBY at the launch tick, those whose record is not awaited and not held. -/
def Booking.absentMask (b : Booking) : Half :=
  if b.station then 0 else b.enabled &&& ~~~ b.standby &&& ~~~ (b.expected &&& ~~~ b.absent)

/-- A booking record's 64 bytes (Table 8.3). -/
def Booking.bytes (b : Booking) : List Byte :=
  withCrc32c (natLe 4 b.event.toNat ++ natLe 1 b.state.code ++
    natLe 1 (bit b.station + 2 * bit b.step + 4 * bit b.suspect + 8 * bit b.truncated + 16 * bit b.corrupt + 32 * bit (b.absentMask != 0)) ++
    natLe 2 b.expected.toNat ++ natLe 8 b.start.toNat ++ natLe 4 b.length.toNat ++ natLe 4 (b.index.getD 0) ++ natLe 8 b.launch.toNat ++
    natLe 8 b.close.toNat ++ natLe 2 b.reported.toNat ++ natLe 2 b.absentMask.toNat ++
    natLe 4 ((b.ranges.flatMap (·.2)).length + 1) ++ natLe 4 b.ownBytes ++ natLe 8 0)

/-- A ledger entry's 32 bytes (Table 13.10). -/
def LedgerEntry.bytes (e : LedgerEntry) : List Byte :=
  let body := natLe 4 e.seq.toNat ++ natLe 8 e.tick.toNat ++ natLe 1 e.origin ++ natLe 1 e.kind ++ natLe 2 e.command.toNat ++
    natLe 4 e.object.toNat ++ natLe 4 e.old.toNat ++ natLe 4 e.new.toNat ++ natLe 2 e.detail.toNat
  if e.crcOk then withCrc16 body else body ++ natLe 2 ((crc16 body).toNat + 1)

/-- An error log entry's 32 bytes (Table 12.7). -/
def LogEntry.bytes (e : LogEntry) : List Byte :=
  withCrc16 (natLe 4 e.seq.toNat ++ natLe 8 e.tick.toNat ++ natLe 1 e.kind ++ natLe 1 e.channel ++ natLe 1 e.reader ++ [e.syndrome] ++
    natLe 4 e.address.toNat ++ natLe 4 (match e.room with
      | some r => r + 0x40000
      | none => 0) ++ natLe 4 e.bit ++ natLe 2 0)

/-- A health report's 32 bytes (Table 15.5). -/
def HealthReport.bytes (r : HealthReport) : List Byte :=
  withCrc32c (natLe 2 0x4852 ++ [1] ++ natLe 1 (bit (r.failed == 0) + 2 * bit r.byCommand) ++ natLe 4 r.seq.toNat ++ natLe 8 r.tick.toNat ++
    natLe 4 r.micros.toNat ++ natLe 2 r.failed.toNat ++ natLe 2 r.temperature.toNat ++ natLe 2 r.corrected.toNat ++ natLe 1 r.bank ++ [0])

end Sys2Proof.Machine
end

