-- ==== Sys2Proof/Machine/MemOps.lean ====
section
/-! DEFINITION. The shared operations on external memory and the room map entries: addresses, code words, the error log,
the general queues and the merge buffer (spec/12), and what every reader of a damaged word does. -/

namespace Sys2Proof.Machine

open Sys2Proof

/-! ### Rooms by number -/

/-- The rooms the fit provides (Table 12.2). -/
def State.roomsFit (s : State) : Nat := if s.mem.channels[0].density = 1 then 243712 else 112640

/-- The data bytes the fit provides (R268). -/
def State.dataFit (s : State) : Nat := 0x480000 + 256 * s.roomsFit

/-- A room's map entry; a room without memory behind it is OUT (R269). -/
def State.room (s : State) (r : Nat) : Room :=
  match sfind r s.porter.rooms with
  | some x => x
  | none => if r < s.roomsFit then Room.reset else { Room.reset with state := .out }

/-- The state with a room's map entry replaced. -/
def State.setRoom (s : State) (r : Nat) (x : Room) : State :=
  { s with porter := { s.porter with rooms := sput Room.reset r x s.porter.rooms } }

/-- The state with a room's map entry changed. -/
def State.modRoom (s : State) (r : Nat) (f : Room → Room) : State := s.setRoom r (f (s.room r))

/-- The device data address of a room: its spare's when it is REMAPPED (R287). -/
def State.roomAddr (s : State) (r : Nat) : Nat :=
  match (s.room r).spare with
  | some k => 0x400000 + 256 * k
  | none => 0x480000 + 256 * r

/-- The room that a data address belongs to, if any (R277); the address of a room that a spare replaces belongs to none (R287). -/
def State.roomOfAddr (s : State) (d : Nat) : Option Nat :=
  if d < 0x400000 then none
  else if d < 0x480000 then
    (s.porter.rooms.find? (fun p => p.2.spare = some ((d - 0x400000) / 256))).map (·.1)
  else if (s.room ((d - 0x480000) / 256)).spare.isSome then none
  else some ((d - 0x480000) / 256)

/-! ### Code words -/

/-- The data of a word of external memory, by word number (R268). -/
def ExtMem.word (m : ExtMem) (w : Nat) : DWord := BitVec.ofNat 64 (m.data.getLe (8 * w) 8)

/-- The external memory with one code word stored. -/
def ExtMem.store (m : ExtMem) (w : Nat) (d : DWord) (c : Byte) : ExtMem :=
  { m with data := m.data.putLe (8 * w) 8 d.toNat, check := m.check.put w c }

/-- A word written with its check bits (R274). -/
def ExtMem.write (m : ExtMem) (w : Nat) (d : DWord) : ExtMem := m.store w d (checkBits d)

/-- Bits of the stored code word upset since it was last accessed (an input of the read; log entry 15). -/
def ExtMem.upset (m : ExtMem) (w : Nat) (flips : BitVec 72) : ExtMem :=
  if flips = 0 then m
  else m.store w (m.word w ^^^ flips.setWidth 64) (m.check.get w ^^^ (flips >>> 64).setWidth 8)

/-- A word read and classed (R275). -/
def ExtMem.read (m : ExtMem) (w : Nat) : WordClass := classify (m.word w) (m.check.get w)

/-- The state with external memory replaced. -/
def State.setMem (s : State) (m : ExtMem) : State := { s with mem := m }

/-- The state with one memory channel replaced. -/
def State.setChannel (s : State) (m : Fin 4) (c : MemChannel) : State :=
  { s with mem := { s.mem with channels := vput s.mem.channels m c } }

/-- The channel of a word (R268): W mod 4. -/
def channelOf (w : Nat) : Fin 4 := ⟨w % 4, by omega⟩

/-- Whether a word lies on a port: bit [0] of its channel-local address (R268). -/
def onPort (p : MemPort) (w : Nat) : Bool := if w / 4 % 2 = 0 then p == .a else p == .b

/-! ### The error log (R285) -/

/-- SUSPECT is set on a room, and with it on every booking that pins the room (R186, R277). -/
def State.markSuspect (s : State) (r : Nat) : State :=
  let s1 := s.modRoom r (fun x => { x with suspect := true })
  let pins := fun (b : Booking) => b.index = some r ∨ b.ranges.any (fun q => q.2.contains r) ∨ b.children.any (fun c => c.rooms.contains r)
  { s1 with porter := { s1.porter with bookings := s1.porter.bookings.map (fun b => if pins b.2 then (b.1, { b.2 with suspect := true }) else b) } }

/-- A room leaves the free list for a holder (R177–R179): its map entry begins anew; SUSPECT stays until it is written. -/
def State.takeRoom (s : State) (r : Nat) (st : RoomState) (chain slot pins : Nat) : State :=
  s.modRoom r (fun x => { Room.reset with state := st, chain := chain, slot := slot, pins := pins, suspect := x.suspect, spare := x.spare, fresh := true })

/-- A room becomes DETACHED: part of no chain any more (R180). -/
def State.detach (s : State) (r : Nat) : State := s.modRoom r (fun x => { x with state := .detached, chain := 31 })

/-- COUNT, MIN and MAX of a room after one word is written at device time `now` (R177), with its tick [41:10] if it carries one; the first write since the room
was taken clears SUSPECT (R179). -/
def Room.wrote (x : Room) (index : Nat) (tick : Option Nat) (now : DWord) : Room :=
  let new : Bool := !x.wroteAt.any (fun e => e.1 = index)
  { x with
    fresh := false, suspect := x.suspect && !x.fresh
    min := match tick with
      | some t => if !x.dated || before32 t x.min then t else x.min
      | none => x.min
    max := match tick with
      | some t => if !x.dated || before32 x.max t then t else x.max
      | none => x.max
    dated := x.dated || tick.isSome
    count := if new then Nat.min 32 (x.count + 1) else x.count
    wroteAt := if new then x.wroteAt ++ [(index, now)] else x.wroteAt }

/-- The 64-bit tick whose short tick is `t`, nearest to device time (R77 with w = 30). -/
def State.extend30 (s : State) (t : BitVec 30) : DWord :=
  let d := (t - shortTick s.now).toInt
  s.now + BitVec.ofInt 64 d

/-- The tick [41:10] of a stream word for MIN and MAX (R177): of a milestone word the tick it names, of any other the short tick extended. -/
def State.wordTick (s : State) (w : DWord) : Nat :=
  if w.extractLsb' 0 2 = 2#2 then w.toNat / 0x100000 * 0x100000 / 1024 % 2 ^ 32
  else (s.extend30 (w.extractLsb' 26 30)).toNat / 1024 % 2 ^ 32

/-- A word has been written through a general access: the room it lies in, if any, takes note. Of the words of the monitor stream the milestone and control
words carry a tick; FRAGMENT and INDEX rooms hold none. -/
def State.wroteWord (s : State) (w : Nat) (d : DWord) : State :=
  match s.roomOfAddr (8 * w) with
  | none => s
  | some r => s.modRoom r (fun x => x.wrote (w % 32) (if x.chain = 16 ∧ 2 ≤ d.toNat % 4 then some (s.wordTick d) else none) s.now)

/-- An entry enters the log's buffer of 64 and takes its sequence, or is lost. -/
def State.logError (s : State) (kind channel reader syndrome address : Nat) (bitNo : Nat) : State :=
  if s.mram.logBuffer.length < 64 then
    let e : LogEntry :=
      { seq := s.mram.logHead, tick := s.now, kind := kind, channel := channel, reader := reader,
        syndrome := BitVec.ofNat 8 syndrome, address := BitVec.ofNat 32 address,
        room := if channel < 4 then s.roomOfAddr address else none, bit := bitNo }
    { s with mram := { s.mram with logBuffer := s.mram.logBuffer ++ [e], logHead := s.mram.logHead + 1
                                   waiting := s.mram.waiting ++ [.log e] } }
  else s.bumpPostEach pMemCntLogLost 400 10

/-! ### Queues -/

/-- An access waits in its channel's general queue (R273). -/
def State.pushGeneral (s : State) (a : Access) : State :=
  let m := channelOf a.word
  let c := s.mem.channels[m]
  s.setChannel m { c with general := c.general ++ [a] }

/-- The accesses that may be served next: no read of a word of which a merge-buffer entry left before it and waits (R282); `left` holds those words. -/
def servable (left : List Nat) : List Access → List Access
  | [] => []
  | a :: rest =>
    match a.op with
    | .read _ => if left.contains a.word then servable left rest else a :: servable left rest
    | _ => a :: servable (if a.level = 3 then a.word :: left else left) rest

/-- The first of the waiting accesses in the order of Table 12.4 (R273): of the lowest level, the oldest. -/
def firstAccess (waiting : List Access) : Option Access :=
  (servable [] waiting).foldl (fun b a => match b with
    | some x => if a.level < x.level then some a else b
    | none => some a) none

/-- A merge-buffer entry leaves: whole it is a plain write, otherwise a read-modify-write at level 3 (R282). -/
def State.leaveMerge (s : State) (e : MergeEntry) : State :=
  let m := channelOf e.word
  let c := s.mem.channels[m]
  let s1 := s.setChannel m { c with merge := c.merge.filter (fun x => x.word ≠ e.word) }
  if (List.range 8).all (fun i => e.bytes.any (fun b => b.1 = i)) then
    s1.pushGeneral ⟨3, e.word, .write (BitVec.ofNat 64 (leNat ((List.range 8).map (fun i => ((e.bytes.find? (fun b => b.1 = i)).map (·.2)).getD 0))))⟩
  else s1.pushGeneral ⟨3, e.word, .modify e.bytes⟩

/-- A read waits; a merge-buffer entry of its word leaves first (R282). -/
def State.pushRead (s : State) (level w : Nat) (dest : ReadDest) : State :=
  let s1 := match (s.mem.channels[channelOf w]).merge.find? (fun e => e.word = w) with
    | some e => s.leaveMerge e
    | none => s
  s1.pushGeneral ⟨level, w, .read dest⟩

/-- A 64-bit write waits; it discards a merge-buffer entry of its word (R282). -/
def State.pushWrite (s : State) (level w : Nat) (d : DWord) : State :=
  let m := channelOf w
  let c := s.mem.channels[m]
  (s.setChannel m { c with merge := c.merge.filter (fun x => x.word ≠ w) }).pushGeneral ⟨level, w, .write d⟩

/-- Bytes written to one word narrower than 64 bits go to the merge buffer of 16 entries (R282); `mergeNext` numbers the writes of the buffer. -/
def State.mergeWrite (s : State) (w : Nat) (bytes : List (Nat × Byte)) : State :=
  let m := channelOf w
  let c := s.mem.channels[m]
  match c.merge.find? (fun e => e.word = w) with
  | some e =>
    let e1 : MergeEntry := ⟨w, e.bytes.filter (fun b => !bytes.any (fun x => x.1 = b.1)) ++ bytes, c.mergeNext⟩
    let s1 := s.setChannel m { c with merge := c.merge.map (fun x => if x.word = w then e1 else x), mergeNext := c.mergeNext + 1 }
    if (List.range 8).all (fun i => e1.bytes.any (fun b => b.1 = i)) then s1.leaveMerge e1 else s1
  | none =>
    let s1 := match c.merge with
      | old :: _ => if 16 ≤ c.merge.length then s.leaveMerge old else s
      | [] => s
    let c1 := s1.mem.channels[m]
    s1.setChannel m { c1 with merge := c1.merge ++ [⟨w, bytes, c1.mergeNext⟩], mergeNext := c1.mergeNext + 1 }

/-- The little-endian bytes of a 32-bit field at byte offset `o` of a word. -/
def wordBytes (o x : Nat) : List (Nat × Byte) := (natLe 4 x).zipIdx.map (fun p => (o + p.2, p.1))

/-! ### What a reader of a damaged word does (R276–R278) -/

/-- The result of a read for its requester. -/
inductive ReadResult where
  | data (d : DWord)
  | bad (fresh : Bool)
  deriving DecidableEq, Repr

/-- A fresh uncorrectable word is found (R277): the poison codeword is queued for it, its room made SUSPECT, and the word counted, logged with `kind` and posted
with `reason`. -/
def State.freshUe (s : State) (w level kind reason : Nat) : State :=
  let n := w % 4
  let s1 := s.pushGeneral ⟨1, w, .poison⟩
  let s2 := match s.roomOfAddr (8 * w) with
    | some r => s1.markSuspect r
    | none => s1
  let s3 := s2.bump (pMemCCntUe n)
  let syn := ((s.mem.check.get w) ^^^ checkBits (s.mem.word w)).toNat
  let seq := s3.mram.logHead.toNat
  (s3.logError kind n level syn (8 * w) 0x7F).post (400 + n) reason (seq % 0x10000)

/-- A word is read for a reader of the given level: a correctable word is corrected, its write-back queued and counted (R276); a
fresh uncorrectable word is handled under R277; a poison word that the reader consumes is counted and posted (R278). A poison codeword that the controller has
not written is a double error, handled as an uncorrectable word and logged as poison (R275, log entry 79). -/
def State.readWord (s : State) (w level kind reason : Nat) (consume : Bool) : ReadResult × State :=
  let n := w % 4
  match s.mem.read w with
  | .good => (.data (s.mem.word w), s)
  | .corrected d b =>
    let s1 := (s.bumpPostCount (pMemCCntCe n) (400 + n) 1).pushGeneral ⟨1, w, .corrected d⟩
    let syn := ((s.mem.check.get w) ^^^ checkBits (s.mem.word w)).toNat
    (.data d, if s.rd pMemLogCe = 1 then s1.logError 1 n level syn (8 * w) b else s1)
  | .poison =>
    if !s.mem.poisoned.contains w then (.bad true, s.freshUe w level 5 reason)
    else if consume then
      let r := (s.roomOfAddr (8 * w)).getD 0
      (.bad false, s.bumpPost (pMemCCntPoison n) (400 + n) 5 (field r 17 2))
    else (.bad false, s)
  | .bad => (.bad true, s.freshUe w level kind reason)

/-- A word is written: its queued poison rewrite or corrected write-back is cancelled (R277), and it is poison no longer. -/
def State.writeWord (s : State) (w : Nat) (d : DWord) : State :=
  let m := channelOf w
  let c := s.mem.channels[m]
  let general := c.general.filter (fun a => ¬(a.level = 1 ∧ a.word = w))
  let mem : ExtMem := { s.mem with channels := vput s.mem.channels m { c with general := general }, poisoned := s.mem.poisoned.filter (fun k => k ≠ w) }
  s.setMem (mem.write w d)

/-- An uncorrectable word of an on-chip memory (R288): counted, logged with kind 7 and posted on source 400. `memory` numbers the memories as `memoryDomain` does. -/
def State.onchipUe (s : State) (memory row : Nat) : State :=
  let id := (Config.onchipId memory).toNat
  ((s.bump pMemCntOnchipUe).logError 7 4 0 0 (id * 0x10000 + row % 0x10000) 0x7F).post 400 11 id

/-- A word with `double` or a second flipped bit is uncorrectable; one with a single flipped bit is corrected when it is next read. -/
def flipWord (w : Nat) (double : Bool) (ce bad : List Nat) : List Nat × List Nat :=
  if bad.contains w then (ce, bad) else if double || ce.contains w then (ce.filter (fun k => k ≠ w), w :: bad) else (w :: ce, bad)

end Sys2Proof.Machine
end

