-- ==== Sys2Proof/Machine/Rooms.lean ====
section
/-! DEFINITION. The porter's shared operations (spec/08): the free list, chains, history, pins, bookings and their
release, head waybills, dead conditions and the monitor stream. -/

namespace Sys2Proof.Machine

open Sys2Proof

/-- The state with the porter changed. -/
def State.modPorter (s : State) (f : Porter → Porter) : State := { s with porter := f s.porter }

/-- The state with one chain replaced. -/
def State.setChain (s : State) (k : Fin 17) (c : Chain) : State := s.modPorter (fun p => { p with chains := vput p.chains k c })

/-- A ROOMS item 0x001–0x006 as in force: writes take effect at the next milestone (R196). -/
def State.roomsItem (s : State) (a : Nat) : Nat := (sfind a s.porter.inForce).getD (resetOf a)

/-- The ROOMS items 0x001–0x006 come into force. -/
def State.roomsInForce (s : State) : State :=
  s.modPorter (fun p => { p with inForce :=
    [pRoomsHold, pRoomsLowWater, pRoomsReserve, pRoomsWTrig, pRoomsWMon, pRoomsBacklogAlarm].map (fun a => (a, s.rd a)) })

/-- The 64-bit tick whose bits [41:10] are `m`, nearest to device time (R77 with w = 32). -/
def State.extend32 (s : State) (m : Nat) : DWord :=
  let nowU := s.now.toNat / 1024
  let d := (BitVec.ofNat 32 m - BitVec.ofNat 32 nowU).toInt
  BitVec.ofInt 64 (((nowU : Int) + d) * 1024)

/-- Whether the free rooms lie below the low-water mark, or at or below the reserve (R187). -/
def State.belowLow (s : State) : Bool := s.porter.freeCount < s.roomsItem pRoomsLowWater
/-- Whether the free rooms lie at or below ROOMS.RESERVE. -/
def State.atReserve (s : State) : Bool := s.porter.freeCount ≤ s.roomsItem pRoomsReserve

/-- The thresholds of R187 are looked at after a change of F: entry and exit are posted (R195). -/
def State.thresholds (s : State) : State :=
  if !s.on 20 then s else
  let f := s.porter.freeCount
  let low := s.belowLow
  let res := s.atReserve
  let s1 :=
    if low && !s.porter.lowWater then s.postLedger 501 1 (field f 17 2)
    else if !low && s.porter.lowWater then s.post 501 2 (field f 17 2) else s
  let s2 := if res && !s.porter.reserve then s1.postLedger 501 3 s.porter.lastChain else s1
  s2.modPorter (fun p => { p with lowWater := low, reserve := res })

/-- The first room at or after `r` that is not OUT, within `k` tries. -/
def State.skipOut (s : State) : Nat → Nat → Nat
  | 0, r => r
  | k + 1, r => if r < s.roomsFit ∧ (s.room r).state = .out then State.skipOut s k (r + 1) else r

/-- The head of the free list is taken (R178): never-used rooms in ascending number, then the rooms freed, first in first out. -/
def State.takeHead (s : State) : Option (Nat × State) :=
  if s.porter.freeCount = 0 then none else
  let r := s.skipOut (s.porter.rooms.length + 1) s.porter.fresh
  if r < s.roomsFit then
    some (r, (s.modPorter (fun p => { p with fresh := r + 1, freeCount := p.freeCount - 1 })).wr pRoomsFreeMin
      (min (s.rd pRoomsFreeMin) (s.porter.freeCount - 1)))
  else match s.porter.freed with
    | x :: xs => some (x, (s.modPorter (fun p => { p with freed := xs, freeCount := p.freeCount - 1 })).wr pRoomsFreeMin
        (min (s.rd pRoomsFreeMin) (s.porter.freeCount - 1)))
    | [] => none

/-- The writes that wait for a room that is given up are withdrawn. -/
def State.withdraw (s : State) (r : Nat) : State :=
  let base := s.roomAddr r / 8
  let mine := fun (w : Nat) => base ≤ w && decide (w < base + 32)
  let stale := fun (a : Access) => mine a.word && (match a.op with
    | .write _ => true
    | .modify _ => true
    | _ => false)
  { s with mem := { s.mem with channels := s.mem.channels.map (fun (c : MemChannel) => { c with
      general := c.general.filter (fun a => !stale a), merge := c.merge.filter (fun e => !mine e.word), hits := c.hits.filter (fun h => h.room ≠ r) }) } }

/-- A room returns to the tail of the free list; SUSPECT and its spare stay (R178, R179). -/
def State.freeRoom (s : State) (r : Nat) : State :=
  ((s.withdraw r).modRoom r (fun x => { Room.reset with suspect := x.suspect, spare := x.spare })).modPorter
    (fun p => { p with freed := p.freed ++ [r], freeCount := p.freeCount + 1 })

/-- Rooms return to the free list in order. -/
def State.freeRooms (s : State) (rs : List Nat) : State := rs.foldl State.freeRoom s

/-! ### Chains -/

/-- A requester waits for `n` more rooms (R193). -/
def State.request (s : State) (who n : Nat) : State :=
  if n = 0 then s else
  let q := s.porter.requests
  s.modPorter (fun p => { p with requests := (
    if q.any (fun r => r.1 = who) then q.map (fun r => if r.1 = who then (who, r.2 + n) else r) else q ++ [(who, n)]) })

/-- The mark H rises when a room that holds words leaves its chain (R183). -/
def State.raiseH (s : State) (k : Fin 17) (r : Nat) : State :=
  if !(s.room r).dated then s else
  let c := s.porter.chains[k]
  let h := s.extend32 (s.room r).max + 1024
  s.setChain k { c with held := if before c.held h then h else c.held }

/-- A written room leaves its chain by release or detachment (R180). -/
def State.leaveChain (s : State) (k : Fin 17) (r : Nat) : State :=
  let s1 := s.raiseH k r
  let c := s1.porter.chains[k]
  let s2 := s1.setChain k { c with rooms := c.rooms.filter (fun x => x ≠ r) }
  if (s2.room r).pins = 0 then s2.freeRoom r else s2.detach r

/-- The history walk of one chain from its tail (R180). -/
def State.walkChain (s : State) (k : Fin 17) (horizon : Nat) : List Nat → State
  | [] => s
  | r :: rs =>
    if (s.room r).state = .history ∧ before32 (s.room r).max horizon then (s.leaveChain k r).walkChain k horizon rs else s

/-- A room is linked after another by NEXT. -/
def State.linkRooms (s : State) (a b : Nat) : State := s.modRoom a (fun x => { x with next := some b })

/-- One entry of a booking's index room (Table 8.4): entry `e` is tile `e`, or port `e − 16`; none before the room is granted. -/
def State.writeIndex (s : State) (index : Option Nat) (e first n : Nat) : State :=
  match index with
  | none => s
  | some i =>
    let w := s.roomAddr i / 8 + e
    (s.mergeWrite w (wordBytes 0 (first + 0x40000))).mergeWrite w (wordBytes 4 n)

/-- A room joins a chain as its next room (R181): OPEN, COUNT 0, linked from the open room, and pinned by every booking still between
its launch and close ticks that includes the chain (R155, R184). -/
def State.joinNext (s : State) (k : Fin 17) (r : Nat) : State :=
  let c := s.porter.chains[k]
  let s1 := s.takeRoom r .opened k.val 0 0
  let s2 := match c.rooms.getLast? with
    | some o => s1.linkRooms o r
    | none => s1
  let growing := fun (b : Nat × Booking) => b.2.state = .opened ∧ before s.now b.2.close ∧ b.2.ranges.any (fun q => q.1 = k.val)
  let pins := (s.porter.bookings.filter growing).length
  let s3 := s2.modRoom r (fun x => { x with pins := x.pins + pins })
  let s4 := s3.modPorter (fun p => { p with bookings := p.bookings.map (fun b =>
    if growing b then (b.1, { b.2 with suspect := b.2.suspect || (s.room r).suspect
                                       ranges := b.2.ranges.map (fun q => if q.1 = k.val then (q.1, q.2 ++ [r]) else q) }) else b) })
  let lastFull : Bool := match c.rooms.getLast? with
    | some o => (s.room o).state != .opened
    | none => true
  let s4 := (s4.porter.bookings.filter growing).foldl (fun t b =>
    match b.2.ranges.find? (fun q => q.1 = k.val) with
    | some q => t.writeIndex b.2.index k.val (q.2.head?.getD r) q.2.length
    | none => t) s4
  let c4 := s4.porter.chains[k]
  if lastFull then (s4.setChain k { c4 with rooms := c4.rooms ++ [r], starved := false }).request k.val 1
  else s4.setChain k { c4 with next := some r, starved := false }

/-- The recycling of R181: the oldest unpinned history room becomes the next room, and every older one becomes DETACHED. -/
def State.recycle (s : State) (k : Fin 17) : Option State :=
  let c := s.porter.chains[k]
  match c.rooms.find? (fun r => (s.room r).state = .history ∧ (s.room r).pins = 0) with
  | none => none
  | some x =>
    let older := c.rooms.takeWhile (fun r => r ≠ x)
    let s1 := older.foldl (fun t r => t.leaveChain k r) s
    let s2 := s1.raiseH k x
    let c2 := s2.porter.chains[k]
    let s3 := s2.setChain k { c2 with rooms := c2.rooms.filter (fun r => r ≠ x) }
    let s4 := match older.getLast?, (s.room x).next with
      | some o, some n => s3.linkRooms o n
      | _, _ => s3
    some ((s4.bump pRoomsCntRecycled).joinNext k x)

/-- A chain closes its open room as HISTORY with the COUNT reached (R182). -/
def State.closeOpen (s : State) (k : Fin 17) (truncated : Bool) : State :=
  let c := s.porter.chains[k]
  match c.rooms.getLast? with
  | some r =>
    if (s.room r).state = .opened then
      let s1 := s.modRoom r (fun x => { x with state := if k.val = 16 then .monitor else .history, truncated := x.truncated || truncated })
      if truncated then
        let s2 := (s1.bump pRoomsCntTruncated).postLedger 504 1 k.val
        s2.modPorter (fun p => { p with
          bookings := p.bookings.map (fun b => if b.2.ranges.any (fun q => q.2.contains r) then (b.1, { b.2 with truncated := true }) else b)
          monTruncated := p.monTruncated || (k.val = 16 : Bool) })
      else s1
    else s
  | none => s

/-- The open room of a chain has filled: the next room becomes the open room and a new next room is asked for (R181). -/
def State.roomFull (s : State) (k : Fin 17) (r : Nat) : State :=
  let s1 := s.modRoom r (fun x => { x with state := if k.val = 16 then .monitor else .history })
  let c := s1.porter.chains[k]
  match c.next with
  | some n => (s1.setChain k { c with rooms := c.rooms ++ [n], next := none, assigned := c.assigned - 32 }).request k.val 1
  | none => s1.setChain k { c with assigned := c.assigned - 32 }

/-- The place of the next word of a chain: a room and an index (R181). -/
def State.place (s : State) (k : Fin 17) : Option (Nat × Nat) :=
  let c := s.porter.chains[k]
  match c.rooms.getLast? with
  | some r =>
    if (s.room r).state ≠ .opened then none
    else if c.assigned < 32 then some (r, c.assigned)
    else match c.next with
      | some n => if c.assigned < 64 then some (n, c.assigned - 32) else none
      | none => none
  | none => none

/-! ### Bookings -/

/-- The slot of an event number (R188). -/
def slotOf (event : Word) : Nat := event.toNat % 65536

/-- A booking by slot. -/
def State.booking (s : State) (slot : Nat) : Option Booking := (s.porter.bookings.find? (fun b => b.1 = slot)).map (·.2)

/-- The state with a booking changed. -/
def State.modBooking (s : State) (slot : Nat) (f : Booking → Booking) : State :=
  s.modPorter (fun p => { p with bookings := p.bookings.map (fun b => if b.1 = slot then (b.1, f b.2) else b) })

/-- A pin of a room is lowered; a DETACHED room whose count reaches 0 returns to the free list (R186). -/
def State.unpin (s : State) (r : Nat) : State :=
  let x := s.room r
  let s1 := s.setRoom r { x with pins := x.pins - 1 }
  if x.state = .detached ∧ x.pins ≤ 1 then s1.freeRoom r else s1

/-- The readouts of some sources end: their compression units become idle and their waiting reads are withdrawn. -/
def State.dropReadouts (s : State) (gone : ReadSource → Bool) : State :=
  let units := s.porter.readouts.filterMap (fun r => if gone r.source then r.unit else none)
  let stale := fun (a : Access) => match a.op with
    | .read (.own src _ _) => gone src
    | .read (.child src _ _) => gone src
    | _ => false
  { s with
    porter := { s.porter with readouts := s.porter.readouts.filter (fun r => !gone r.source) }
    comp := { s.comp with units := Vector.ofFn (fun (i : Fin 4) =>
      let u := s.comp.units[i]
      if units.contains i.val && u.state != .quarantined then { u with state := .idle } else u) }
    mem := { s.mem with channels := s.mem.channels.map (fun (c : MemChannel) => { c with general := c.general.filter (fun a => !stale a) }) } }

/-- What a port receives for a booking that is gone is dropped: the frames that wait in its buffer, and the rest of the record (R186, R242). -/
def Port.forget (x : Port) (slot : Nat) : Port :=
  { x with
    rxWait := x.rxWait.filter (fun w => w.target ≠ .booking slot)
    rx := x.rx.map (fun r => if r.target = .booking slot then { r with target := .drop } else r) }

/-- A booking is released (R186): pins lowered, FRAGMENT and INDEX rooms freed, the slot bit cleared. -/
def State.releaseBooking (s : State) (slot : Nat) : State :=
  match s.booking slot with
  | none => s
  | some b =>
    let s1 := (b.ranges.flatMap (·.2)).foldl State.unpin s
    let s2 := s1.freeRooms ((b.children.flatMap (·.rooms)) ++ b.index.toList)
    let s3 : State := { s2 with ports := s2.ports.map (fun (x : Port) => x.forget slot) }
    ((s3.modPorter (fun p => { p with
      bookings := p.bookings.filter (fun x => x.1 ≠ slot)
      fetches := p.fetches.filter (fun x => x.slot ≠ slot)
      cached := p.cached.filter (fun x => x ≠ slot) })).dropReadouts (fun x => x == .booking slot)).thresholds

/-- The expected children (R3): the downstream ports that hold an admitted child, as a mask. -/
def State.admittedMask (s : State) : Half :=
  (List.finRange 16).foldl (fun (m : Half) p => if (s.ports[(⟨p.val, by omega⟩ : Fin 18)]).state = .admitted then m ||| (1#16 <<< p.val) else m) 0

/-- The downstream ports whose PORT.P_ENABLE is 1, as a mask. -/
def State.enabledMask (s : State) : Half :=
  (List.range 16).foldl (fun (m : Half) p => if s.rd (pPortPEnable p) = 1 then m ||| (1#16 <<< p) else m) 0

/-- The children that a booking launched now expects (R240): those whose absence of this tick is settled as it ends are not among them. -/
def State.expectedMask (s : State) : Half :=
  (List.finRange 16).foldl (fun (m : Half) p => if (s.ports[(⟨p.val, by omega⟩ : Fin 18)]).lapsed then m &&& ~~~ (1#16 <<< p.val) else m) s.admittedMask

/-- The downstream ports in STANDBY, as a mask. -/
def State.standbyMask (s : State) : Half :=
  (List.finRange 16).foldl (fun (m : Half) p => if (s.ports[(⟨p.val, by omega⟩ : Fin 18)]).state = .standby then m ||| (1#16 <<< p.val) else m) 0

/-- A leaf holds no admitted child (R2). -/
def State.isLeaf (s : State) : Bool := s.admittedMask == 0

/-- A head waybill alone (R245): PARTIAL, codec 0, no payload, no children, absent every enabled port that is not STANDBY. -/
def State.headAlone (s : State) (event : Word) (start : DWord) (length : Word) (corrupt : Bool) : Waybill :=
  { children := 0, kind := 1, compressed := false, corrupt := corrupt, truncated := false, partialFlag := true, step := false,
    suspect := false, source := BitVec.ofNat 16 (s.rd pDevNumber), incarnation := s.mram.incarnation, codec := 0,
    absent := s.enabledMask &&& ~~~ s.standbyMask, event := event, start := start, length := length, payload := 0 }

/-- A head waybill alone waits to go up. -/
def State.sendHead (s : State) (w : Waybill) : State := s.modPorter (fun p => { p with headWaybills := p.headWaybills ++ [w] })

/-- Whether a tile is included in a booking (R154): powered, with a channel that is not DISABLED. -/
def State.included (s : State) (t : Fin 16) : Bool :=
  s.on t.val && (List.finRange 16).any (fun c => s.chans[chanOf t c].state != .disabled)

/-- The tiles included in bookings. -/
def State.includedTiles (s : State) : List (Fin 16) := (List.finRange 16).filter s.included

/-- The rooms of a chain in order: written rooms and the next room. -/
def Chain.all (c : Chain) : List Nat := c.rooms ++ c.next.toList

/-- Whether a room's span meets [lo, hi] in units of 1,024 ticks (R184); a room without words has none. -/
def Room.meets (x : Room) (lo hi : Nat) : Bool := x.count ≠ 0 && !before32 x.max lo && !before32 hi x.min

/-- The rooms of a chain that a booking pins at its launch (R184). -/
def State.rangeOf (s : State) (c : Chain) (start : DWord) (length : Word) (growing : Bool) : List Nat :=
  let lo := start.toNat / 1024 % 2 ^ 32
  let hi := ((start + length.setWidth 64 - 1).toNat / 1024) % 2 ^ 32
  let all := c.all
  let hit := fun r => (s.room r).meets lo hi
  let openIdx := c.rooms.length - 1
  let first := match all.findIdx? hit with
    | some i => i
    | none => match all.findIdx? (fun r => (s.room r).count ≠ 0 ∧ !before32 (s.room r).max lo) with
      | some i => i
      | none => openIdx
  let last := match (all.zipIdx.filter (fun p => hit p.1)).getLast? with
    | some p => p.2
    | none => first
  let last1 := if growing then max last (all.length - 1) else last
  (all.drop first).take (last1 + 1 - first)

/-! ### Refusals and dead time -/

/-- The reduction's refusal inputs a cause counts in (Table 7.5). -/
def refusalInputs (cause : Nat) : List Nat :=
  match cause with
  | 12 => [0, 1] | 7 => [0, 2] | 8 => [0, 2] | 9 => [0, 3] | 10 => [0, 3] | 11 => [0, 4] | _ => [0]

/-! ### The monitor stream (R174, R187) -/

/-- The closed monitor fragments that no readout has started. -/
def State.unsent (s : State) : List MonFragment :=
  s.porter.monitor.filter (fun m => !s.porter.readouts.any (fun r => r.source = .monitor m.seq.toNat))

/-- Rooms leave the monitor chain for the free list (R183). -/
def State.leaveMonitor (s : State) (rooms : List Nat) : State := ((rooms.foldl (fun t r => t.raiseH 16 r) s).freeRooms rooms)

/-- A monitor fragment's rooms are freed and its loss counted and posted. -/
def State.dropMonitor (s : State) (seq : Word) (rooms : List Nat) : State :=
  (((s.leaveMonitor rooms).bump pAcqCntMonDropped).post 500 2 (seq.toNat % 0x10000)).thresholds

/-- The oldest unsent monitor fragment is dropped whole; where there is none, the one in progress is (R187). -/
def State.dropOldest (s : State) : State :=
  match s.unsent with
  | m :: _ => (s.modPorter (fun p => { p with monitor := p.monitor.filter (fun x => x.seq ≠ m.seq) })).dropMonitor m.seq m.rooms
  | [] =>
    let c := s.porter.chains[(16 : Fin 17)]
    if c.all = [] ∨ s.porter.monDropped then s
    else
      let seq := s.porter.monSeq
      let s1 := (s.modPorter (fun p => { p with monSeq := seq + 1, monDropped := true, requests := p.requests.filter (fun q => q.1 ≠ 16) })).setChain 16
        { c with rooms := [], next := none, assigned := 0 }
      (s1.dropMonitor seq c.all).request 16 1

/-- While the unsent monitor fragments hold more than ACQ.MON_MAX_ROOMS rooms, the oldest of them is dropped (R174). -/
def State.limitMonitor (s : State) : State :=
  (List.range s.unsent.length).foldl (fun t _ =>
    if t.rd pAcqMonMaxRooms < ((t.unsent.map (fun x => x.rooms.length)).foldl (· + ·) 0) then t.dropOldest else t) s

/-- At a milestone that is a multiple of 2²⁶ the words since the last such milestone close as one monitor fragment (R174). -/
def State.closeMonitor (s : State) (m : DWord) : State :=
  if s.porter.monDropped then s.modPorter (fun p => { p with monDropped := false, monStep := false, monTruncated := false })
  else
    let c := s.porter.chains[(16 : Fin 17)]
    let empty := match c.rooms.getLast? with
      | some r => if c.assigned = 0 ∧ (s.room r).state = .opened then [r] else []
      | none => []
    let full := c.rooms.filter (fun r => !empty.contains r)
    if full = [] then s
    else
      let s0 := if empty = [] then s.closeOpen 16 false else s
      let f : MonFragment := ⟨s.porter.monSeq, s.porter.monStart, m, full, s.porter.monTruncated, s.porter.monStep⟩
      let s1 := s0.modPorter (fun p => { p with monitor := p.monitor ++ [f], monSeq := p.monSeq + 1, monStep := false, monTruncated := false })
      let s2 := match empty, c.next with
        | [], some n => (s1.setChain 16 { c with rooms := [n], next := none, assigned := 0 }).request 16 1
        | [], none => s1.setChain 16 { c with rooms := [], assigned := 0 }
        | e, _ => s1.setChain 16 { c with rooms := e }
      s2.limitMonitor

/-- A word of the monitor stream takes its place in the monitor chain, and its write waits at level 6. The first milestone of a fragment dates it (R174), and a
milestone with STEP marks it (R80). -/
def State.monitorPut (s : State) (r i : Nat) (w : DWord) : State :=
  let k : Fin 17 := 16
  let c := s.porter.chains[k]
  let first : Bool := c.assigned = 0 && c.rooms.length = 1
  let s1 := s.modPorter (fun p => { p with
    monStart := if first && w.toNat % 4 = 2 then BitVec.ofNat 64 (w.toNat / 2 ^ 20 * 2 ^ 20) else p.monStart
    monStep := p.monStep || (w.toNat % 4 = 2 && w.getLsbD 13 : Bool) })
  let s2 := (s1.setChain k { c with assigned := c.assigned + 1 }).pushWrite 6 (s1.roomAddr r / 8 + i) w
  if i = 31 then s2.roomFull k r else s2

/-- What waits to enter the monitor chain enters it in order, as far as its rooms go. A word of a fragment that was dropped in progress is not stored (R187). -/
def State.drainMonitor (s : State) : Nat → State
  | 0 => s
  | n + 1 =>
    match s.porter.monQueue with
    | [] => s
    | .close m :: is => ((s.modPorter (fun p => { p with monQueue := is })).closeMonitor m).drainMonitor n
    | .word w :: is =>
      let s1 := s.modPorter (fun p => { p with monQueue := is })
      if s.porter.monDropped then s1.drainMonitor n
      else match s.place 16 with
        | some (r, i) => (s1.monitorPut r i w).drainMonitor n
        | none => s

/-- The monitor queue drains. -/
def State.drainMon (s : State) : State := s.drainMonitor s.porter.monQueue.length

/-- A word enters the monitor stream (R174), and the chain as its rooms allow; what finds no place waits in order (log entry 18). -/
def State.monitorWord (s : State) (w : DWord) : State :=
  if !s.on 20 then s else (s.modPorter (fun p => { p with monQueue := p.monQueue ++ [.word w] })).drainMon

/-- The monitor fragment closes once the words before the milestone have entered it. -/
def State.endMonitor (s : State) (m : DWord) : State := (s.modPorter (fun p => { p with monQueue := p.monQueue ++ [.close m] })).drainMon

/-- A list with the elements at some places increased by one. -/
def bumpAt (places : List Nat) (xs : List Nat) : List Nat := xs.zipIdx.map (fun p => if places.contains p.2 then p.1 + 1 else p.1)

/-- The acquisition counts of every decimation changed, while the reduction unit is powered. -/
def State.modAcqAcc (s : State) (f : AcqAcc → AcqAcc) : State :=
  if !s.on 34 then s else
  { s with red := { s.red with acq := s.red.acq.map f } }

/-- An accept is refused (R160): counted in all and by cause, REFUSED posted at the first, and for an accept from above other than a
DUPLICATE a PARTIAL waybill sent upstream. -/
def State.refuseAccept (s : State) (cause : Nat) (a : Accept) (station : Bool) : State :=
  let first := s.rd pAcqCntRefused = 0
  let s1 := ((s.bump pAcqCntRefused).bump (pAcqCntRef cause)).modAcqAcc (fun x => { x with refused := bumpAt (refusalInputs cause) x.refused })
  let s2 := if first then s1.post 498 1 cause else s1
  if station ∨ cause = 2 then s2 else s2.sendHead (s2.headAlone a.event a.start a.length false)

/-- The bookings between their launch and close ticks (R156). -/
def State.openBookings (s : State) : Nat :=
  (s.porter.bookings.filter (fun b => b.2.state = .opened ∧ before s.now b.2.close)).length

/-- The history depth of a chain in ticks (R183). -/
def State.depth (s : State) (k : Fin 17) : Int := (s.now - (s.porter.chains[k]).held).toInt

/-- The dead conditions of Table 7.2 on the state as it stands; none while disarmed. -/
def State.deadConditions (s : State) : BitVec 4 :=
  if s.acq.state ≠ .armed ∧ s.acq.state ≠ .disarmPending then 0 else
  let pre := s.rd pAcqPretrig
  let since := (s.now - s.acq.armTick).toInt
  let shallow := s.includedTiles.any (fun t => s.depth ⟨t.val, by omega⟩ < pre)
  let pinned := s.includedTiles.any (fun t => (s.porter.chains[(⟨t.val, by omega⟩ : Fin 17)]).all.any (fun r =>
    15 ≤ (s.room r).pins ∧ (s.room r).count ≠ 0 ∧
      before (s.now - BitVec.ofNat 64 pre) (s.extend32 (s.room r).max + 1024)))
  BitVec.ofNat 4 (bit s.belowLow + 2 * bit (decide (since < pre) || shallow) +
    4 * bit (s.porter.bookings.length == s.rd pAcqMaxBookings) + 8 * bit (decide (15 ≤ s.openBookings) || pinned))

/-- The dead state is looked at: DEAD_START in the first dead tick and DEAD_END, with the length, in the first live tick (R166). -/
def State.lookDead (s : State) : State :=
  let m := s.deadConditions
  let was := s.acq.deadMask ≠ 0
  let s1 :=
    if m ≠ 0 ∧ ¬was then ({ s with acq := { s.acq with deadFrom := 0 } } : State).post 499 1 m.toNat
    else if m = 0 ∧ was then s.post 499 2 (min (s.acq.deadFrom / 1024) 0xFFFF) else s
  { s1 with acq := { s1.acq with deadMask := m } }

end Sys2Proof.Machine
end

