-- ==== Sys2Proof/Machine/TimeOps.lean ====
section
/-! DEFINITION. The shared operations on network time (spec/04): conversions, domains, servo states, time control words and the
launch queue's counts. -/

namespace Sys2Proof.Machine

open Sys2Proof

/-! ### Conversions (R76) -/

/-- Device time in fine steps to 2⁻¹⁶ ns, to the nearest: one fine step is 62.5 units. -/
def fineToNs16 (f : Int) : Int := roundDiv (f * 125) 2

/-- A span of 2⁻¹⁶ ns to fine steps, to the nearest. -/
def ns16ToFine (x : Int) : Int := roundDiv (2 * x) 125

/-- A PTP timestamp as tick and fine part, truncated (R76). -/
def ptpStamp (seconds ns sub : Nat) : Stamp :=
  let x := ns * 65536 + sub
  ⟨BitVec.ofNat 64 (seconds * 1024000000 + x * 128 / 8192000), BitVec.ofNat 10 (x * 131072 / 8192000 % 1024)⟩

/-- A stamp in fine steps. -/
def stampSteps (t : Stamp) : Int := (t.tick.toNat : Int) * 1024 + t.fine.toNat

/-- A received timestamp in 2⁻¹⁶ ns, by way of the device's tick and fine part (R76). -/
def wireNs16 : WireStamp → Int
  | .device t => fineToNs16 (stampSteps t)
  | .ptp sec ns sub => fineToNs16 (stampSteps (ptpStamp sec.toNat ns.toNat sub.toNat))

/-- Device time at an instant `f` fine steps into the running tick, fine base included (R75). -/
def State.stamp (s : State) (f : BitVec 10) : Int :=
  (s.now.toNat : Int) * 1024 + s.time.fine.toNat + f.toNat

/-- A time in fine steps as tick and fine part. -/
def toStamp (x : Int) : Stamp := ⟨BitVec.ofInt 64 (x / 1024), BitVec.ofInt 10 (x % 1024)⟩

/-- A signed number saturated to 16 bits, as an event argument. -/
def sat16 (x : Int) : Nat := unsigned 16 (clamp (-32768) 32767 x)

/-! ### Streams -/

/-- The state with the time block replaced. -/
def State.setTime (s : State) (t : TimeState) : State := { s with time := t }

/-- The state with one domain replaced. -/
def State.setDomain (s : State) (d : Fin 2) (x : Domain) : State :=
  { s with time := { s.time with domains := vput s.time.domains d x } }

/-- Whether the streams run: acquisition is armed (R78). -/
def State.streaming (s : State) : Bool := s.acq.state == .armed || s.acq.state == .disarmPending

/-- A control word (R39, R40): channel, short tick, code, argument, type 0b11. -/
def controlWord (channel : Nat) (tick : BitVec 30) (code arg : Nat) : DWord :=
  BitVec.ofNat 64 (channel % 256 * 2 ^ 56 + tick.toNat * 2 ^ 26 + code % 1024 * 2 ^ 16 + arg % 4096 * 2 ^ 4 + 3)

/-- A word that is no hit completes at a tile's merger and waits in the reorder hold (R19), also where its 64 entries are full, of which the spec says nothing (log entry 74). -/
def State.holdWord (s : State) (t : Fin 16) (w : DWord) (time : Int) (rank : Nat) : State :=
  s.setTile t { s.tiles[t] with held := s.tiles[t].held ++ [⟨w, time, rank, s.time.clock⟩] }

/-- A word completes in every powered tile's stream. -/
def State.holdAll (s : State) (w : Fin 16 → DWord) (time : Int) (rank : Nat) : State :=
  (List.finRange 16).foldl (fun t i => if t.on i.val then t.holdWord i (w i) time rank else t) s

/-- A time control word enters every tile stream and the monitor stream at the tick it names (R79); a STEP word stands before every word of the time it
begins (R80). -/
def State.timeControl (s : State) (code arg : Nat) : State :=
  if !s.streaming then s else
  let s1 := s.holdAll (fun t => controlWord (16 * t.val) (shortTick s.now) code arg) ((s.now.toNat : Int) * 1024)
    (2 * s.time.epoch - bit (code == 0x101))
  s1.monitorWord (controlWord 0 (shortTick s.now) code arg)

/-! ### Domains (R86, R89) -/

/-- Whether a domain is enabled. -/
def State.dEnabled (s : State) (d : Fin 2) : Bool := s.rd (pTimeDEnable d.val) = 1

/-- Whether a domain's lane runs 1000BASE-X (R263). -/
def State.onBasex (s : State) (d : Fin 2) : Bool := s.lanes.onBasex[d]

/-- The port that carries a domain's TIME frames. -/
def domainPort (d : Fin 2) : Fin 18 := if d = 0 then 16 else 17

/-- Whether a domain is syntonised (R83, R84): on TIME frames always, while its link is up; on 1000BASE-X when the partner reports L1_SYNC. -/
def State.syntonised (s : State) (d : Fin 2) : Bool :=
  if s.onBasex d then (s.time.domains[d]).l1sync
  else (s.ports[domainPort d]).state == .admitted || (s.ports[domainPort d]).state == .standby

/-- TIME.STEP_LIMIT in 2⁻¹⁶ ns. -/
def State.stepLimit (s : State) : Int := s.rd pTimeStepLimit * 65536

/-- Whether a domain is healthy (R89). -/
def State.healthy (s : State) (d : Fin 2) : Bool :=
  let x := s.time.domains[d]
  s.dEnabled d && x.tracking && !x.lost && !x.masterJump && !x.pathChanged && decide (x.offset.natAbs ≤ s.stepLimit.toNat)

/-- The other domain. -/
def otherDomain (d : Fin 2) : Fin 2 := if d = 0 then 1 else 0

/-- The count since which a domain has been healthy is brought up to date (R90). -/
def State.noteHealth (s : State) (d : Fin 2) : State :=
  let x := s.time.domains[d]
  s.setDomain d { x with healthySince := if s.healthy d then some (x.healthySince.getD s.time.clock) else none }

/-- PATH_CHANGED is flagged (R89, R93): posted, ledgered, the tracker frozen, and the collection of 64 exchanges begins. The three exchanges of the change leave
the domain's rates (R95). -/
def State.flagPath (s : State) (d : Fin 2) (arg : Nat) (ref : Option Int) (shift : Int) : State :=
  let x := s.time.domains[d]
  let first := (x.pathRun.head?.map (·.1)).getD s.time.clock
  ((s.setDomain d { x with pathChanged := true, tracking := false, proposalValid := false, proposalHoldover := false, pathRun := [], jumps := [], pathRef := ref
                           pathShift := shift, collecting := some (0, 0), rates := x.rates.filter (fun r => decide (r.1 < first)) }).postLedger
    (449 + d.val) 5 arg).noteHealth d

/-- The lane of a domain has changed between TIME frames and 1000BASE-X (R89, Table 4.7): a domain that has measured a path is flagged PATH_CHANGED; the change
in delay that the event carries is not known yet, and free (log entry 76). -/
def State.laneChanged (s : State) (d : Fin 2) : State :=
  if s.on 30 && s.dEnabled d && (s.time.domains[d]).measured then
    (s.flagPath d ((Config.freeWord s.free).toNat % 0x10000) none 0).tickFree
  else s

/-- A domain becomes LOST (R86): posted, and TRACKING cleared. -/
def State.loseDomain (s : State) (d : Fin 2) : State :=
  let x := s.time.domains[d]
  if x.lost ∨ !s.on 30 then s else
  (s.setDomain d { x with lost := true, tracking := false, consecutive := 0, recent := [], healthySince := none }).post (449 + d.val) 1
    (min x.missed 0xFFFF)

/-! ### Servo -/

/-- A gate notes the time at which a flag of REFIN.STATUS last stood (R63). -/
def Gate.mark (g : Gate) (weight : Nat) (time : Int) : Gate := { g with late := (weight, time) :: g.late.filter (fun x => x.1 ≠ weight) }

/-- Holdover, where the device is in it, is noted in the gates as it ends (R63). -/
def State.noteHoldover (s : State) : State :=
  if s.inHoldover then { s with ref := { s.ref with gates := s.ref.gates.map (fun (g : Gate) => g.mark 16 s.nowFine) } } else s

/-- A change of servo state is posted and enters the ledger (R98). -/
def State.setServo (s : State) (v : Servo) : State :=
  if s.time.servo = v then s else
  let s := (if v = .fine ∨ v = .locked then s.reachStage 6 else s).noteHoldover
  ({ s with
      time := { s.time with servo := v, lockRun := 0, unlockRun := 0, everLocked := s.time.everLocked || v == .locked } } : State).postLedger 451 1 v.code

/-- Whether the servo follows a domain. -/
def Servo.follows : Servo → Bool
  | .coarse | .fine | .locked => true
  | _ => false

/-- The applied rate (R81): the servo's correction plus the temperature correction, held within ±50 ppm. -/
def State.appliedRate (s : State) : Int := clamp (-50000000000) 50000000000 (s.time.rate + s.time.correction)

/-- RATE_LIMIT is posted once per entry into the limit (R81). -/
def State.rateLimit (s : State) : State :=
  let sum := s.time.rate + s.time.correction
  let excess := decide (sum < -50000000000 ∨ 50000000000 < sum)
  let s1 : State := { s with time := { s.time with limited := excess } }
  if excess ∧ !s.time.limited then s1.post 451 7 (bit (decide (0 < sum))) else s1

/-- A domain becomes the active one; a change sets SWITCH in the next milestone words (R78). -/
def State.activate (s : State) (d : Fin 2) : State :=
  { s with time := { s.time with active := d, sawSwitch := s.time.sawSwitch || decide (s.time.active ≠ d) } }

/-- A switch (R90): the other domain becomes active as a rate change to its rate, with the SWITCH control word and the event. The rate changes only while the
servo follows a domain (R87; log entry 76). -/
def State.switchDomain (s : State) (d : Fin 2) (automatic : Bool) : State :=
  let s0 := s.activate d
  let s1 := (s0.setTime { s0.time with rate := if s.time.servo.follows then (s.time.domains[d]).rate else s.time.rate }).rateLimit
  let s2 := s1.timeControl 0x102 (d.val + 2 * bit automatic)
  (s2.post 451 3 (d.val + 2 * bit automatic))

/-- The ledger entry of a switch made by the device (kind 5). -/
def State.switchLedger (s : State) (old new : Fin 2) : State :=
  s.ledgerLater (s.entry 0 5 0 0 old.val (new.val + 2) 0)

/-- The offset of PPSIN and its drift in holdover (R95). -/
def State.updateDrift (s : State) : State :=
  match s.time.holdStart with
  | some start =>
    if s.ref.pps.inValid then
      let drift := s.ref.pps.inOffset - start
      let s1 := s.wr pTimeHoldDrift (unsigned 32 drift)
      let alarm := s.rd pTimeHoldAlarm
      if alarm ≠ 0 ∧ !s.time.driftPosted ∧ (alarm : Int) * 1048576 < drift.natAbs * 1000000 then
        ({ s1 with time := { s1.time with driftPosted := true } } : State).post 451 8 (sat16 (drift * 1000000 / 1048576 / 10))
      else s1
    else s
  | none => s

/-- The mean of a domain's tracked rates over the TIME.HOLD_AVG seconds that end at its last exchange kept (R95). -/
def State.meanRate (s : State) (d : Fin 2) : Option Int :=
  let span := s.rd pTimeHoldAvg * 1024000000
  match (s.time.domains[d]).rates with
  | [] => none
  | r :: rs =>
    let used := (r :: rs).filter (fun x => decide (r.1 ≤ x.1 + span))
    some ((used.foldl (fun (a : Int) x => a + x.2) 0) / used.length)

/-- Holdover is entered (R95): the stored rate, the HOLDOVER control word, the events. TIME.HOLD_DRIFT counts from the value that REFIN.PPSIN_OFFSET has at the entry,
valid then or not, and is 0 while PPSIN is VALID there. -/
def State.enterHoldover (s : State) (cause : Nat) : State :=
  let rate := (s.meanRate s.time.active).getD s.time.rate
  let s1 : State := { s with
    time := { s.time with rate := rate, sawHoldover := true, driftPosted := false, holdStart := some s.ref.pps.inOffset }
    red := { s.red with holdover := Vector.replicate 3 true }
    ref := { s.ref with gates := s.ref.gates.map (fun (g : Gate) => { g with holdover := true }) } }
  let s2 := if s1.ref.pps.inValid then s1.wr pTimeHoldDrift 0 else s1
  ((s2.rateLimit.setServo .holdover).timeControl 0x103 (1 + 2 * cause)).post 451 4 cause

/-- Holdover is left for another servo state (R95): the HOLDOVER control word of an exit and HOLDOVER_EXIT with the active domain. -/
def State.leaveHoldover (s : State) (v : Servo) : State :=
  let s1 : State := { s with time := { s.time with holdStart := none } }
  ((s1.setServo v).timeControl 0x103 0).post 451 5 s.time.active.val

/-- Holdover is left for FINE, following a domain (R95). -/
def State.exitHoldover (s : State) (d : Fin 2) : State := (s.activate d).leaveHoldover .fine

/-- The cause of holdover, Table 4.8. -/
def State.holdoverCause (s : State) : Nat :=
  let a := s.time.domains[s.time.active]
  if !s.dEnabled s.time.active then 4
  else if a.masterJump then 2
  else if a.pathChanged then 3
  else 1

/-- One look at Table 4.6, as an exchange interval takes it (R87): the first row that applies. `seen` lists the domains that have had a
valid exchange since the last look. The row ACQUIRE to COARSE is taken by `planFirstStep`; a fall to FREERUN ends a first step that was planned. After BOTH_JUMPED only a
re-step ends HOLDOVER (R91). -/
def State.servoStep (s : State) (seen : List (Fin 2)) : State :=
  let enabled := ([0, 1] : List (Fin 2)).filter s.dEnabled
  let act := s.time.active
  match s.time.servo with
  | .master => s
  | .freerun => if enabled.any seen.contains then s.setServo .acquire else s
  | .acquire => if enabled.all (fun d => (s.time.domains[d]).lost) then (s.setTime { s.time with firstStep := none }).setServo .freerun else s
  | .holdover =>
    if s.time.bothJumped then s
    else if s.healthy act then s.exitHoldover act
    else if s.healthy (otherDomain act) then s.exitHoldover (otherDomain act) else s
  | v =>
    if !s.healthy act then
      if s.healthy (otherDomain act) then (s.switchDomain (otherDomain act) true).switchLedger act (otherDomain act)
      else s.enterHoldover s.holdoverCause
    else
      let off := (s.time.domains[act]).offset.natAbs
      match v with
      | .coarse => if off ≤ 65536 then s.setServo .fine else s
      | .fine => if 64 ≤ s.time.lockRun then s.setServo .locked else s
      | .locked => if 16 ≤ s.time.unlockRun then s.setServo .fine else s
      | _ => s

/-! ### Launch queue counts (R97) -/

/-- A missed launch is counted and posted on source 452. -/
def State.launchMissed (s : State) (reason arg : Nat) : State := (s.bump pTimeCntLaunchMissed).post 452 reason arg

/-- An entry refused for a full queue is counted and posted. -/
def State.queueFull (s : State) (kind : Nat) : State := (s.bump pTimeCntQfull).post 452 4 kind

end Sys2Proof.Machine
end

