-- ==== Sys2Proof/Machine/LinkOps.lean ====
section
/-! DEFINITION. The shared operations on links (spec/10): ports, queues, credit, the checks of a received frame, bookings and their
children, admission and absence. -/

namespace Sys2Proof.Machine

open Sys2Proof

/-! ### Ports -/

/-- The port named by PORT.DATA_PATH (R233). -/
def State.dataPort (s : State) : Fin 18 := if s.rd pPortDataPath = 1 then 17 else 16

/-- The other of the upstream and the spare lane port. -/
def State.otherPort (s : State) : Fin 18 := if s.rd pPortDataPath = 1 then 16 else 17

/-- Whether PRIM frames can leave (R164): the data path holds an admitted parent. -/
def State.primPath (s : State) : Bool := (s.ports[s.dataPort]).state == .admitted

/-- The primitives queued are dropped, each counted, where the data path holds no admitted parent (R164): none is held for a later admission. -/
def State.dropPrims (s : State) : State :=
  if s.primPath then s
  else s.acq.prims.foldl (fun t _ => t.bumpPostCount pAcqCntPrimDropped 500 1) { s with acq := { s.acq with prims := [] } }

/-- A downstream port by number. -/
def downPort (p : Fin 16) : Fin 18 := ⟨p.val, by omega⟩

/-- The event source of a port (R247). -/
def portSource (p : Fin 18) : Nat := if p.val < 16 then 433 + p.val else if p = 16 then 428 else 432

/-- The power domain of a port's lanes (Table 11.1). -/
def portDomain (p : Fin 18) : Nat := if p.val < 16 then 24 + p.val / 4 else if p = 16 then 22 else 23

/-- The lowest lane of a port (R250, R251). -/
def portLane (p : Fin 18) : Nat := if p.val < 16 then p.val else if p = 16 then 16 else 20

/-- The width that LANE.G_GROUPING or LANE.UP_WIDTH gives a port; 0 where the port is not in service (Table 11.2, R251). -/
def State.portWidth (s : State) (p : Fin 18) : Nat :=
  if p = 16 then s.rd pLaneUpWidth
  else if p = 17 then 1
  else
    let k := p.val % 4
    match s.rd (pLaneGGrouping (p.val / 4)) with
    | 0 => 1
    | 1 => if k % 2 = 0 then 2 else 0
    | 2 => if k = 0 then 4 else 0
    | 3 => if k = 0 then 2 else if k = 1 then 0 else 1
    | _ => if k < 2 then 1 else if k = 2 then 2 else 0

/-- The domain and 1000BASE-X lane of the upstream or the spare lane port: port 16 is domain A's, port 17 domain B's (R263). -/
def basexIdx (p : Fin 18) : Fin 2 := if p = 17 then 1 else 0

/-- Whether a port's lane runs 1000BASE-X (R263). -/
def State.basexPort (s : State) (p : Fin 18) : Bool := (p == 16 || p == 17) && s.onBasex (basexIdx p)

/-- Whether a port is in service (R250, R263), by the width its last bring-up took (R252). -/
def State.inService (s : State) (p : Fin 18) : Bool := (s.lanes.ports[p]).width ≠ 0 && !s.basexPort p

/-- Whether a port's lanes are up: RUNNING holds lock. -/
def State.lanesUp (s : State) (p : Fin 18) : Bool := (s.lanes.ports[p]).state == .running

/-- Whether a port can send: its lanes are up, or its 1000BASE-X link is (R264). -/
def State.sendable (s : State) (p : Fin 18) : Bool :=
  s.on (portDomain p) && (s.lanesUp p || (s.basexPort p && (s.lanes.basex[basexIdx p]).linkUp))

/-- Whether a link is ADMITTED or STANDBY. -/
def State.linked (s : State) (p : Fin 18) : Bool := (s.ports[p]).state == .admitted || (s.ports[p]).state == .standby

/-- The state with a port changed. -/
def State.modPort (s : State) (p : Fin 18) (f : Port → Port) : State := s.setPort p (f s.ports[p])

/-! ### Transmit queues (R223, Table 10.4) -/

/-- The rung of a port's wire; 5 is 1000BASE-X. -/
def State.wireRung (s : State) (p : Fin 18) : Nat := if s.basexPort p then 5 else (s.lanes.ports[p]).rung

/-- The lanes of a port's columns. -/
def State.wireWidth (s : State) (p : Fin 18) : Nat := max 1 (s.lanes.ports[p]).width

/-- The time of a number of columns that start now on a port, in ticks, with the SKIP columns among them. -/
def State.columnTicks (s : State) (p : Fin 18) (cols : Nat) : Nat :=
  let r := s.wireRung p
  columnTime r (if r ≤ 4 then withSkips (columnIndex r s.time.clock) cols else cols)

/-- Whether a DATA frame is in progress on a port. -/
def State.inData (s : State) (p : Fin 18) : Bool := (s.ports[p]).sending.isSome && decide (s.time.clock < (s.ports[p]).sendingUntil)

/-- The rank of a frame, Table 10.4. -/
def TxFrame.rank (f : TxFrame) : Nat :=
  match f.launched with
  | some _ => 2
  | none => match f.body with
    | .prim _ => 1 | .test _ => 2 | .lantern _ _ _ => 3 | .accept _ => 4 | .time _ _ => 5 | .mac _ _ _ _ _ => 5 | .adm _ _ => 6
    | .credit _ _ => 7 | .evq _ => 8 | .ctrl _ => 9 | .data _ => 10 | .abort => 10

/-- A frame waits on a port. -/
def State.enqueue (s : State) (p : Fin 18) (b : TxBody) : State :=
  s.modPort p (fun x => { x with tx := x.tx ++ [⟨b, none, 0, false, 0⟩] })

/-- A port's record ends where it stands (R224): its DATA frame in progress, if one is, ends with PREEMPT and EOF; `next` is what becomes of the record. -/
def State.cutSending (s : State) (p : Fin 18) (next : TxRecord → Option TxRecord) : State :=
  let x := s.ports[p]
  s.setPort p { x with
    record := x.record.bind next, sending := none, inserted := false
    busyUntil := if s.inData p then max s.time.clock x.busyUntil + s.columnTicks p 2 else x.busyUntil
    lastSent := if s.inData p then some ⟨.abort, none, 0, false, x.inc⟩ else x.lastSent }

/-- The forwarded frames that wait in one direction, down or up: CTRL and EVQ frames share its queue (R229, R230). -/
def State.forwarding (s : State) (down : Bool) : Nat :=
  ((List.finRange 18).filter (fun p => decide (p.val < 16) == down)).foldl (fun n p => n + ((s.ports[p]).tx.filter (fun f => f.forwarded)).length) 0

/-- A frame forwarded for another device waits in the queue of 16 of its direction, or is dropped and counted on the port it came from (R229). -/
def State.forward (s : State) (from_ p : Fin 18) (b : TxBody) (type : Nat) : State :=
  if 16 ≤ s.forwarding (decide (p.val < 16)) then
    s.bumpPost (pPortPCntDropped from_.val) (portSource from_) 0x29 type
  else s.modPort p (fun x => { x with tx := x.tx ++ [⟨b, none, 0, true, 0⟩] })

/-- An ADMIT frame of this device (Table 10.15). -/
def State.admitFrame (s : State) (p : Fin 18) (link argument : Byte) : AdmitFrame :=
  { link := link, argument := argument, device := BitVec.ofNat 16 (s.rd pDevNumber), array := BitVec.ofNat 4 (s.rd pDevArray),
    lanes := BitVec.ofNat 3 (s.lanes.ports[p]).width, stepping := 0xB1, release := s.fd.release }

/-- An ADMIT frame waits on a port. -/
def State.sendAdmit (s : State) (p : Fin 18) (k : AdmitKind) (link argument : Byte) : State :=
  s.enqueue p (.adm k (s.admitFrame p link argument))

/-! ### The lantern summary (Table 10.14) -/

/-- Whether no compression unit is in service (R199). -/
def State.noUnit (s : State) : Bool := !s.on 21 || (List.finRange 4).all (fun u => (s.comp.units[u]).state == .quarantined)

/-- ALARM of the lantern summary. -/
def State.alarm (s : State) : Bool :=
  let thermal := s.therm.state != .normal
  let missing := (List.finRange 16).any (fun p => s.rd (pPortPEnable p.val) = 1 && (s.ports[downPort p]).state != .admitted)
  let subtree := (List.finRange 16).any (fun p => (s.ports[downPort p]).state = .admitted && (s.ports[downPort p]).summary.getLsbD 16)
  s.acq.deadMask != 0 || thermal || (s.on 20 && s.belowLow) || s.noUnit || missing || subtree

/-- The lantern summary of this device. -/
def State.summary (s : State) : Word :=
  let missing := (List.finRange 16).any (fun p => s.rd (pPortPEnable p.val) = 1 && (s.ports[downPort p]).state != .admitted)
  let subtree := (List.finRange 16).any (fun p => (s.ports[downPort p]).state = .admitted && (s.ports[downPort p]).summary.getLsbD 16)
  let throttle := s.therm.state == .throttle || s.therm.state == .critical
  BitVec.ofNat 32 (s.time.servo.code + 16 * s.acq.state.code + 2 ^ 6 * bit (s.acq.deadMask != 0) +
    2 ^ 7 * bit (s.on 20 && s.belowLow) + 2 ^ 8 * bit (s.on 20 && s.atReserve) + 2 ^ 9 * bit throttle +
    2 ^ 10 * bit (s.therm.state != .normal) +
    2 ^ 11 * bit (s.keeper.spare == .spareActive || s.keeper.spare == .pairCycled) + 2 ^ 12 * bit s.noUnit +
    2 ^ 13 * bit missing + 2 ^ 14 * s.rd pPortDataPath + 2 ^ 15 * bit subtree + 2 ^ 16 * bit s.alarm)

/-! ### Receiving (R221) -/

/-- The state in which a port hears the frames of this tick: as it was before an absence of the same tick (R240). -/
def State.hearing (s : State) (p : Fin 18) : PortState := match (s.ports[p]).cut with
  | some c => c.was
  | none => (s.ports[p]).state

/-- Whether a port hears frames: powered, with its lanes up, or down in this tick only (R240). -/
def State.hears (s : State) (p : Fin 18) : Bool := s.on (portDomain p) && (s.lanesUp p || (s.ports[p]).cut.isSome)

/-- Whether a frame's LINK is taken: the link incarnation, or either number inside the renewal window (R221, R236). -/
def State.linkOk (s : State) (p : Fin 18) (link : Byte) : Bool :=
  let x := s.ports[p]
  link == x.inc || (match x.oldInc with
    | some o => link == o && (match x.windowEnd with
      | some w => decide (s.time.clock ≤ w)
      | none => x.renewAt.isSome)
    | none => false)

/-- What becomes of a received frame: taken, or discarded under the first case of R221 that holds. -/
inductive Take where
  | taken | check | code | refused | stale
  deriving DecidableEq, Repr

/-- The cases of R221 in order. `up` says that the type travels upward only, `down` downward only; `adm` that it is an ADMIT frame, and
`linked` that its LINK is checked. A STANDBY link carries TIME, LANTERN, ADMIT and CTRL only (R233): `onStandby`. -/
def State.takes (s : State) (p : Fin 18) (m : FrameMeta) (up down adm linked onStandby : Bool) : Take :=
  if !m.checkOk then .check
  else if m.codeViolation then .code
  else if !m.formOk || (up && !(p.val < 16)) || (down && decide (p.val < 16)) then .refused
  else if adm then .taken
  else if s.hearing p ≠ .admitted ∧ s.hearing p ≠ .standby then .refused
  else if linked && !s.linkOk p m.link then .stale
  else if s.hearing p = .standby && !onStandby then .refused
  else .taken

/-- A coding or disparity error on the lane that carries a domain's TIME frames spoils the exchange in progress (R86). -/
def State.spoilExchange (s : State) (p : Fin 18) : State :=
  if p.val < 16 ∨ !s.on 30 then s
  else
    let d : Fin 2 := if p = 17 then 1 else 0
    let x := s.time.domains[d]
    s.setDomain d { x with exchange := { x.exchange with bad := x.exchange.bad || x.exchange.seq.isSome } }

/-- The violations that came with a frame or since the one before it are counted on their lanes (R254, R259), and spoil the exchange in progress (R86). -/
def State.noteViols (s : State) (p : Fin 18) (m : FrameMeta) : State :=
  let lanes := (List.range (s.lanes.ports[p]).width).filter (fun n => m.laneViols n ≠ 0)
  let s1 := lanes.foldl (fun t n => t.bumpBy (pLaneCntViol (portLane p + n)) (m.laneViols n)) s
  if lanes.isEmpty then s1 else s1.spoilExchange p

/-- A discarded frame is counted; CHECK, CODE and STALE are posted at the first after their counter was last read (R221). -/
def State.discard (s : State) (p : Fin 18) (t : Take) (type : Nat) : State :=
  match t with
  | .taken => s
  | .check => s.bumpPost (pPortPCntCheck p.val) (portSource p) 0x27 type
  | .code => s.bumpPost (pPortPCntCode p.val) (portSource p) 0x28 0
  | .refused => s.bump (pPortPCntRefusedFrame p.val)
  | .stale => s.bumpPostCount (pPortPCntStale p.val) (portSource p) 0x23

/-- A frame is taken and counted, and acted on; or discarded under R221. The port's lanes must be powered and up. -/
def State.receive (s : State) (p : Fin 18) (m : FrameMeta) (up down adm linked onStandby : Bool) (type : Nat) (act : State → State) : State :=
  if !s.hears p then s else
  let s := s.noteViols p m
  match s.takes p m up down adm linked onStandby with
  | .taken => act (s.bump (pPortPCntFrames p.val))
  | t => s.discard p t type

/-! ### Credit (R231) -/

/-- The units of a DATA frame of `b` bytes. -/
def unitsOf (b : Nat) : Nat := (b + 255) / 256

/-- The parent raises its grant on a downstream port: PORT.P_CREDIT_MAX units stay outstanding beyond what has left the receive buffer,
and nothing while the free rooms are at or below ROOMS.RESERVE. CREDIT is sent at each raise of 4 units or more. -/
def State.raiseGrant (s : State) (p : Fin 16) : State :=
  let q := downPort p
  let x := s.ports[q]
  if x.state ≠ .admitted ∨ s.atReserve then s else
  let held := (x.rxWait.foldl (fun a w => a + w.units) 0)
  let target := x.consumed - BitVec.ofNat 32 held + BitVec.ofNat 32 (s.rd (pPortPCreditMax p.val))
  let granted := if 0 < (target - x.granted).toInt then target else x.granted
  if 4 ≤ (granted - x.announced).toNat then
    (s.setPort q { x with granted := granted, announced := granted, creditAt := s.time.clock }).enqueue q
      (.credit (s.rd (pPortPCreditMax p.val)) granted)
  else s.setPort q { x with granted := granted }

/-! ### The booking cache (R189) -/

/-- A booking's record enters the cache as the most recently used; beyond 2,048 the least recently used that is neither OPEN nor SENDING is written back. -/
def State.touch (s : State) (slot : Nat) : State :=
  let c := s.porter.cached.filter (fun x => x ≠ slot) ++ [slot]
  let loose := fun (k : Nat) => match s.booking k with
    | some b => b.state = .closed || b.state = .ready
    | none => true
  if c.length ≤ 2048 then s.modPorter (fun p => { p with cached := c })
  else match c.find? loose with
    | none => s.modPorter (fun p => { p with cached := c })
    | some k =>
      let s1 := s.modPorter (fun p => { p with cached := c.filter (fun x => x ≠ k) })
      match s.booking k with
      | none => s1
      | some b => (List.range 8).foldl (fun t i => t.pushWrite 2 (8 * k + i) (BitVec.ofNat 64 (leNat ((b.bytes.drop (8 * i)).take 8)))) s1

/-- Whether a booking's record is missing from the cache and not being fetched. -/
def State.fetchable (s : State) (slot : Nat) : Bool :=
  s.on 20 && (s.booking slot).isSome && !s.porter.cached.contains slot && !s.porter.fetches.any (fun x => x.slot = slot)

/-- The fetch of a record that is not in the cache begins (R189): counted, and its 8 words read at level 2 of Table 12.4. -/
def State.startFetch (s : State) (slot : Nat) : State :=
  if !s.fetchable slot then s else
  let s1 := (s.bump pRoomsCntCacheMiss).modPorter (fun p => { p with fetches := p.fetches ++ [⟨slot, 8, [], false, false⟩] })
  (List.range 8).foldl (fun t i => t.pushRead 2 (8 * slot + i) (.record slot i)) s1

/-- A booking's record is used: the most recently used one of the cache, or fetched. -/
def State.useRecord (s : State) (slot : Nat) : State := if s.porter.cached.contains slot then s.touch slot else s.startFetch slot

/-! ### Bookings and children -/

/-- Whether a booking in CLOSED is complete (R243): every expected port reported or absent. -/
def Booking.complete (b : Booking) : Bool := (b.expected &&& ~~~ (b.reported ||| b.absent)) == 0

/-- A booking in CLOSED that is complete becomes READY. -/
def State.checkComplete (s : State) (slot : Nat) : State :=
  s.modBooking slot (fun b => if b.state = .closed && b.complete then { b with state := .ready } else b)

/-- A readout of a source, if it runs. -/
def State.readout (s : State) (src : ReadSource) : Option Readout := s.porter.readouts.find? (fun r => r.source = src)

/-- Whether everything received of a record has left the receive buffers. -/
def State.inRooms (s : State) (t : RxTarget) : Bool := (List.finRange 16).all (fun p => (s.ports[downPort p]).rxWait.all (fun w => w.target ≠ t))

/-- Whether an absence or a timeout of this tick still has to be settled in a booking (R240). -/
def State.unsettled (s : State) (slot : Nat) : Bool :=
  (List.finRange 16).any (fun p => (s.ports[downPort p]).cut.any (fun c => c.slots.contains slot))

/-- The sources that wait in class T (R191), with their launch ticks and orders: READY bookings, and passed-on STATION records. -/
def State.waitingT (s : State) : List (ReadSource × DWord × Nat) :=
  (s.porter.bookings.filter (fun b => b.2.state = .ready && s.inRooms (.booking b.1) && !s.unsettled b.1)).map (fun b => (.booking b.1, b.2.launch, b.2.order)) ++
  (s.porter.pass.filter (fun e => e.waybill.kind = 2 && s.inRooms (.pass e.id) && (s.readout (.pass e.id)).isNone)).filterMap (fun e =>
    e.done.map (fun t => (.pass e.id, t, 0)))

/-- Whether a write of some rooms still waits. -/
def State.unwritten (s : State) (rooms : List Nat) : Bool :=
  s.mem.channels.toList.any (fun c => c.general.any (fun a => (match a.op with
    | .write _ => true
    | _ => false) && (match s.roomOfAddr (8 * a.word) with
    | some r => rooms.contains r
    | none => false)))

/-- The sources that can start next in class M (R191), with the ticks of their arrival: the first closed monitor fragment in sequence order, once its words are written, and
the first passed-on MONITOR record in the order in which they began to arrive (log entry 80). -/
def State.waitingM (s : State) : List (ReadSource × DWord × Nat) :=
  ((s.unsent.take 1).filter (fun m => !s.unwritten m.rooms)).map (fun m => (.monitor m.seq.toNat, m.closed, 0)) ++
  ((s.porter.pass.filter (fun e => e.waybill.kind = 3 && s.inRooms (.pass e.id) && (s.readout (.pass e.id)).isNone)).filterMap (fun e =>
    e.done.map (fun t => (.pass e.id, t, 0)))).take 1

/-- The deficits of R191 as classes empty: that of a class with nothing waiting is 0, and where neither has, the round begins again at class T. -/
def State.lookDeficits (s : State) : State :=
  let t := s.waitingT.isEmpty
  let m := s.waitingM.isEmpty
  s.modPorter (fun p => { p with deficitT := if t then 0 else p.deficitT, deficitM := if m then 0 else p.deficitM, turnM := p.turnM || (t && m) })

/-- The readout schedule is looked at: deficits (R191), and BACKLOG, which is posted when ROOMS.READY first exceeds its alarm and again only after it has fallen
below half (R192). -/
def State.lookBacklog (s : State) : State :=
  let s := s.lookDeficits
  let n := (s.porter.bookings.filter (fun b => b.2.state = .ready ∨ b.2.state = .sending)).length
  let lim := s.roomsItem pRoomsBacklogAlarm
  if lim < n ∧ !s.porter.backlog then (s.modPorter (fun q => { q with backlog := true })).post 503 1 (n % 0x10000)
  else if 2 * n < lim ∧ s.porter.backlog then s.modPorter (fun q => { q with backlog := false })
  else s

/-- The rooms a record's target holds so far. -/
def State.targetRooms (s : State) (p : Fin 16) (t : RxTarget) : List Nat :=
  match t with
  | .booking slot => ((s.booking slot).bind (fun b => b.children.find? (fun c => c.port = p.val))).elim [] (fun c => c.rooms)
  | .pass id => (s.porter.pass.find? (fun e => e.id = id)).elim [] (fun e => e.rooms)
  | .drop => []

/-- Whether a frame in a receive buffer waits for rooms. -/
def State.waitsRoom (s : State) (p : Fin 16) (w : RxWait) : Bool := (s.targetRooms p w.target).length < (w.offset + w.bytes.length + 255) / 256

/-- A downstream port asks for the FRAGMENT rooms that the frames in its receive buffer still need (R193). -/
def State.refreshRequest (s : State) (p : Fin 16) : State :=
  let ws := (s.ports[downPort p]).rxWait
  let targets := ws.foldl (fun (a : List RxTarget) w => if a.contains w.target then a else a ++ [w.target]) []
  let need := (targets.map (fun t =>
    (((ws.filter (fun w => w.target = t)).map (fun w => (w.offset + w.bytes.length + 255) / 256)).foldl Nat.max 0) - (s.targetRooms p t).length)).foldl (· + ·) 0
  (s.modPorter (fun x => { x with requests := x.requests.filter (fun e => e.1 ≠ 17 + p.val) })).request (17 + p.val) need

/-- The record being received on a downstream port is discarded: its rooms are freed, what waits in the buffer leaves it, and the pass
entry that took it goes (R224, R238, R242). -/
def State.dropRx (s : State) (p : Fin 16) : State :=
  let q := downPort p
  match (s.ports[q]).rx with
  | none => s
  | some r =>
    let s1 := s.modPort q (fun x => { x with rx := none, rxWait := x.rxWait.filter (fun w => w.target ≠ r.target) })
    let s2 := match r.target with
      | .booking slot =>
        let rooms : List Nat := ((s1.booking slot).map (fun (b : Booking) => (b.children.filter (fun (c : ChildRecord) => c.port = p.val)).flatMap (fun (c : ChildRecord) => c.rooms))).getD []
        (s1.modBooking slot (fun b => { b with children := b.children.filter (fun c => c.port ≠ p.val) })).freeRooms rooms
      | .pass id =>
        let rooms : List Nat := ((s1.porter.pass.find? (fun (e : PassRecord) => e.id = id)).map (fun (e : PassRecord) => e.rooms)).getD []
        (s1.modPorter (fun x => { x with pass := x.pass.filter (fun e => e.id ≠ id) })).freeRooms rooms
      | .drop => s1
    ((s2.refreshRequest p).thresholds).raiseGrant p

/-- A port is marked absent in a booking, which is then checked for completion. -/
def State.markAbsent (s : State) (slot : Nat) (p : Fin 16) (corrupt : Bool) : State :=
  ((s.modBooking slot (fun b => { b with absent := b.absent ||| (1#16 <<< p.val), corrupt := b.corrupt || corrupt })).useRecord slot).checkComplete slot

/-! ### The happenings of one tick (R240) -/

/-- An absence or a timeout of this tick cuts off what a port does: noted until the tick ends. -/
def State.noteCut (s : State) (p : Fin 18) (f : TickCut → TickCut) : State :=
  s.modPort p (fun x => { x with cut := some (f (x.cut.getD ⟨x.state, none, [], []⟩)) })

/-- The record in progress on a downstream port is cut off, and `next` stands in its place; its rooms are freed as the tick ends. -/
def State.cutRx (s : State) (p : Fin 16) (next : Option RxRecord) : State :=
  (s.noteCut (downPort p) (fun c => { c with rx := c.rx.orElse (fun _ => (s.ports[downPort p]).rx) })).modPort (downPort p) (fun x => { x with rx := next })

/-- A port is marked absent in a booking by a happening of this tick. -/
def State.cutBooking (s : State) (slot : Nat) (p : Fin 16) : State :=
  (s.markAbsent slot p false).noteCut (downPort p) (fun c => { c with slots := c.slots ++ [slot] })

/-- A frame arrives in the tick of its port's absence or of a timeout: the port and its bookings stand as before, so that the frame is taken first (R240). -/
def State.uncut (s : State) (p : Fin 16) (c : TickCut) : State :=
  let s1 := s.modPort (downPort p) (fun x => { x with state := c.was, rx := if c.rx.isSome then c.rx else x.rx, cut := some ⟨c.was, none, [], []⟩ })
  c.slots.foldl (fun t k => t.modBooking k (fun b =>
    { b with absent := b.absent &&& ~~~ (1#16 <<< p.val), state := if b.state = .ready then .closed else b.state })) s1

/-- After that frame the absence or timeout applies again, to what it has not completed. -/
def State.recut (s : State) (p : Fin 16) (c : TickCut) (now : Port) : State :=
  let missing := c.slots.filter (fun k => (s.booking k).any (fun b => (b.state = .opened ∨ b.state = .closed) && !b.reported.getLsbD p.val))
  let rx := (s.ports[downPort p]).rx
  let ends := rx.all (fun r => r.target = .drop)
  let s1 := s.modPort (downPort p) (fun x => { (if now.state = c.was then x else { x with tx := now.tx, granted := now.granted, consumed := now.consumed, announced := now.announced }) with
    state := now.state, rx := if now.state = c.was ∧ ends then x.rx else now.rx
    cut := some { was := c.was, rx := if ends then none else rx, slots := missing, timed := c.timed.filter (fun e => missing.contains e.1) } })
  missing.foldl (fun t k => t.markAbsent k p false) s1

/-- What a happening of the tick cut off on a port is discarded as the tick ends (R238, R240, R243): the rooms of its partial record are freed, and the records cut
by a timeout are counted. -/
def State.settlePort (s : State) (p : Fin 16) : State :=
  match (s.ports[downPort p]).cut with
  | none => s
  | some c =>
    let rx := (s.ports[downPort p]).rx
    let s1 := c.timed.foldl (fun t e => t.bumpPost (pPortPCntTimeout p.val) (433 + p.val) 0x25 (e.2.toNat % 0x10000)) s
    let s2 := if c.rx.isSome then (s1.modPort (downPort p) (fun x => { x with rx := c.rx })).dropRx p else s1
    (s2.modPort (downPort p) (fun x => { x with rx := rx, cut := none })).lookBacklog

/-! ### Incarnation (R232, R236) -/

/-- A new incarnation, (old mod 255) + 1, waits to be written to MRAM; one already waiting counts as the old. -/
def State.takeIncarnation (s : State) : State :=
  let last := (s.mram.waiting.filterMap (fun b => match b with
    | .incarnation n => some n
    | _ => none)).getLast?
  let run := match s.mram.running with
    | some (.incarnation n) => some n
    | _ => none
  let old := (last.orElse (fun _ => run)).getD s.mram.incarnation
  let new : Byte := BitVec.ofNat 8 (old.toNat % 255 + 1)
  { s with mram := { s.mram with waiting := s.mram.waiting ++ [.incarnation new] } }

/-- Whether an incarnation waits to be written: no ADMIT frame bearing it may go out yet. -/
def State.incarnationWaits (s : State) : Bool :=
  s.mram.waiting.any (fun b => match b with
    | .incarnation _ => true
    | _ => false) ||
  (match s.mram.running with
    | some (.incarnation _) => true
    | _ => false)

/-- The child asks for admission (R233, R234): REQUEST with its incarnation and role; its port is ADMITTING. -/
def State.askAdmission (s : State) (p : Fin 18) : State :=
  if p.val < 16 ∨ !s.lanesUp p ∨ s.rd (pPortPEnable p.val) ≠ 1 ∨ s.incarnationWaits ∨ s.mram.incarnation = 0 then s else
  let role := if p = s.dataPort then 1 else 2
  (s.modPort p (fun x => { x with state := .admitting, inc := s.mram.incarnation, role := role, askedAt := some s.time.clock,
                                  refusedAt := none })).sendAdmit p .request s.mram.incarnation (BitVec.ofNat 8 role)

/-- An incarnation has been written (R232): a link still up takes it through RENEW; any other upstream link admits afresh, at once unless it waits after a refusal
(R235) or for the answer to a REQUEST, which takes the new number when it next asks (R234). -/
def State.incarnationWritten (s : State) (n : Byte) : State :=
  let s1 : State := { s with mram := { s.mram with incarnation := n } }
  ([16, 17] : List (Fin 18)).foldl (fun t p =>
    let x := t.ports[p]
    if t.linked p then
      if x.inc = n then t
      else (t.setPort p { x with oldInc := some x.inc, inc := n, renewAt := some t.time.clock, windowEnd := none }).sendAdmit p .renew n x.inc
    else if x.refusedAt.isSome || (x.state == .admitting && x.askedAt.isSome) then t else t.askAdmission p) s1

/-! ### Absence (R237–R239) -/

/-- Whether a port in its state carries a frame (R233): an ADMITTED link carries every type and a STANDBY link TIME, LANTERN, ADMIT and CTRL only; on a port that is
neither, only ADMIT frames are taken (R221), and any other waits for its admission (log entry 80). A 1000BASE-X port has PTP messages alone. -/
def Port.carries (x : Port) (b : TxBody) : Bool := match b with
  | .adm _ _ => true
  | .mac _ _ _ _ _ => true
  | .time _ _ => x.state == .admitted || x.state == .standby
  | .lantern _ _ _ => x.state == .admitted || x.state == .standby
  | .ctrl _ => x.state == .admitted || x.state == .standby
  | _ => x.state == .admitted

/-- Frames queued for launch on a port that leaves ADMITTED are flushed, and FRAME posted with their tags (R328). -/
def State.flushLaunches (s : State) (p : Fin 18) : State :=
  let mine := fun (e : LaunchEntry) => match e with
    | .frame _ q _ _ => q.val = p.val
    | .booking _ _ _ => false
  let gone := s.time.queue.filter mine
  let s1 : State := { s with time := { s.time with queue := s.time.queue.filter (fun e => !mine e) } }
  gone.foldl (fun t e => match e with
    | .frame _ _ _ tag => t.post 452 2 tag.toNat
    | .booking _ _ _ => t) s1

/-- A downstream port takes the role STANDBY: the launches queued on it are flushed where it leaves ADMITTED (R328), and what a STANDBY link does not carry leaves its
queue (R233). -/
def State.toStandby (s : State) (p : Fin 18) : State :=
  (if (s.ports[p]).state = .admitted then s.flushLaunches p else s).modPort p (fun x =>
    { x with tx := x.tx.filter (fun f => { x with state := .standby }.carries f.body) })

/-- A parent declares its child on a downstream port absent (R238); `why` is the argument of ABSENT, `cause` that of CLOSE. A booking launched in the same tick
does not expect the child, since absences come ahead of launches, nor does a booking time out on it, since they come ahead of timeouts (R240). -/
def State.childAbsent (s : State) (p : Fin 16) (why cause : Nat) : State :=
  let q := downPort p
  let x := s.ports[q]
  let s1 := (s.cutRx p none).noteCut q (fun c => { c with timed := [] })
  let s2 := s1.modPort q (fun y => { y with state := .absent, lapsed := false, lastInc := some x.inc, tx := [], sending := none, granted := 0, consumed := 0,
                                            announced := 0, oldInc := none, windowEnd := none, grantAt := none })
  let s3 := s2.porter.bookings.foldl (fun t b =>
    if (b.2.state = .opened ∨ b.2.state = .closed) ∧ b.2.expected.getLsbD p.val ∧ !b.2.reported.getLsbD p.val then
      if b.2.launch = s.now then (t.modBooking b.1 (fun y => { y with expected := y.expected &&& ~~~ (1#16 <<< p.val) })).checkComplete b.1
      else t.cutBooking b.1 p
    else t) s2
  let s4 := s3.flushLaunches q
  let s5 := if s4.lanesUp q then s4.sendAdmit q .close x.inc (BitVec.ofNat 8 cause) else s4
  ((s5.bump (pPortPCntAbsent p.val)).postLedger (portSource q) 0x22 (why + 256 * x.inc.toNat)).lookBacklog

/-- A child declares its parent absent on a link (R239). A booking in SENDING returns to READY, a head waybill in transmission to its place;
the domain carried is LOST (R86), and the data path's loss takes a new incarnation (R232). -/
def State.parentAbsent (s : State) (p : Fin 18) (why cause : Nat) : State :=
  let x := s.ports[p]
  let data := p = s.dataPort
  let wasData := data ∧ x.state = .admitted
  let s1 := (s.noteCut p id).modPort p (fun y => { y with
    state := .absent, lapsed := false, lastInc := some x.inc, tx := [], sending := none, record := none, granted := 0, consumed := 0, oldInc := none, windowEnd := none, renewAt := none, askedAt := none, refusedAt := none })
  let s2 := if data then (s1.modPorter (fun q => { q with
      bookings := q.bookings.map (fun b => if b.2.state = .sending then (b.1, { b.2 with state := .ready }) else b)
      headWaybills := match x.record with
        | some r => if r.source.isNone then r.waybill :: q.headWaybills else q.headWaybills
        | none => q.headWaybills })).dropReadouts (fun r => match r with
        | .booking _ => true
        | _ => false) else s1
  let s3 := if s2.lanesUp p then s2.sendAdmit p .close x.inc (BitVec.ofNat 8 cause) else s2
  let s4 := (s3.bump (pPortPCntAbsent p.val)).postLedger (portSource p) 0x22 (why + 256 * x.inc.toNat)
  let s5 := s4.loseDomain (if p = 16 then 0 else 1)
  let s6 := s5.dropPrims
  if wasData then s6.takeIncarnation else s6

/-- The partner of a link is declared absent (R237). -/
def State.declareAbsent (s : State) (p : Fin 18) (why cause : Nat) : State :=
  if !s.linked p then s
  else if h : p.val < 16 then s.childAbsent ⟨p.val, h⟩ why cause
  else s.parentAbsent p why cause

/-- The partners whose lanterns have lapsed in the tick that ends are declared absent (R237): receipts of the tick come first (R240), so that a LANTERN of the same tick
still counts. -/
def State.lapse (s : State) : State :=
  (List.finRange 18).foldl (fun t p => if (t.ports[p]).lapsed then (t.declareAbsent p 1 5).modPort p (fun x => { x with lapsed := false }) else t) s

/-- The absences that wait for the end of the tick come about, and every cut of the tick is settled (R240). -/
def State.settle (s : State) : State :=
  if (List.finRange 18).all (fun p => (s.ports[p]).cut.isNone && !(s.ports[p]).lapsed) then s
  else ([16, 17] : List (Fin 18)).foldl (fun t p => t.modPort p (fun x => { x with cut := none })) ((List.finRange 16).foldl State.settlePort s.lapse)

/-! ### Data-path moves (R346, R347) -/

/-- Every booking is released unsent and counted (R186, R347). -/
def State.releaseBookings (s : State) : State :=
  (s.porter.bookings.map (·.1)).foldl (fun t k => (t.releaseBooking k).bump pSpareCntDpReleased) s

/-- ROLE goes out on both upstream links (R233). A link that is not admitted drops it and admits afresh: one that asks asks again with its new role. -/
def State.sendRoles (s : State) : State :=
  ([16, 17] : List (Fin 18)).foldl (fun t p =>
    let role := if p = t.dataPort then 1 else 2
    if t.linked p then (t.modPort p (fun x => { x with role := role })).sendAdmit p .role (t.ports[p]).inc (BitVec.ofNat 8 role)
    else if (t.ports[p]).state = .admitting ∧ (t.ports[p]).role ≠ role ∧ (t.ports[p]).refusedAt.isNone then t.askAdmission p
    else t) s

/-- The data path moves (R233, R347): ROLE on both links; the bookings launched before the new link's admission are released unsent and
counted, those of now here and those launched until that admission there; head waybills that wait for the old path are discarded. -/
def State.moveDataPath (s : State) (new : Nat) : State :=
  let s1 := (s.wr pPortDataPath new).bump pSpareCntDpMoves
  let s2 := s1.sendRoles.releaseBookings.modPorter (fun q => { q with headWaybills := [] })
  let s3 := ([16, 17] : List (Fin 18)).foldl (fun t p => t.cutSending p (fun _ => none)) s2
  ({ s3 with keeper := { s3.keeper with noStandby := false, dpAwaits := true, dpUpAt := s.time.clock } } : State).dropPrims

end Sys2Proof.Machine
end

