-- ==== Sys2Proof/Machine/Calib.lean ====
section
/-! DEFINITION. Linearisation tables and images (R41–R43): reading a code, building a table from a histogram, and the 536-byte image. -/

namespace Sys2Proof.Machine

open Sys2Proof

/-- The table value of a calibrated code (R42): the base plus the increments from the code up to span-high. -/
def LinTable.fine (t : LinTable) (c : Nat) : Nat := t.base + ((t.inc.drop c).take (t.spanHigh - c)).foldl (· + ·) 0

/-- The span of a channel's table in use: its own or the factory's. -/
def tableSpan (channel : Nat) (t : Option LinTable) : Nat × Nat :=
  match t with
  | some x => (x.spanLow, x.spanHigh)
  | none => Config.factorySpan channel

/-- The calibration temperature of a channel's table in use, in 1/16 °C: its own or the factory's. -/
def tableTemp (channel : Nat) (t : Option LinTable) : Int :=
  match t with
  | some x => x.calTemp
  | none => (Config.factoryTemp channel).toInt

/-- The fine value of a raw code, and whether the code lies outside the span (R41): 1023 below span-low and 0 above span-high. -/
def codeFine (channel : Nat) (t : Option LinTable) (raw : Nat) : Nat × Bool :=
  let (lo, hi) := tableSpan channel t
  if raw < lo then (1023, true)
  else if hi < raw then (0, true)
  else match t with
    | some x => (x.fine raw % 1024, false)
    | none => (Config.factoryFine channel raw % 1024, false)

/-- The table values of a span (R43): from span-high down, with the count of the codes above. -/
def buildCodes (h : List Nat) (n : Nat) (lo : Nat) : Nat → Nat → List Nat → List Nat
  | 0, _, acc => acc
  | k + 1, above, acc =>
    let c := lo + k
    let x := h[c]?.getD 0
    buildCodes h n lo k (above + x) ((2 * above + x) * 512 / n :: acc)

/-- The increments between neighbouring values of a span: L[c] − L[c + 1], as integers. -/
def steps : List Nat → List Int
  | a :: b :: xs => ((a : Int) - b) :: steps (b :: xs)
  | _ => []

/-- What Aelko builds from a histogram (R43): the table, or the number of the first check that fails. -/
def buildTable (h : List Nat) (total : Nat) (moved : Int) (source lowSrc highSrc : Nat) (channel : Nat) (calTemp : Int) (trim : Nat) : Nat ⊕ LinTable :=
  let used := (List.range 1024).filter (fun c => 0 < h[c]?.getD 0)
  let n := (h.take 1024).foldl (· + ·) 0
  let lo := used.head?.getD 0
  let hi := used.getLast?.getD 0
  let width := hi - lo + 1
  let codes := buildCodes h n lo width 0 []
  let incs := steps codes
  if used = [] ∨ width < 640 ∨ 960 < width then .inl 1
  else if used.length ≠ width then .inl 2
  else if incs.any (fun i => i < 0 ∨ 15 < i) then .inl 3
  else if n ≠ total then .inl 4
  else if 8 < moved.natAbs then .inl 5
  else if source < lowSrc ∨ highSrc < source then .inl 6
  else .inr
    { channel := channel, valid := true, factory := false, spanLow := lo, spanHigh := hi, base := codes.getLast?.getD 0, calTemp := calTemp,
      trim := trim, edges := n, inc := List.replicate lo 0 ++ incs.map Int.toNat ++ List.replicate (1024 - hi) 0 }

/-- Two nibbles a byte, the even one low (Table 2.7). -/
def packNibbles : List Nat → List Byte
  | a :: b :: xs => BitVec.ofNat 8 (a % 16 + 16 * (b % 16)) :: packNibbles xs
  | [a] => [BitVec.ofNat 8 (a % 16)]
  | [] => []

/-- The nibbles of bytes, the low one first. -/
def nibbles (bs : List Byte) : List Nat := bs.flatMap (fun b => [b.toNat % 16, b.toNat / 16])

/-- A linearisation image (Table 2.7). -/
def LinTable.image (t : LinTable) : List Byte :=
  let head := natLe 2 t.channel ++ [1] ++ natLe 1 (bit t.valid + 2 * bit t.factory) ++ natLe 2 t.spanLow ++ natLe 2 t.spanHigh ++ natLe 2 t.base ++
    natLe 2 (unsigned 16 t.calTemp) ++ natLe 2 t.trim ++ natLe 2 0 ++ natLe 4 t.edges
  let body := packNibbles (t.inc.take 1024)
  head ++ natLe 4 (crc32c (head ++ body)).toNat ++ body

/-- The table an image holds, if it passes the checks of R42. The flags VALID and FACTORY are kept and have no effect of their own (log entry 74). -/
def parseImage (bs : List Byte) : Option LinTable :=
  let at_ (o n : Nat) := leNat ((bs.drop o).take n)
  let inc := nibbles ((bs.drop 0x18).take 512)
  let lo := at_ 4 2
  let hi := at_ 6 2
  let t : LinTable :=
    { channel := at_ 0 2, valid := (at_ 3 1).testBit 0, factory := (at_ 3 1).testBit 1, spanLow := lo, spanHigh := hi, base := at_ 8 2,
      calTemp := signed 16 (at_ 0xA 2), trim := at_ 0xC 2, edges := at_ 0x10 4, inc := inc }
  if bs.length ≠ 536 ∨ at_ 0x14 4 ≠ (crc32c (bs.take 0x14 ++ bs.drop 0x18)).toNat ∨ at_ 2 1 ≠ 1 ∨ hi ≤ lo ∨
      (inc.zipIdx.any (fun p => p.1 ≠ 0 ∧ (p.2 < lo ∨ hi ≤ p.2))) ∨ 1023 < t.fine lo then none
  else some t

end Sys2Proof.Machine
end

