-- ==== Sys2Proof/Machine/LaneOps.lean ====
section
/-! DEFINITION. The shared operations on the serial lanes (spec/11): the lanes of a port, bring-up, failed rungs, lock and low power. -/

namespace Sys2Proof.Machine

open Sys2Proof

/-- The state with a port's bring-up changed. -/
def State.modBringup (s : State) (p : Fin 18) (f : Bringup → Bringup) : State :=
  { s with lanes := { s.lanes with ports := vmod s.lanes.ports p f } }

/-- The state with a lane changed. -/
def State.modLane (s : State) (l : Fin 21) (f : Lane → Lane) : State :=
  { s with lanes := { s.lanes with lanes := vmod s.lanes.lanes l f } }

/-- The lanes of a port of `w` lanes (R250, R251). -/
def lanesOf (p : Fin 18) (w : Nat) : List (Fin 21) :=
  (List.finRange 21).filter (fun l => portLane p ≤ l.val ∧ l.val < portLane p + w)

/-- The lanes of a port at the width of its bring-up. -/
def State.myLanes (s : State) (p : Fin 18) : List (Fin 21) := lanesOf p (s.lanes.ports[p]).width

/-- Every lane of a port changed. -/
def State.modLanes (s : State) (p : Fin 18) (f : Lane → Lane) : State := (s.myLanes p).foldl (fun t l => t.modLane l f) s

/-- The event source of a lane (R249). -/
def laneSource (l : Nat) : Nat := 412 + l

/-- The port that a lane belongs to, by the widths in effect (R250–R252). -/
def State.portOfLane (s : State) (l : Fin 21) : Option (Fin 18) :=
  (List.finRange 18).find? (fun p => decide (portLane p ≤ l.val ∧ l.val < portLane p + (s.lanes.ports[p]).width))

/-- The port whose items a lane takes (R266): the one it belongs to, or, where it belongs to none, the one it would start under the settings. -/
def State.lanePort (s : State) (l : Fin 21) : Option (Fin 18) :=
  (s.portOfLane l).orElse (fun _ => (List.finRange 18).find? (fun p => portLane p = l.val && s.portWidth p != 0))

/-- Whether lanes `a` to `a + w − 1` belong to no port but `p`. -/
def State.lanesFree (s : State) (p : Fin 18) (a w : Nat) : Bool :=
  (List.range w).all (fun i => match (idx? 21 (a + i)).bind s.portOfLane with
    | some q => q == p
    | none => true)

/-- The equalisation entry of a lane and mode (Table 11.7, R262): of the board's table, or pre 0, post 6, CTLE 4. -/
def eqEntry (table : Option (List Byte)) (l m : Nat) : Half :=
  match table with
  | some t => BitVec.ofNat 16 (leNat ((t.drop (0x10 + 2 * (6 * l + m))).take 2))
  | none => 0x0860

/-- Every lane of a port loads its entry of a mode. -/
def State.loadEq (s : State) (p : Fin 18) (mode : Nat) : State :=
  (s.myLanes p).foldl (fun t l => t.modLane l (fun x => { x with eq := eqEntry (s.lanes.ports[p]).table l.val mode })) s

/-- The highest rung a port offers (R255): the lowest LANE.MAX_RUNG of its lanes, at most L1 with the default table. -/
def State.offerOf (s : State) (p : Fin 18) (w : Nat) : Nat :=
  let m := (lanesOf p w).foldl (fun a l => Nat.min a (s.rd (pLaneMaxRung l.val))) 4
  if s.lanes.eqTable.isNone then Nat.min m 1 else m

/-- TIME.D_TRANSPORT takes effect at the bring-up of its lane (R263). A domain whose lane changes is flagged (R89), and what waits on the lane is lost with it. -/
def State.latchTransport (s : State) (p : Fin 18) : State :=
  if p.val < 16 then s else
  let d := basexIdx p
  let x := decide (s.rd (pTimeDTransport d.val) = 1)
  if s.onBasex d = x then s
  else (({ s with lanes := { s.lanes with onBasex := vput s.lanes.onBasex d x } } : State).modPort p (fun y => { y with tx := [] })).laneChanged d

/-- The set that a lane of a port sends (Table 11.4), for a rung; with its count and PASS in a VERDICT. -/
def State.ownSet (s : State) (p : Fin 18) (l : Fin 21) (k : SetKind) (rung : Nat) : TrainSet :=
  let x := s.lanes.lanes[l]
  { ok := true, rung := BitVec.ofNat 3 rung, laneIndex := BitVec.ofNat 2 (l.val - portLane p), width := BitVec.ofNat 3 (s.lanes.ports[p]).width
    fromChild := decide (16 ≤ p.val), seen := decide (3 ≤ x.capSets), pass := k == .verdict && x.pass == some true
    errors := if k = .verdict then x.errors else 0, device := BitVec.ofNat 16 (s.rd pDevNumber) }

/-- A port in RUNNING stops running: its lanes are down. -/
def State.lanesDown (s : State) (p : Fin 18) : State := s.modBringup p (fun b => { b with state := .locking, stage := .none })

/-- A lane of a port has lost lock (R86, R237, R259): reported to the courier, posted, ledgered and counted; the domain of an upstream port is LOST, whether its link had
been admitted or not. -/
def State.lockGone (s : State) (p : Fin 18) (lane : Fin 21) (cause : Nat) : State :=
  let s1 := (s.lanesDown p).declareAbsent p 2 5
  let s2 := if p = 16 then s1.loseDomain 0 else if p = 17 then s1.loseDomain 1 else s1
  (s2.postLedger (laneSource lane.val) 0x02 cause).bump (pLaneCntLockLost lane.val)

/-- A port is out of service (R250, R251): its lanes are UNUSED and nothing goes on at it. -/
def State.retirePort (s : State) (p : Fin 18) : State :=
  (s.modBringup p (fun _ => { Bringup.reset with state := .unused, width := 0 })).modPort p (fun x => { x with
    state := if s.rd (pPortPEnable p.val) = 1 then .down else .disabled, tx := [], askedAt := none, refusedAt := none, grantAt := none })

/-- A port of `w` lanes takes the lanes of the ports whose numbers lie inside it (R250, R252): one in RUNNING loses lock, with cause 5, and none is in service. -/
def State.coverPorts (s : State) (p : Fin 18) (w : Nat) : State :=
  (List.finRange 16).foldl (fun t q =>
    let d := downPort q
    if p.val < q.val ∧ q.val < p.val + w ∧ (t.lanes.ports[d]).width ≠ 0 then
      (if (t.lanes.ports[d]).state = .running then t.lockGone d ⟨q.val, by omega⟩ 5 else t).retirePort d
    else t) s

/-- A lane that does not run 1000BASE-X has nothing of it in LANE.BASEX_STATUS (R266). -/
def State.noBasex (s : State) (p : Fin 18) : State :=
  if p.val < 16 then s else { s with lanes := { s.lanes with basex := vput s.lanes.basex (basexIdx p) ⟨false, false, false, 0⟩ } }

/-- Step 1 of Table 11.5 for one port (R252, R256, R263): the settings take effect, every lane loads its L0 entry, state LOCKING. Without REFCLK128 no lane leaves
OFF, and without REFCLK125 a 1000BASE-X lane stays in LOCKING; both are posted. -/
def State.startOne (s : State) (p : Fin 18) : State :=
  if !s.on (portDomain p) then s else
  let s := s.latchTransport p
  if s.basexPort p then
    let s1 := (s.modBringup p (fun _ => { Bringup.reset with state := .locking, width := 1, table := s.lanes.eqTable })).bump (pLaneCntBringup (portLane p))
    let s2 := (s1.loadEq p 5)
    let s3 : State := { s2 with lanes := { s2.lanes with basex := vput s2.lanes.basex (basexIdx p) ⟨false, false, false, 0⟩ } }
    if s.lanes.refclk125 then s3 else s3.post (laneSource (portLane p)) 0x0C 2
  else
    let w := s.portWidth p
    if w = 0 ∨ !s.lanesFree p (portLane p) 1 then s.retirePort p
    else if !s.lanes.refclk128 then
      (((s.noBasex p).coverPorts p w).modBringup p (fun b => { b with state := .off, width := w, stage := .none })).post (laneSource (portLane p)) 0x0C 1
    else
      let s1 := ((s.noBasex p).coverPorts p w).modBringup p (fun _ =>
        { Bringup.reset with state := .locking, width := w, offer := s.offerOf p w, table := s.lanes.eqTable })
      let s2 := (s1.myLanes p).foldl (fun t l => t.bump (pLaneCntBringup l.val)) s1
      (s2.modLanes p (fun x => { x with capSets := 0, capSeen := 0, ackCount := 0, verdictPass := none, skew := 0, inverted := false, sent := [] })).loadEq p 0

/-- A port runs its bring-up from step 1 (R256). Ports of its group that come into service with the settings it takes, on lanes that no port holds, begin
theirs (log entry 81). -/
def State.startBringup (s : State) (p : Fin 18) : State :=
  let s1 := s.startOne p
  if 16 ≤ p.val then s1 else
  (List.finRange 16).foldl (fun t q =>
    let d := downPort q
    if q.val / 4 = p.val / 4 ∧ (t.lanes.ports[d]).width = 0 ∧ t.portWidth d ≠ 0 ∧ t.lanesFree d q.val (t.portWidth d) then t.startOne d else t) s1

/-- Verification of a rung begins (R258): every lane sends its START set. -/
def State.beginVerify (s : State) (p : Fin 18) : State :=
  let s1 := s.modBringup p (fun x => { x with stage := .start, ownPass := none })
  (s1.myLanes p).foldl (fun t l => t.modLane l (fun x => { x with
    seeded := false, pass := none, sent := [(.start, s1.ownSet p l .start (s1.lanes.ports[p]).rung)] })) s1

/-- A port with no work takes the state LANE.LOWPOWER gives it (R260): IDLE or SLEEP, at L0; with the value 0 it is in LOCKING, at step 1 where it was in another
state. -/
def State.lowPower (s : State) (p : Fin 18) : State :=
  let idle (st : LaneState) := s.modBringup p (fun b => { b with state := st, stage := .none, rung := 0, wokenByRetry := false })
  match s.rd (pLaneLowpower (portLane p)) with
  | 1 => idle .idle
  | 2 => idle .sleep
  | _ => if (s.lanes.ports[p]).state = .locking then s.modBringup p (fun b => { b with wokenByRetry := false }) else s.startBringup p

/-- A port leaves IDLE or SLEEP (R261): WAKE with its cause, and step 1. -/
def State.wakePort (s : State) (p : Fin 18) (cause : Nat) : State :=
  if (s.lanes.ports[p]).state = .idle ∨ (s.lanes.ports[p]).state = .sleep then (s.post (laneSource (portLane p)) 0x08 cause).startBringup p
  else s

/-- A port in RUNNING loses lock on a lane (R259): reported to the courier (R237), posted, ledgered, counted, and back to step 1. -/
def State.loseLock (s : State) (p : Fin 18) (lane : Fin 21) (cause : Nat) : State := (s.lockGone p lane cause).startBringup p

/-- A rung fails (R258): posted, ledgered, counted; the port falls back one rung for a resume check, or waits to restart when L0 has failed. -/
def State.rungFail (s : State) (p : Fin 18) (cause errors : Nat) : State :=
  let b := s.lanes.ports[p]
  let s1 := s.postLedger (laneSource (portLane p)) 0x04 (b.rung + 16 * cause + 256 * min errors 255)
  let s2 := (s1.myLanes p).foldl (fun t l => t.bump (pLaneCntRungFail l.val)) s1
  let s3 := s2.modLanes p (fun x => { x with verdictPass := none, pass := none, ackCount := 0 })
  if b.rung = 0 then s3.modBringup p (fun x => { x with stage := .waitRetry, ownPass := none })
  else
    (s3.modBringup p (fun x => { x with rung := b.rung - 1, resume := true, ownPass := none, stage := .relock })).loadEq p (b.rung - 1)

/-- Whether a rung has passed (R258): its own PASS, and PASS from the partner on every lane. -/
def State.rungPassed (s : State) (p : Fin 18) : Bool :=
  (s.lanes.ports[p]).ownPass = some true && (s.myLanes p).all (fun l => (s.lanes.lanes[l]).verdictPass == some true)

/-- A rung has passed and its VERDICT period is over (R256, R258): the next rung below the target, or the final commas. -/
def State.rungUp (s : State) (p : Fin 18) : State :=
  let b := s.lanes.ports[p]
  let s1 := s.modLanes p (fun x => { x with ackCount := 0 })
  if b.resume ∨ b.target ≤ b.rung then s1.modBringup p (fun x => { x with stage := .finalCommas, resume := false })
  else s1.modBringup p (fun x => { x with stage := .stepping, ownPass := none })

/-- A port switches to a rung and relocks (R256); the parent sends 16 GO sets first. -/
def State.switchRung (s : State) (p : Fin 18) (rung : Nat) : State :=
  let s1 := (s.myLanes p).foldl (fun t l => t.modLane l (fun x => { x with
    ackCount := 0, verdictPass := none, pass := none
    sent := if p.val < 16 then List.replicate 16 (.go, s.ownSet p l .go rung) else [] })) s
  (s1.modBringup p (fun b => { b with rung := rung, stage := .relock, ownPass := none })).loadEq p rung

/-- A skew of more than 16 symbols (R257): posted, and step 1. -/
def State.deskewFail (s : State) (p : Fin 18) (skew : Nat) : State :=
  (s.post (laneSource (portLane p)) 0x05 (min skew 0xFFFF)).startBringup p

/-- The 1000BASE-X link of a lane goes down (R264, R86). -/
def State.basexDown (s : State) (d : Fin 2) (why : Nat) : State :=
  let b := s.lanes.basex[d]
  let s1 : State := { s with lanes := { s.lanes with basex := vput s.lanes.basex d { b with linkUp := false, anComplete := false, sync := b.sync && decide (why = 2) } } }
  let s2 := if b.linkUp then s1.post (laneSource (16 + 4 * d.val)) 0x0A why else s1
  s2.loseDomain d

/-- A 1000BASE-X lane loses synchronisation, which acts as loss of lock (R259, R264): the link goes down, and the loss is posted, ledgered and counted. -/
def State.loseSync (s : State) (p : Fin 18) (lane : Fin 21) (cause : Nat) : State :=
  (((s.basexDown (basexIdx p) 1).postLedger (laneSource lane.val) 0x02 cause).bump (pLaneCntLockLost lane.val)).startBringup p

/-- A bring-up asked for by LANE.RETRAIN (R252, R261): a port in RUNNING or BASEX loses lock with cause 5, one in IDLE or SLEEP wakes with cause 3. -/
def State.retrainPort (s : State) (p : Fin 18) : State :=
  match (s.lanes.ports[p]).state, idx? 21 (portLane p) with
  | .running, some l => s.loseLock p l 5
  | .basex, some l => s.loseSync p l 5
  | .idle, _ | .sleep, _ => s.wakePort p 3
  | _, _ => s.startBringup p

/-- PORT.P_ENABLE goes to 1 (R261): admission is allowed, and the port wakes; a child whose lanes are up asks for admission. -/
def State.enablePort (s : State) (p : Fin 18) : State :=
  let s1 := (s.wr (pPortPEnable p.val) 1).modPort p (fun x => { x with state := if x.state = .disabled then .down else x.state })
  let s2 := s1.wakePort p 3
  if p.val < 16 ∨ !s2.lanesUp p ∨ s2.linked p then s2 else s2.askAdmission p

/-- PORT.P_ENABLE goes to 0 (R237, R260): the partner is declared absent with CLOSE COMMAND, and the port has no work: at once, or, where it
holds lock, when it has sent the CLOSE (R238). -/
def State.disablePort (s : State) (p : Fin 18) : State :=
  let s1 := (s.wr (pPortPEnable p.val) 0).declareAbsent p 5 6
  let s2 := s1.modPort p (fun x => { x with
    state := .disabled, tx := if s.linked p then x.tx else [], askedAt := none, refusedAt := none, grantAt := none, renewAt := none })
  let closing := s2.lanesUp p && !(s2.ports[p]).tx.isEmpty
  if s2.on (portDomain p) ∧ s2.inService p ∧ (s2.lanes.ports[p]).state ≠ .off ∧ !closing then s2.lowPower p else s2

/-- What the switching-on of a lane domain does to a port (R256): its courier state begins anew and bring-up starts. LANE.BASEX_CNT_DISCARD, which lanes 16 and 20
share, clears with the domain of either unless the other runs 1000BASE-X (log entry 81). -/
def State.portPowerOn (s : State) (p : Fin 18) : State :=
  let st : PortState := if s.rd (pPortPEnable p.val) = 1 then .down else .disabled
  let other := s.lanes.ports[if p = 16 then (17 : Fin 18) else 16]
  let s1 := if 16 ≤ p.val ∧ other.state ≠ .basex then s.wr pLaneBasexCntDiscard 0 else s
  ((s1.setPort p { Port.reset with state := st }).modBringup p (fun _ => Bringup.reset)).startBringup p

/-- LANE.BASEX_STATUS of a 1000BASE-X lane (Table 11.12). -/
def BaseX.status (b : BaseX) (lane20 : Bool) : Nat :=
  let g := b.partner.toNat
  bit b.sync + 2 * bit b.anComplete + 4 * (g / 32 % 2) + 8 * bit b.linkUp + 16 * (g / 128 % 4) + 64 * (g / 4096 % 4) + 256 * (g / 32768 % 2) +
    0x10000 * bit lane20

/-- A lane's power domain (Table 11.1). -/
def laneDomain (l : Nat) : Nat := if l < 16 then 24 + l / 4 else if l < 20 then 22 else 23

/-- A lane's state as LANE.STATE reads it: UNUSED where it belongs to no port (R251, R263). -/
def State.laneState (s : State) (l : Fin 21) : LaneState :=
  match s.portOfLane l with
  | some p => (s.lanes.ports[p]).state
  | none => if s.on (laneDomain l.val) then .unused else .off

/-! ### What a lane sends (R251, R255, R256, R258, R260) -/

/-- What a lane sends: electrical idle, K28.5 alone, a training ordered set over and over, the PRBS-31 pattern, the columns of its port, or the PCS of 1000BASE-X, which
negotiates with its base page. -/
inductive LaneOut where
  | silent | commas | set (k : SetKind) (t : TrainSet) | pattern | columns | pcs (page : Half)
  deriving DecidableEq, Repr

/-- The base page that clause 37 auto-negotiation sends (Table 11.9), in the bits of IEEE 802.3: full duplex [5] 1; half duplex [6], pause [8:7], remote fault [13:12] and
next page [15] 0. -/
def basePage : Half := 0x0020

/-- What a lane sends now (Tables 11.5 and 11.6); the START and GO sets that go out once stand in the lane. -/
def State.laneOut (s : State) (l : Fin 21) : LaneOut :=
  match s.portOfLane l with
  | none => .silent
  | some p =>
    let b := s.lanes.ports[p]
    match b.state with
    | .off | .idle | .sleep | .unused => .silent
    | .locking => if s.basexPort p then .pcs basePage else .commas
    | .caps => .set .cap (s.ownSet p l .cap b.offer)
    | .running => .columns
    | .basex => .pcs basePage
    | .training => match b.stage with
      | .start | .prbs => .pattern
      | .verdict => .set .verdict (s.ownSet p l .verdict b.rung)
      | .stepping => if p.val < 16 then .set .step (s.ownSet p l .step (b.rung + 1)) else .commas
      | .acking => .set .ack (s.ownSet p l .ack (b.rung + 1))
      | _ => .commas

end Sys2Proof.Machine
end

