-- ==== Sys2Proof/Machine/Lanes.lean ====
section
/-! DEFINITION. The commands of the serial lanes (spec/11). -/

namespace Sys2Proof.Machine

open Sys2Proof

/-- SIGNAL_DETECT_CHANGE (R256): a lane's signal detector asserts or deasserts; while the port is in LOCKING a loss breaks the qualification. -/
def execSignalDetectChange (lane : Fin 21) (present : Bool) (s : State) : Out :=
  .next (let s1 := s.modLane lane (fun x => { x with signal := present })
    match s.portOfLane lane with
    | some p => if !present ∧ (s.lanes.ports[p]).state = .locking then s1.modBringup p (fun b => { b with stage := .none }) else s1
    | none => s1)

/-- SIGNAL_QUALIFIED (R256): step 2; signal has been present for 4.0 ms on every lane and comma search begins. -/
def execSignalQualified (p : Fin 18) (s : State) : Out :=
  .next (let b := s.lanes.ports[p]
    if b.state = .locking ∧ b.stage = .none ∧ (s.myLanes p).all (fun l => (s.lanes.lanes[l]).signal) then
      s.modBringup p (fun x => { x with stage := .search, wokenByRetry := false })
    else s)

/-- The comma-alignment offsets that the receivers of a port's lanes, the lowest first, record at a lock (R84, R254). -/
def State.recordCommas (s : State) (p : Fin 18) (commas : List Nat) : State :=
  (s.myLanes p).foldl (fun t l => t.modLane l (fun x => { x with comma := (commas[l.val - portLane p]?).getD 0 })) s

/-- The receivers of a port's lanes that find inverted commas invert their pairs and set INVERTED (R256, step 2). -/
def State.invert (s : State) (p : Fin 18) (pairs : BitVec 4) : State :=
  (s.myLanes p).foldl (fun t l => t.modLane l (fun x => { x with inverted := x.inverted || pairs.getLsbD (l.val - portLane p) })) s

/-- LANE_LOCK (R256, R260, R263): step 3; every lane is locked, inverted pairs are corrected and the port enters CAPS. With PORT.P_ENABLE at 0 the
port has no work. A 1000BASE-X lane enters BASEX with its synchronisation. -/
def execLaneLock (p : Fin 18) (lock : LaneLock) (s : State) : Out :=
  .next (let b := s.lanes.ports[p]
    let s := if b.state = .locking ∧ b.stage = .search then (s.recordCommas p lock.commas).invert p lock.inverted else s
    if b.state ≠ .locking ∨ b.stage ≠ .search then s
    else if s.basexPort p then
      if s.lanes.refclk125 then
        let s1 := s.modBringup p (fun x => { x with state := .basex, stage := .none })
        { s1 with lanes := { s1.lanes with basex := vput s1.lanes.basex (basexIdx p) ⟨true, false, false, 0⟩, basexLast := portLane p } }
      else s
    else if s.rd (pPortPEnable p.val) ≠ 1 then s.lowPower p
    else
      let s1 := s.modBringup p (fun x => { x with state := .caps, stage := .none, partnerOffer := 4, mismatch := false, noWork := false })
      (s1.myLanes p).foldl (fun t l => t.modLane l (fun x => { x with capSets := 0, capSeen := 0 })) s1)

/-- LOCK_TIMEOUT (R256, R260): 10 ms pass in LOCKING without lock; posted, and the port has no work. The pairs that step 2 found inverted stay so. -/
def execLockTimeout (n : NoLock) (s : State) : Out :=
  .next (let b := s.lanes.ports[n.port]
    if b.state = .locking ∧ !s.basexPort n.port then
      let s1 := if b.stage = .search then s.invert n.port n.inverted else s
      ((s1.post (laneSource (portLane n.port)) 0x03 0).modBringup n.port (fun b => { b with noWork := true })).lowPower n.port
    else s)

/-- The cause of CAP_MISMATCH (R257): 1 width, 2 lane order, 3 same END. -/
def capMismatch (p : Fin 18) (lane : Fin 4) (w : Nat) (t : TrainSet) : Option Nat :=
  if t.width.toNat ≠ w then some 1
  else if t.laneIndex.toNat ≠ lane.val then some 2
  else if t.fromChild = decide (16 ≤ p.val) then some 3
  else none

/-- CAP_SET (R255–R257): a CAP set arrives on a lane of a port in CAPS; after 3 with SEEN on every lane the target rung is agreed. -/
def execCapSet (p : Fin 18) (lane : Fin 4) (t : TrainSet) (skew : Nat) (s : State) : Out :=
  .next (let b := s.lanes.ports[p]
    match idx? 21 (portLane p + lane.val) with
    | none => s
    | some l =>
      if b.state ≠ .caps ∨ b.mismatch ∨ !t.ok ∨ b.width ≤ lane.val then s
      else match capMismatch p lane b.width t with
        | some c => (s.post (laneSource (portLane p)) 0x06 c).modBringup p (fun x => { x with mismatch := true })
        | none =>
          if 16 < skew then s.deskewFail p skew
          else
            let s1 := (s.modLane l (fun x => { x with capSets := x.capSets + 1, capSeen := x.capSeen + bit t.seen, skew := skew })).modBringup p
              (fun x => { x with partnerOffer := Nat.min x.partnerOffer t.rung.toNat })
            if (s1.myLanes p).all (fun k => 3 ≤ (s1.lanes.lanes[k]).capSeen) then
              (s1.modBringup p (fun x => { x with state := .training, rung := 0, target := Nat.min x.offer x.partnerOffer, resume := false })).beginVerify p
            else s1)

/-- CAP_MISMATCH_RETRY (R257): LANE.RETRY ms after a mismatch the port tries CAPS again. -/
def execCapMismatchRetry (p : Fin 18) (s : State) : Out :=
  .next (let b := s.lanes.ports[p]
    if b.state = .caps ∧ b.mismatch then
      (s.modLanes p (fun x => { x with capSets := 0, capSeen := 0 })).modBringup p (fun x => { x with mismatch := false, partnerOffer := 4 })
    else s)

/-- CAPS_TIMEOUT (R256): 1 ms passes in CAPS without agreement and the port restarts. -/
def execCapsTimeout (p : Fin 18) (s : State) : Out :=
  .next (let b := s.lanes.ports[p]
    if b.state = .caps ∧ !b.mismatch then s.startBringup p else s)

/-- STEP_SET (R256): a child receives STEP for the next rung and answers ACK. -/
def execStepSet (p : Fin 18) (lane : Fin 4) (t : TrainSet) (s : State) : Out :=
  .next (let b := s.lanes.ports[p]
    if 16 ≤ p.val ∧ b.state = .training ∧ b.stage = .stepping ∧ t.ok ∧ lane.val < b.width ∧ t.rung.toNat = b.rung + 1 then
      s.modBringup p (fun x => { x with stage := .acking })
    else s)

/-- ACK_SET (R256): the parent has 3 ACK sets on every lane, sends GO and switches to the next rung. -/
def execAckSet (p : Fin 18) (lane : Fin 4) (t : TrainSet) (s : State) : Out :=
  .next (let b := s.lanes.ports[p]
    match idx? 21 (portLane p + lane.val) with
    | none => s
    | some l =>
      if p.val < 16 ∧ b.state = .training ∧ b.stage = .stepping ∧ t.ok ∧ lane.val < b.width ∧ t.rung.toNat = b.rung + 1 then
        let s1 := s.modLane l (fun x => { x with ackCount := x.ackCount + 1 })
        if (s1.myLanes p).all (fun k => 3 ≤ (s1.lanes.lanes[k]).ackCount) then s1.switchRung p (b.rung + 1) else s1
      else s)

/-- GO_SET (R256): the child switches to the next rung after its first GO and relocks. -/
def execGoSet (p : Fin 18) (lane : Fin 4) (t : TrainSet) (s : State) : Out :=
  .next (let b := s.lanes.ports[p]
    if 16 ≤ p.val ∧ b.state = .training ∧ (b.stage = .acking ∨ b.stage = .stepping) ∧ t.ok ∧ lane.val < b.width ∧ t.rung.toNat = b.rung + 1 then
      s.switchRung p (b.rung + 1)
    else s)

/-- RELOCK_COMPLETE (R256): the lanes hold lock at the new rung and its verification begins. -/
def execRelockComplete (r : Relock) (s : State) : Out :=
  .next (let b := s.lanes.ports[r.port]
    if b.state = .training ∧ b.stage = .relock then (s.recordCommas r.port r.commas).beginVerify r.port else s)

/-- RELOCK_TIMEOUT (R256, R258): a relock not complete within 1 ms fails the rung. -/
def execRelockTimeout (p : Fin 18) (s : State) : Out :=
  .next (let b := s.lanes.ports[p]
    if b.state = .training ∧ b.stage = .relock then s.rungFail p 1 0 else s)

/-- START_SET (R257, R258): the receiver seeds its checker; more than 16 symbols of skew restart the port. -/
def execStartSet (p : Fin 18) (lane : Fin 4) (t : TrainSet) (skew : Nat) (s : State) : Out :=
  .next (let b := s.lanes.ports[p]
    match idx? 21 (portLane p + lane.val) with
    | none => s
    | some l =>
      if b.state = .training ∧ (b.stage = .start ∨ b.stage = .prbs) ∧ t.ok ∧ lane.val < b.width ∧ t.rung.toNat = b.rung then
        if 16 < skew then s.deskewFail p skew
        else (s.modLane l (fun x => { x with skew := skew, errors := 0, partnerErrors := 0, verdictPass := none, seeded := true })).modBringup p
          (fun x => { x with stage := .prbs })
      else s)

/-- PRBS_END (R258): the pattern ends; the errors counted on each lane, whose checker a START set has seeded, decide its own PASS, and VERDICT
sets with both are sent. -/
def execPrbsEnd (p : Fin 18) (errors : List Nat) (s : State) : Out :=
  .next (let b := s.lanes.ports[p]
    if b.state = .training ∧ (b.stage = .start ∨ b.stage = .prbs) then
      let s1 := (s.myLanes p).foldl (fun t l =>
        let n := (errors[l.val - portLane p]?).getD 0
        t.modLane l (fun x => { x with errors := BitVec.ofNat 16 (min n 0xFFFF), pass := some (x.seeded && decide (n ≤ s.rd pLanePrbsMax)) })) s
      s1.modBringup p (fun x => { x with stage := .verdict, ownPass := some ((s1.myLanes p).all (fun l => (s1.lanes.lanes[l]).pass == some true)) })
    else s)

/-- VERDICT_SET (R258): the partner's count and PASS of a lane; without PASS the rung fails. -/
def execVerdictSet (p : Fin 18) (lane : Fin 4) (t : TrainSet) (s : State) : Out :=
  .next (let b := s.lanes.ports[p]
    match idx? 21 (portLane p + lane.val) with
    | none => s
    | some l =>
      if b.state = .training ∧ (b.stage = .prbs ∨ b.stage = .verdict ∨ b.stage = .verdictLate) ∧ t.ok ∧ lane.val < b.width ∧ t.rung.toNat = b.rung then
        let s1 := s.modLane l (fun x => { x with partnerErrors := t.errors, verdictPass := some t.pass })
        if !t.pass then s1.rungFail p 2 t.errors.toNat
        else if b.stage = .verdictLate ∧ s1.rungPassed p then s1.rungUp p
        else s1
      else s)

/-- VERDICT_PERIOD_END (R256, R258): the 64 µs of VERDICT sets end; a passed rung leads on, and an end without its own PASS falls back. -/
def execVerdictPeriodEnd (p : Fin 18) (s : State) : Out :=
  .next (let b := s.lanes.ports[p]
    if b.state = .training ∧ b.stage = .verdict then
      if s.rungPassed p then s.rungUp p
      else if b.ownPass = some false then
        s.rungFail p 2 ((s.myLanes p).foldl (fun a l => Nat.max a (s.lanes.lanes[l]).errors.toNat) 0)
      else s.modBringup p (fun x => { x with stage := .verdictLate })
    else s)

/-- VERDICT_TIMEOUT (R258): no valid VERDICT within 1 ms of the end of the own PRBS fails the rung. -/
def execVerdictTimeout (p : Fin 18) (s : State) : Out :=
  .next (let b := s.lanes.ports[p]
    if b.state = .training ∧ (b.stage = .verdict ∨ b.stage = .verdictLate) ∧ !s.rungPassed p then s.rungFail p 3 0 else s)

/-- BRINGUP_RETRY (R258): LANE.RETRY ms after L0 failed the port restarts. -/
def execBringupRetry (p : Fin 18) (s : State) : Out :=
  .next (let b := s.lanes.ports[p]
    if b.state = .training ∧ b.stage = .waitRetry then s.startBringup p else s)

/-- PORT_RUNNING (R234, R256): the final commas are sent; the port enters RUNNING, UP is posted and ledgered, and a child sends REQUEST. -/
def execPortRunning (p : Fin 18) (s : State) : Out :=
  .next (let b := s.lanes.ports[p]
    if b.state = .training ∧ b.stage = .finalCommas then
      let s1 := (s.modBringup p (fun x => { x with state := .running, stage := .none })).postLedger (laneSource (portLane p)) 0x01 (b.rung + 16 * b.width)
      (s1.reachStage 5).askAdmission p
    else s)

/-- LOCK_LOST (R259, R264): a running lane meets one of the four causes; loss of synchronisation on a 1000BASE-X lane acts as loss of lock. -/
def execLockLost (lane : Fin 21) (cause : Fin 4) (s : State) : Out :=
  .next (match s.portOfLane lane with
    | none => s
    | some p =>
      match (s.lanes.ports[p]).state with
      | .running => s.loseLock p lane (cause.val + 1)
      | .basex => s.loseSync p lane (cause.val + 1)
      | _ => s)

/-- WAKE (R261): a port in IDLE or SLEEP sees signal and wakes with cause 1. -/
def execWake (p : Fin 18) (s : State) : Out :=
  .next (if (s.myLanes p).any (fun l => (s.lanes.lanes[l]).signal) then s.wakePort p 1 else s)

/-- LOWPOWER_RETRY (R261): LANE.RETRY ms pass in IDLE or SLEEP and the port wakes with cause 2. -/
def execLowpowerRetry (p : Fin 18) (s : State) : Out :=
  .next (if (s.lanes.ports[p]).state = .idle ∨ (s.lanes.ports[p]).state = .sleep then
      (s.wakePort p 2).modBringup p (fun b => { b with wokenByRetry := b.state == .locking })
    else s)

/-- WAKE_NO_SIGNAL (R261): a port woken by its retry finds no signal within 10 ms and returns to its low-power state. -/
def execWakeNoSignal (p : Fin 18) (s : State) : Out :=
  .next (let b := s.lanes.ports[p]
    if b.state = .locking ∧ b.wokenByRetry ∧ !(s.myLanes p).any (fun l => (s.lanes.lanes[l]).signal) then s.lowPower p else s)

/-- AN_COMPLETE (R264): auto-negotiation completes; the link comes up if the partner advertises full duplex, else AN_FAIL with its base page. A
renewed negotiation on a link that is up takes it down first. -/
def execAnComplete (d : Fin 2) (page : Half) (s : State) : Out :=
  .next (let p : Fin 18 := if d = 0 then 16 else 17
    if (s.lanes.ports[p]).state ≠ .basex then s else
    let s1 := if (s.lanes.basex[d]).linkUp then s.basexDown d 2 else s
    let full := page.getLsbD 5
    let s2 : State := { s1 with lanes := { s1.lanes with
      basex := vput s1.lanes.basex d { sync := (s1.lanes.basex[d]).sync, anComplete := true, linkUp := full, partner := page }
      basexLast := portLane p } }
    if full then s2.post (laneSource (portLane p)) 0x09 0 else s2.post (laneSource (portLane p)) 0x0B page.toNat)

end Sys2Proof.Machine
end

