-- ==== Sys2Proof/Machine/FdOps.lean ====
section
/-! DEFINITION. The shared operations on the front desk (spec/13): mailboxes, replies, the event queue, registers and maintenance. -/

namespace Sys2Proof.Machine

open Sys2Proof

/-- The state with the front desk changed. -/
def State.modFd (s : State) (f : FrontDesk → FrontDesk) : State := { s with fd := f s.fd }

/-- A mailbox takes a state (R297). -/
def State.setMb (s : State) (mb : Fin 8) (x : MbState) : State := s.modFd (fun f => { f with mb := vput f.mb mb x })

/-- Bytes of a mailbox from an offset on (Table 13.3). -/
def State.mbBytes (s : State) (mb : Fin 8) (off n : Nat) : List Byte := s.fd.mbMem.bytes (512 * mb.val + off) n

/-- Bytes written into a mailbox from an offset on; every other byte keeps its content (R298). -/
def State.writeMb (s : State) (mb : Fin 8) (off : Nat) (bs : List Byte) : State :=
  s.modFd (fun f => { f with mbMem := f.mbMem.putBytes (512 * mb.val + off) bs })

/-- The 12 header bytes ahead of the check value. -/
def mbHead (command tag length status flags : Nat) : List Byte :=
  natLe 2 command ++ natLe 2 tag ++ natLe 4 length ++ natLe 2 status ++ natLe 2 flags

/-- A mailbox block (Table 13.3): header, CRC-32C and payload padded with 0 to a multiple of 4. -/
def mbBlock (command tag status flags : Nat) (payload : List Byte) : List Byte :=
  let h := mbHead command tag payload.length status flags
  h ++ natLe 4 (crc32c (h ++ payload)).toNat ++ pad4 payload

/-- The port on which a mailbox's commands arrive (R298). -/
def mbPort (mb : Fin 8) : Fin 18 := if mb.val < 4 then 16 else 17

/-- The bits of FD_MB_DONE and FD_MB_ERR that the device sets in the running tick (R12). -/
def State.setNow (s : State) (done : Byte) (err : Half) : Fresh :=
  if s.on 30 then { s.fresh with done := s.fresh.done ||| done, err := s.fresh.err ||| err } else s.fresh

/-- Bits of FD_MB_ERR are set. -/
def State.mbError (s : State) (bits : Half) : State :=
  { s.modFd (fun f => { f with mbErr := f.mbErr ||| bits }) with fresh := s.setNow 0 bits }

/-- Aelko completes the request of a mailbox (R296–R298): the reply is written over the request. Mailboxes 5–7 become DONE and set
FD_MB_DONE; a reply of mailboxes 0–4 leaves as a CTRL frame on the port its command arrived on, and the mailbox becomes FREE. -/
def State.reply (s : State) (mb : Fin 8) (command tag : Half) (status : Status) (flags : Nat) (payload : List Byte) : State :=
  let block := mbBlock command.toNat tag.toNat status.code (1 + flags) payload
  let s1 := s.writeMb mb 0 block
  if 5 ≤ mb.val then
    { ((s1.setMb mb .done).modFd (fun f => { f with mbDone := f.mbDone ||| (1#8 <<< mb.val) })) with fresh := s.setNow (1#8 <<< mb.val) 0 }
  else
    let f : CtrlFrame :=
      { up := true, bcast := false, mailbox := BitVec.ofNat 3 mb.val, hops := 0, route := 0,
        source := BitVec.ofNat 16 (s.rd pDevNumber), array := BitVec.ofNat 4 (s.rd pDevArray), block := block }
    let s2 := s1.setMb mb .free
    if s2.linked (mbPort mb) then s2.enqueue (mbPort mb) (.ctrl f) else s2

/-- The state with the management cores changed. -/
def State.modKeeper (s : State) (f : Keeper → Keeper) : State := { s with keeper := f s.keeper }

/-- A command completes: its reply is written over the request (R297, R298). -/
def State.finish (s : State) (mb : Fin 8) (f : InFlight) (st : Status) (flags : Nat) (payload : List Byte) : State :=
  (s.modKeeper (fun k => { k with inFlight := vput k.inFlight mb none })).reply mb f.code f.tag st flags payload

/-- The state with a mailbox's transfer replaced. -/
def State.setTransfer (s : State) (mb : Fin 8) (t : Option Transfer) : State :=
  s.modKeeper (fun k => { k with transfers := vput k.transfers mb t })

/-- A transfer ends. -/
def State.endTransfer (s : State) (mb : Fin 8) : State := s.setTransfer mb none

/-- A CTRL frame's block is delivered into its mailbox and posts it, or is dropped with OVERRUN (R298). -/
def State.deliver (s : State) (mb : Fin 8) (block : Block) : State :=
  if s.fd.mb[mb] = .free then ((s.writeMb mb 0 (pad4 block)).setMb mb .posted).raiseSignal s.aelkoIsland
  else (s.mbError (1#16 <<< (8 + mb.val))).post 505 2 mb.val

/-! ### SPI and JTAG (R297, R301, R302) -/

/-- Whether an origin reaches the front desk: SPI, and JTAG on an unsealed part (R294, R301, R302); not while AON is in reset. -/
def State.fdOpen (s : State) (o : Origin) : Bool :=
  !s.power.poreset && (o == .spi || (o == .jtag && !s.fd.isSealed))

/-- The mailboxes an origin may write and ring: 5–6 for SPI, 7 for JTAG (R297). -/
def mbAllowed (o : Origin) (mb : Nat) : Bool := (o == .spi && (mb = 5 || mb = 6)) || (o == .jtag && mb = 7)

/-- One word written to mailbox memory (R297): ignored without a flag on a mailbox the origin may not write; rejected with a flag
while the mailbox is POSTED or BUSY. -/
def State.mbWordWrite (s : State) (o : Origin) (mb : Fin 8) (off : Nat) (value : Word) : State :=
  if !mbAllowed o mb.val then s
  else if s.fd.mb[mb] = .posted ∨ s.fd.mb[mb] = .busy then s.mbError (1#16 <<< mb.val)
  else s.writeMb mb off (natLe 4 value.toNat)

/-- One doorbell (R297). -/
def State.ring (s : State) (o : Origin) (mb : Fin 8) : State :=
  if !mbAllowed o mb.val then s
  else match s.fd.mb[mb] with
    | .posted | .busy => s.mbError (1#16 <<< (8 + mb.val))
    | .free | .done => ((s.setMb mb .posted).modFd (fun f => { f with mbDone := f.mbDone &&& ~~~ (1#8 <<< mb.val) })).raiseSignal s.aelkoIsland

/-- A write to FD_DOORBELL: every bit written 1 rings its mailbox. -/
def State.doorbells (s : State) (o : Origin) (value : Word) : State :=
  (List.finRange 8).foldl (fun t mb => if value.getLsbD mb.val then t.ring o mb else t) s

/-- A write to FD_MB_DONE (W1C): the mailbox of each bit cleared becomes FREE (Table 13.5); a bit that the device has set in the same tick stays set (R12). -/
def State.clearDone (s : State) (value : Word) : State :=
  (List.finRange 8).foldl (fun t mb =>
    if value.getLsbD mb.val && t.fd.mbDone.getLsbD mb.val && !s.fresh.done.getLsbD mb.val then
      (if t.fd.mb[mb] = .done then t.setMb mb .free else t).modFd (fun f => { f with mbDone := f.mbDone &&& ~~~ (1#8 <<< mb.val) })
    else t) s

/-! ### The event queue (R305, R306) -/

/-- A record with its LOSS bit set. -/
def withLoss (r : DWord) : DWord := r ||| (1#64 <<< 33)

/-- The place of FD_EVQ_LOST, which is no parameter, among the counters of the running tick. -/
def evqLostKey : Nat := 2 ^ 32

/-- A record enters the local queue of 1,024 (R305). -/
def State.enterLocal (s : State) (r : DWord) : State :=
  if s.fd.events.length < 1024 then s.modFd (fun f => { f with events := f.events ++ [r] })
  else
    { s.modFd (fun f => { f with evqLost := min (f.evqLost + 1) 0xFFFFFFFF
                                 events := (match f.events.tail with
                                   | e :: es => withLoss e :: es
                                   | [] => []) ++ [r] }) with fresh := s.counted evqLostKey s.fd.evqLost 1 }

/-- A record enters the upstream buffer of 64 (R305). -/
def State.enterUpstream (s : State) (r : DWord) : State :=
  if s.fd.upstream.length < 64 then
    s.modFd (fun f => { f with upstream := f.upstream ++ [r], upstreamAt := if f.upstream = [] then s.time.clock else f.upstreamAt })
  else (s.modFd (fun f => { f with upstream := f.upstream.tail ++ [r] })).bumpPostCount pEvqCntUpLost 507 2

/-- Whether a source is masked (EVQ.MASK). -/
def State.masked (s : State) (src : Nat) : Bool := (s.rd (pEvqMask (src / 32))).testBit (src % 32)

/-- The source served next: the first at or after the pointer with a record, wrapping (R305). -/
def State.nextSource (s : State) : Option Nat :=
  let ks := s.fd.sources.map (·.1)
  match (ks.filter (fun k => s.fd.sourceNext ≤ k)).min? with
  | some k => some k
  | none => ks.min?

/-- The front desk takes one record from the buffers (R305). -/
def State.takeRecord (s : State) : State :=
  match s.nextSource with
  | none => s
  | some k =>
    match s.fd.sources.find? (fun r => r.1 = k) with
    | none => s
    | some (_, r) =>
      let s1 := s.modFd (fun f => { f with sources := f.sources.eraseP (fun x => x.1 = k), sourceNext := (k + 1) % 512 })
      if s.masked k then s1
      else
        let s2 := s1.enterLocal r
        if s.rd pEvqUp = 1 then s2.enterUpstream r else s2

/-- A read of FD_EVQ_LO (R306): the oldest record leaves the queue and its high word is kept. -/
def State.readEvent (s : State) : Nat × State :=
  match s.fd.events with
  | r :: rs => (r.toNat % 2 ^ 32, s.modFd (fun f => { f with events := rs, evqHi := (r >>> 32).setWidth 32 }))
  | [] => (0, s.modFd (fun f => { f with evqHi := 0 }))

/-- A write of 1 to FD_EVQ_CTRL.FLUSH (R306): the queue empties, FLUSHED is posted, and the flush enters the ledger. -/
def State.flushEvents (s : State) (o : Origin) (command tag : Nat) : State :=
  let n := s.fd.events.length
  ((s.modFd (fun f => { f with events := [], evqHi := 0 })).post 507 1 n).ledgerLater
    (s.entry o.code 10 command 0x60 n 1 tag)

/-! ### Registers (Table 13.6) -/

/-- Whether Aelko's core is the spare (Table 15.3). -/
def State.onSpare (s : State) : Bool := s.keeper.spare == .spareActive || s.keeper.spare == .pairCycled

/-- FD_STATUS. SPARE is set once Aelko is ready there (Table 15.2, step 8). -/
def State.fdStatus (s : State) : Nat :=
  bit s.fd.aelkoReady + 2 * bit (s.fd.aelkoReady && s.onSpare) + 4 * bit s.fd.isSealed + 8 * bit s.fd.strap +
    2 ^ 4 * bit (s.fd.maint[0]).isSome + 2 ^ 5 * bit (s.fd.maint[1]).isSome + 2 ^ 6 * bit s.power.pwrgood + 2 ^ 7 * bit s.alarm +
    2 ^ 8 * s.time.servo.code + 2 ^ 12 * s.acq.state.code + 2 ^ 14 * bit (s.therm.state == .throttle || s.therm.state == .critical) +
    2 ^ 16 * s.fd.stage

/-- FD_ATTN. -/
def State.fdAttn (s : State) : Nat :=
  bit (s.fd.events != []) + 2 * bit (s.fd.evqLost != 0) + s.fd.mbDone.toNat / 32 * 32

/-- ATTN_N is low while FD_ATTN and FD_ATTN_EN have a set bit in common. -/
def State.attnLow (s : State) : Bool := (BitVec.ofNat 8 s.fdAttn &&& s.fd.attnEn) != 0

/-- A read of a front-desk register (Table 13.6, R303): its value, and what the read does. An address not listed reads 0. The incarnation reads its reset value
until stage 2 has found it in MRAM, and FD_LEDGER_HEAD until Aelko first runs and takes its head; FD_EVQ_LOST follows R12. -/
def State.fdRead (s : State) (a : Nat) : Nat × State :=
  match a with
  | 0x00 => (0x4C479128, s)
  | 0x04 => (0xB1 + 0x10000 * s.fd.release.toNat, s)
  | 0x08 => (s.rd pDevNumber + 0x10000 * s.rd pDevArray + 0x100000 * s.rd pDevRoot + 0x1000000 * (if s.fd.stage = 0 then 0 else s.mram.incarnation.toNat), s)
  | 0x0C => (s.fd.uid.toNat % 2 ^ 32, s)
  | 0x10 => (s.fd.uid.toNat / 2 ^ 32, s)
  | 0x20 => (s.fdStatus, s)
  | 0x28 => (s.now.toNat % 2 ^ 32, s.modFd (fun f => { f with nowHi := (s.now >>> 32).setWidth 32 }))
  | 0x2C => (s.fd.nowHi.toNat, s)
  | 0x34 => ((List.finRange 8).foldl (fun n mb => n + (s.fd.mb[mb]).code * 4 ^ mb.val) 0, s)
  | 0x38 => (s.fd.mbDone.toNat, s)
  | 0x3C => (s.fd.mbErr.toNat, s)
  | 0x40 => (s.fdAttn, s)
  | 0x44 => (s.fd.attnEn.toNat, s)
  | 0x50 => s.readEvent
  | 0x54 => (s.fd.evqHi.toNat, s)
  | 0x58 => (s.fd.events.length, s)
  | 0x5C =>
    let (before, new) := s.freshOf evqLostKey s.fd.evqLost
    (before, { s.modFd (fun f => { f with evqLost := new }) with fresh := s.readFresh evqLostKey new })
  | 0x64 => (if s.fd.release = 0 then 0 else s.mram.ledgerHead.toNat, s)
  | a => if 0x80 ≤ a ∧ a < 0xC0 ∧ a % 4 = 0 then (s.rd (pEvqMask ((a - 0x80) / 4)), s) else (0, s)

/-- A write of a front-desk register with an origin (R301, R303): read-only and unlisted registers and reserved bits ignore it. -/
def State.fdWrite (s : State) (o : Origin) (a : Nat) (value : Word) (command tag : Nat) : State :=
  match a with
  | 0x30 => s.doorbells o value
  | 0x38 => s.clearDone value
  | 0x3C => s.modFd (fun f => { f with mbErr := f.mbErr &&& (s.fresh.err ||| ~~~ (value.setWidth 16)) })
  | 0x44 => s.modFd (fun f => { f with attnEn := value.setWidth 8 })
  | 0x60 => if value.getLsbD 0 then s.flushEvents o command tag else s
  | _ => s

/-- What a read of an SPI address would return, without what the read does: registers, and mailbox memory above them (R301). -/
def State.fdPeek (s : State) (a : Nat) : Nat :=
  if a < 0x1000 then (s.fdRead a).1
  else if a < 0x2000 then s.fd.mbMem.getLe (a - 0x1000) 4 else 0

/-- A word read at a front-desk address (R301): address bits [1:0] are ignored, the mailboxes lie at 0x1000–0x1FFF, and the addresses above read 0. -/
def State.fdLoadWord (s : State) (addr : Nat) : Word × State :=
  let a := addr / 4 * 4
  (BitVec.ofNat 32 (s.fdPeek a), if a < 0x1000 then (s.fdRead a).2 else s)

/-- A word written at a front-desk address with an origin (R301): address bits [1:0] are ignored, and the addresses above the mailboxes ignore it. -/
def State.fdStoreWord (s : State) (o : Origin) (addr : Nat) (value : Word) : State :=
  let a := addr / 4 * 4
  if a < 0x1000 then s.fdWrite o a value 0 0
  else if a < 0x2000 then
    match idx? 8 ((a - 0x1000) / 0x200) with
    | some mb => s.mbWordWrite o mb ((a - 0x1000) % 0x200) value
    | none => s
  else s

/-! ### Maintenance (R293) -/

/-- The place of an origin among those that can hold maintenance. -/
def maintIdx (jtag : Bool) : Fin 2 := if jtag then 1 else 0

/-- Maintenance of an origin starts or is replaced. -/
def State.setMaint (s : State) (jtag : Bool) (m : Option Maint) : State :=
  s.modFd (fun f => { f with maint := vput f.maint (maintIdx jtag) m })

/-- The seconds an origin's maintenance was granted for, as the ledger gives them: 0xFFFF_FFFF until revoked or by the strap, 0 for none. -/
def Maint.ledgerSeconds (m : Option Maint) : Nat :=
  match m with
  | none => 0
  | some x => if x.strap ∨ x.ends.isNone then 0xFFFFFFFF else x.seconds

/-- Whether an origin may issue commands other than read commands (R292, R293). -/
def State.mayWrite (s : State) (o : Origin) : Bool :=
  match o with
  | .parent | .spareLane | .aelko | .hardware => true
  | .spi => (s.fd.maint[0]).isSome
  | .jtag => (s.fd.maint[1]).isSome
  | .enginePort => true

/-- Whether an origin may issue host-only commands (R292): 2 and 3. -/
def hostOrigin (o : Origin) : Bool := o == .parent || o == .spareLane

/-- A command refused for privilege (R292): ledgered as kind DENIED, counted, and DENIED posted at the first; short of hold-up energy for its entry it
completes DEFERRED and nothing changes (R309). -/
def State.denied (s : State) (o : Origin) (command object tag : Nat) : Status × State :=
  match s.commitNow (s.entry o.code 13 command object o.code Status.denied.code tag) with
  | (true, s1) => (.denied, s1.bumpPost pLedgerCntDenied 506 3 o.code)
  | (false, s1) => (.deferred, s1)

end Sys2Proof.Machine
end

