-- ==== Sys2Proof/Machine/Codec.lean ====
section
/-! DEFINITION. The codecs of event data (spec/09): the delta pre-coder and its inverse, the DEFLATE coder of a unit, and the DEFLATE decoder of a
decompressor. Pure functions on words and bytes. -/

namespace Sys2Proof.Machine

open Sys2Proof

/-! ### The delta pre-coder (R200–R202) -/

/-- The bytes of stream words, as stored. -/
def wordsBytes (ws : List DWord) : List Byte := ws.flatMap (fun w => natLe 8 w.toNat)

/-- The record of one word, and the reference after it (R201). -/
def precodeWord (q : Nat) (w : DWord) : List Byte × Nat :=
  let n := w.toNat
  let ty := n % 4
  if ty = 2 then (natLe 8 n, field n 29 20 * 2 ^ 30)
  else if ty = 3 then (natLe 8 n, q)
  else
    let x := field n 55 26 * 1024 + field n 25 16
    let d := (x + 2 ^ 40 - q) % 2 ^ 40
    let pile := field n 2 2
    let cit := field n 59 56
    let tot := field n 15 4
    if ty = 0 ∧ field n 3 3 = 0 ∧ d < 2 ^ 21 then (natLe 5 (pile * 4 + cit * 8 + tot * 2 ^ 7 + d * 2 ^ 19), x)
    else (natLe 8 (1 + pile * 4 + field n 3 3 * 8 + ty * 16 + cit * 2 ^ 5 + tot * 2 ^ 9 + d * 2 ^ 21), x)

/-- The pre-coded records of stream words (R201). -/
def precode : Nat → List DWord → List Byte
  | _, [] => []
  | q, w :: ws =>
    let (bs, q1) := precodeWord q w
    bs ++ precode q1 ws

/-- How pre-coded bytes end: whole, inside a record, or at an invalid one (R202). -/
inductive PrecodeEnd where
  | whole | short | invalid
  deriving DecidableEq, Repr

/-- The words that pre-coded bytes restore to, up to the first record that is invalid or not whole, and how they end (R202). `tile` is absent ahead of the first
milestone word; the first argument bounds the number of records. -/
def unprecode : Nat → Option Nat → Nat → List Byte → List DWord × PrecodeEnd
  | 0, _, _, bs => ([], if bs = [] then .whole else .short)
  | _, _, _, [] => ([], .whole)
  | fuel + 1, tile, q, b :: bs =>
    let size := if b.toNat % 4 = 0 then 5 else 8
    let rec_ := (b :: bs).take size
    let rest := (b :: bs).drop size
    let n := leNat rec_
    if rec_.length < size then ([], .short)
    else match b.toNat % 4 with
      | 2 =>
        if 15 < field n 8 4 then ([], .invalid)
        else
          let (ws, ok) := unprecode fuel (some (field n 8 4)) (field n 29 20 * 2 ^ 30) rest
          (BitVec.ofNat 64 n :: ws, ok)
      | 3 =>
        let (ws, ok) := unprecode fuel tile q rest
        (BitVec.ofNat 64 n :: ws, ok)
      | k =>
        match tile with
        | none => ([], .invalid)
        | some t =>
          let delta := if k = 0 then field n 39 19 else field n 60 21
          let x := (q + delta) % 2 ^ 40
          let cit := if k = 0 then field n 6 3 else field n 8 5
          let tot := if k = 0 then field n 18 7 else field n 20 9
          let long := if k = 0 then 0 else field n 3 3
          let edge := if k = 0 then 0 else field n 4 4
          if k = 1 ∧ field n 63 61 ≠ 0 then ([], .invalid)
          else
            let w := (t * 16 + cit) * 2 ^ 56 + x / 1024 * 2 ^ 26 + x % 1024 * 2 ^ 16 + tot * 16 + long * 8 + field n 2 2 * 4 + edge
            let (ws, ok) := unprecode fuel tile x rest
            (BitVec.ofNat 64 w :: ws, ok)

/-! ### The DEFLATE coder (R203–R205) -/

/-- A literal byte, or a match of a length at a distance. -/
inductive Token where
  | lit (b : Byte)
  | ref (len dist : Nat)
  deriving DecidableEq, Repr

/-- The length of the common prefix of two byte lists, at most `n`. -/
def commonLen : Nat → List Byte → List Byte → Nat
  | n + 1, a :: as, b :: bs => if a = b then commonLen n as bs + 1 else 0
  | _, _, _ => 0

/-- The positions a list passes over in `n` bytes, most recent first, ahead of those before it. -/
def passOver : Nat → List Byte → List (List Byte) → List (List Byte)
  | n + 1, b :: bs, hist => passOver n bs ((b :: bs) :: hist)
  | _, _, hist => hist

/-- The tokens of a stream (R205): the longest match of at least 3 bytes among the most recent `depth` positions that begin with the same 3 bytes,
the first found among equals; otherwise a literal. `hist` holds the earlier suffixes, most recent first. -/
def tokens (depth : Nat) : Nat → List (List Byte) → List Byte → List Token
  | 0, _, _ => []
  | _, _, [] => []
  | fuel + 1, hist, b :: bs =>
    let cur := b :: bs
    let cands := (((hist.take 8192).zipIdx).filter (fun p => 3 ≤ commonLen 3 p.1 cur)).take depth
    let best := cands.foldl (fun (a : Nat × Nat) p => let l := commonLen 258 p.1 cur; if a.1 < l then (l, p.2 + 1) else a) (0, 0)
    if 3 ≤ best.1 then .ref best.1 best.2 :: tokens depth fuel (passOver best.1 cur hist) (cur.drop best.1)
    else .lit b :: tokens depth fuel (cur :: hist) bs

/-- Base and extra bits of the length codes 257–285 (RFC 1951). -/
def lengthTable : List (Nat × Nat) :=
  [(3, 0), (4, 0), (5, 0), (6, 0), (7, 0), (8, 0), (9, 0), (10, 0), (11, 1), (13, 1), (15, 1), (17, 1), (19, 2), (23, 2), (27, 2), (31, 2)] ++
  [(35, 3), (43, 3), (51, 3), (59, 3), (67, 4), (83, 4), (99, 4), (115, 4), (131, 5), (163, 5), (195, 5), (227, 5), (258, 0)]

/-- Base and extra bits of the distance codes 0–29 (RFC 1951). -/
def distTable : List (Nat × Nat) :=
  [(1, 0), (2, 0), (3, 0), (4, 0), (5, 1), (7, 1), (9, 2), (13, 2), (17, 3), (25, 3), (33, 4), (49, 4), (65, 5), (97, 5), (129, 6)] ++
  [(193, 6), (257, 7), (385, 7), (513, 8), (769, 8), (1025, 9), (1537, 9), (2049, 10), (3073, 10), (4097, 11), (6145, 11), (8193, 12)] ++
  [(12289, 12), (16385, 13), (24577, 13)]

/-- The code of a value in a table: the last entry whose base is at or below it. -/
def tableCode (t : List (Nat × Nat)) (x : Nat) : Nat := (t.filter (fun p => p.1 ≤ x)).length - 1

/-- The `n` low bits of a number, least significant first. -/
def bitsLsb : Nat → Nat → List Bool
  | 0, _ => []
  | n + 1, x => (x % 2 = 1) :: bitsLsb n (x / 2)

/-- The `n` low bits of a number, most significant first, as Huffman codes are packed. -/
def bitsMsb (n x : Nat) : List Bool := (bitsLsb n x).reverse

/-- The fixed code of a literal/length symbol (RFC 1951). -/
def fixedLit (s : Nat) : List Bool :=
  if s < 144 then bitsMsb 8 (0x30 + s) else if s < 256 then bitsMsb 9 (0x190 + s - 144)
  else if s < 280 then bitsMsb 7 (s - 256) else bitsMsb 8 (0xC0 + s - 280)

/-- A token in the fixed codes. -/
def Token.fixed : Token → List Bool
  | .lit b => fixedLit b.toNat
  | .ref l d =>
    let lc := tableCode lengthTable l
    let dc := tableCode distTable d
    let le := lengthTable[lc]?.getD (0, 0)
    let de := distTable[dc]?.getD (0, 0)
    fixedLit (257 + lc) ++ bitsLsb le.2 (l - le.1) ++ bitsMsb 5 dc ++ bitsLsb de.2 (d - de.1)

/-- Bits packed into bytes, least significant first, the last padded with zeros. -/
def packBits : Nat → List Bool → List Byte
  | 0, _ => []
  | _, [] => []
  | fuel + 1, b :: bs =>
    BitVec.ofNat 8 ((((b :: bs).take 8).zipIdx.filter (fun p => p.1)).foldl (fun a p => a + 2 ^ p.2) 0) :: packBits fuel ((b :: bs).drop 8)

/-- The fixed Huffman block of a stream's tokens. -/
def fixedBlock (ts : List Token) : List Byte :=
  let bits := [true, true, false] ++ ts.flatMap Token.fixed ++ fixedLit 256
  packBits bits.length bits

/-- The stored block of a stream. -/
def storedBlock (stream : List Byte) : List Byte := [1] ++ natLe 2 stream.length ++ natLe 2 (0xFFFF - stream.length) ++ stream

/-- The canonical codes of a list of code lengths: length, code and symbol. -/
def canonical (lens : List Nat) : List (Nat × Nat × Nat) :=
  ((List.range 15).foldl (fun (a : Nat × List (Nat × Nat × Nat)) i =>
    let l := i + 1
    let syms := lens.zipIdx.filter (fun p => p.1 = l)
    let base := 2 * a.1
    (base + syms.length, a.2 ++ syms.zipIdx.map (fun p => (l, base + p.2, p.1.2)))) (0, [])).2

/-- Whether code lengths are neither over-subscribed nor incomplete; a single code of length 1 may stand alone. -/
def lensOk (lens : List Nat) : Bool :=
  let sum := (lens.filter (fun l => l ≠ 0)).foldl (fun a l => a + 2 ^ (15 - l)) 0
  sum = 2 ^ 15 || (lens.filter (fun l => l ≠ 0)) == [1]

/-- The order in which code-length code lengths are sent (RFC 1951). -/
def clOrder : List Nat := [16, 17, 18, 0, 8, 7, 9, 6, 10, 5, 11, 4, 12, 3, 13, 2, 14, 1, 15]

/-- What the header of a dynamic block says (RFC 1951): the lengths of the literal/length codes and of the distance codes, the code-length symbols that spell
both, with the values of their extra bits, and the lengths of the code-length codes. -/
structure HuffPlan where
  lit : List Nat
  dist : List Nat
  syms : List (Nat × Nat)
  cl : List Nat
  deriving DecidableEq, Repr

/-- The code lengths that code-length symbols spell. -/
def expandSyms : List Nat → List (Nat × Nat) → Option (List Nat)
  | acc, [] => some acc
  | acc, (s, x) :: rest =>
    if s < 16 then expandSyms (acc ++ [s]) rest
    else if s = 16 ∧ x < 4 then match acc.getLast? with
      | some l => expandSyms (acc ++ List.replicate (3 + x) l) rest
      | none => none
    else if s = 17 ∧ x < 8 then expandSyms (acc ++ List.replicate (3 + x) 0) rest
    else if s = 18 ∧ x < 128 then expandSyms (acc ++ List.replicate (11 + x) 0) rest
    else none

/-- The literal/length symbol of a token. -/
def Token.litSym : Token → Nat
  | .lit b => b.toNat
  | .ref l _ => 257 + tableCode lengthTable l

/-- The distance symbol of a token, if it has one. -/
def Token.distSym : Token → Option Nat
  | .lit _ => none
  | .ref _ d => some (tableCode distTable d)

/-- Whether a plan is a valid header for a block of these tokens (RFC 1951, R204). -/
def HuffPlan.ok (p : HuffPlan) (ts : List Token) : Bool :=
  decide (257 ≤ p.lit.length ∧ p.lit.length ≤ 286 ∧ 1 ≤ p.dist.length ∧ p.dist.length ≤ 30 ∧ p.cl.length = 19) &&
    (p.lit ++ p.dist).all (fun l => l ≤ 15) && p.cl.all (fun l => l ≤ 7) && lensOk p.lit && (lensOk p.dist || p.dist.all (fun l => l = 0)) && lensOk p.cl &&
    (256 :: ts.map Token.litSym).all (fun s => p.lit[s]?.getD 0 ≠ 0) && (ts.filterMap Token.distSym).all (fun s => p.dist[s]?.getD 0 ≠ 0) &&
    expandSyms [] p.syms == some (p.lit ++ p.dist) && p.syms.all (fun s => p.cl[s.1]?.getD 0 ≠ 0)

/-- A plan that is valid for any tokens: it gives every symbol a code. -/
def flatPlan : HuffPlan :=
  let lit := List.replicate 226 8 ++ List.replicate 60 9
  let dist := List.replicate 2 4 ++ List.replicate 28 5
  ⟨lit, dist, (lit ++ dist).map (fun l => (l, 0)), (List.range 19).map (fun s => if s = 4 ∨ s = 5 ∨ s = 8 ∨ s = 9 then 2 else 0)⟩

/-- The plan of a dynamic block: the unit's own choice, which the spec does not give (log entry 5), as far as it is a valid one. -/
def huffPlan (ts : List Token) : HuffPlan :=
  let c := Config.huffman (ts.map (fun t => match t with
    | .lit b => (b.toNat, 0)
    | .ref l d => (l, d)))
  let p : HuffPlan := ⟨c.1, c.2.1, c.2.2.1, c.2.2.2⟩
  if p.ok ts then p else flatPlan

/-- A symbol in canonical codes. -/
def symBits (codes : List (Nat × Nat × Nat)) (s : Nat) : List Bool :=
  match codes.find? (fun e => e.2.2 = s) with
  | some e => bitsMsb e.1 e.2.1
  | none => []

/-- A token in the codes of a plan. -/
def Token.coded (lit dist : List (Nat × Nat × Nat)) : Token → List Bool
  | .lit b => symBits lit b.toNat
  | .ref l d =>
    let lc := tableCode lengthTable l
    let dc := tableCode distTable d
    let le := lengthTable[lc]?.getD (0, 0)
    let de := distTable[dc]?.getD (0, 0)
    symBits lit (257 + lc) ++ bitsLsb le.2 (l - le.1) ++ symBits dist dc ++ bitsLsb de.2 (d - de.1)

/-- The header of a dynamic block after its three leading bits. -/
def HuffPlan.header (p : HuffPlan) : List Bool :=
  let used := ((clOrder.zipIdx.filter (fun e => p.cl[e.1]?.getD 0 ≠ 0)).map (fun e => e.2 + 1)).foldl Nat.max 4
  let cl := canonical p.cl
  bitsLsb 5 (p.lit.length - 257) ++ bitsLsb 5 (p.dist.length - 1) ++ bitsLsb 4 (used - 4) ++
    (clOrder.take used).flatMap (fun s => bitsLsb 3 (p.cl[s]?.getD 0)) ++
    p.syms.flatMap (fun s => symBits cl s.1 ++ bitsLsb (if s.1 = 16 then 2 else if s.1 = 17 then 3 else if s.1 = 18 then 7 else 0) s.2)

/-- The dynamic Huffman block of a stream's tokens. -/
def dynamicBlock (ts : List Token) : List Byte :=
  let p := huffPlan ts
  let lit := canonical p.lit
  let bits := [true, false, true] ++ p.header ++ ts.flatMap (Token.coded lit (canonical p.dist)) ++ symBits lit 256
  packBits bits.length bits

/-- The block of one stream as CMP.HUFFMAN allows it (R204), and whether it is stored. -/
def codeStream (huffman depth : Nat) (stream : List Byte) : List Byte × Bool :=
  let ts := tokens depth stream.length [] stream
  let f := fixedBlock ts
  let d := dynamicBlock ts
  let best := if huffman = 1 then f else if huffman = 2 then d else if d.length < f.length then d else f
  if stream.length ≤ best.length then (storedBlock stream, true) else (best, false)

/-- Bytes cut into streams of `n` bytes (R203). -/
def cutStreams (n : Nat) : Nat → List Byte → List (List Byte)
  | 0, _ => []
  | _, [] => []
  | fuel + 1, b :: bs => (b :: bs).take n :: cutStreams n fuel ((b :: bs).drop n)

/-- The codec header (Table 9.2). -/
def codecHeader (fallback nounit : Bool) (kib streams raw : Nat) : List Byte :=
  [1] ++ natLe 1 (bit fallback + 2 * bit nounit + 16 * kib) ++ natLe 2 streams ++ natLe 4 raw

/-- The coded streams of a fragment under codec 2 or 3, each with whether it is stored (R203). -/
def codedStreams (codec huffman depth kib : Nat) (ws : List DWord) : List (List Byte × Bool) :=
  let input := if codec = 2 then precode 0 ws else wordsBytes ws
  if codec < 2 then [] else (cutStreams (1024 * kib) input.length input).map (codeStream huffman depth)

/-- What a unit keeps of a coded stream (R207): its block type, its length and its CRC-32C. -/
def streamMark (s : List Byte × Bool) : Nat × Nat × Word := ((s.1.head?.map (fun b => b.toNat / 2 % 4)).getD 0, s.1.length, crc32c s.1)

/-- The payload of a fragment under a codec, with its codec header (R197–R206), and the number of stored blocks in it. -/
def codePayload (codec huffman depth kib : Nat) (fallback nounit : Bool) (ws : List DWord) : List Byte × Nat :=
  let raw := wordsBytes ws
  if ws = [] then ([], 0)
  else match codec with
    | 0 => (codecHeader fallback nounit 0 0 raw.length ++ raw, 0)
    | 1 => (codecHeader false false 0 0 raw.length ++ precode 0 ws, 0)
    | c =>
      let ss := codedStreams c huffman depth kib ws
      (codecHeader false false (kib - 1) ss.length raw.length ++ ss.flatMap (·.1), (ss.filter (·.2)).length)

/-! ### The DEFLATE decoder (R213, R214) -/

/-- What a decoder yields: the output, newest byte first, the bits left, and the error of Table 9.5 met, if any. -/
structure Inflated where
  out : List Byte
  bits : List Bool
  error : Option Nat
  deriving DecidableEq, Repr

/-- A number of `n` bits, least significant first, from the front of the input. -/
def takeBits (n : Nat) (bs : List Bool) : Option (Nat × List Bool) :=
  if bs.length < n then none
  else some (((bs.take n).zipIdx.filter (fun p => p.1)).foldl (fun a p => a + 2 ^ p.2) 0, bs.drop n)

/-- One symbol from the front of the input: `none` when the input ends first; a code that no symbol has yields 999. -/
def takeSym (codes : List (Nat × Nat × Nat)) : Nat → Nat → Nat → List Bool → Option (Nat × List Bool)
  | 0, _, _, bs => some (999, bs)
  | _, _, _, [] => none
  | fuel + 1, len, code, b :: bs =>
    let c := 2 * code + bit b
    match codes.find? (fun e => e.1 = len + 1 ∧ e.2.1 = c) with
    | some e => some (e.2.2, bs)
    | none => takeSym codes fuel (len + 1) c bs

/-- A match copied byte by byte onto the output (newest first), with the limit checked ahead of each. -/
def copyBack (limit : Nat) (dist : Nat) : Nat → List Byte → List Byte × Bool
  | 0, out => (out, true)
  | n + 1, out => if limit ≤ out.length then (out, false) else copyBack limit dist n (out[dist - 1]?.getD 0 :: out)

/-- The symbols of a compressed block. `base` is the output's length where its stream began. -/
def inflateSyms (lit dist : List (Nat × Nat × Nat)) (limit base : Nat) : Nat → List Byte → List Bool → Inflated
  | 0, out, bs => ⟨out, bs, some 6⟩
  | fuel + 1, out, bs =>
    match takeSym lit 15 0 0 bs with
    | none => ⟨out, bs, some 6⟩
    | some (sym, bs1) =>
      if sym < 256 then
        if limit ≤ out.length then ⟨out, bs1, some 7⟩ else inflateSyms lit dist limit base fuel (BitVec.ofNat 8 sym :: out) bs1
      else if sym = 256 then ⟨out, bs1, none⟩
      else if 285 < sym then ⟨out, bs1, some 4⟩
      else
        let le := lengthTable[sym - 257]?.getD (3, 0)
        match takeBits le.2 bs1 with
        | none => ⟨out, bs1, some 6⟩
        | some (lx, bs2) =>
          match takeSym dist 15 0 0 bs2 with
          | none => ⟨out, bs2, some 6⟩
          | some (dsym, bs3) =>
            if 29 < dsym then ⟨out, bs3, some 4⟩
            else
              let de := distTable[dsym]?.getD (1, 0)
              match takeBits de.2 bs3 with
              | none => ⟨out, bs3, some 6⟩
              | some (dx, bs4) =>
                let d := de.1 + dx
                if 8192 < d ∨ out.length < base + d then ⟨out, bs4, some 5⟩
                else
                  match copyBack limit d (le.1 + lx) out with
                  | (out1, true) => inflateSyms lit dist limit base fuel out1 bs4
                  | (out1, false) => ⟨out1, bs4, some 7⟩

/-- The code lengths of a dynamic block's two alphabets, from the code-length symbols. -/
def readLens (codes : List (Nat × Nat × Nat)) (total : Nat) : Nat → List Nat → List Bool → Option (Option (List Nat) × List Bool)
  | 0, _, bs => some (none, bs)
  | fuel + 1, acc, bs =>
    if total < acc.length then some (none, bs)
    else if acc.length = total then some (some acc, bs)
    else match takeSym codes 15 0 0 bs with
      | none => none
      | some (sym, bs1) =>
        if sym < 16 then readLens codes total fuel (acc ++ [sym]) bs1
        else if 18 < sym then some (none, bs1)
        else
          let n := if sym = 16 then 2 else if sym = 17 then 3 else 7
          match takeBits n bs1 with
          | none => none
          | some (x, bs2) =>
            if sym = 16 then
              match acc.getLast? with
              | none => some (none, bs2)
              | some l => readLens codes total fuel (acc ++ List.replicate (3 + x) l) bs2
            else readLens codes total fuel (acc ++ List.replicate ((if sym = 17 then 3 else 11) + x) 0) bs2

/-- The dynamic tables of a block: an error, or the literal and distance codes and the bits left. -/
def readTables (bs : List Bool) : Nat ⊕ (List (Nat × Nat × Nat) × List (Nat × Nat × Nat) × List Bool) :=
  match takeBits 14 bs with
  | none => .inl 6
  | some (h, bs1) =>
    let nl := h % 32 + 257
    let nd := h / 32 % 32 + 1
    let nc := h / 1024 + 4
    match takeBits (3 * nc) bs1 with
    | none => .inl 6
    | some (x, bs2) =>
      let cl := (List.range 19).map (fun s => match clOrder.findIdx? (fun o => o = s) with
        | some i => if i < nc then x / 8 ^ i % 8 else 0
        | none => 0)
      if !lensOk cl then .inl 3
      else match readLens (canonical cl) (nl + nd) 400 [] bs2 with
        | none => .inl 6
        | some (none, _) => .inl 3
        | some (some ls, bs3) =>
          let lits := ls.take nl
          let dists := ls.drop nl
          if !lensOk lits || !(lensOk dists || dists.all (fun l => l = 0)) then .inl 3
          else .inr (canonical lits, canonical dists, bs3)

/-- The fixed tables. -/
def fixedTables : List (Nat × Nat × Nat) × List (Nat × Nat × Nat) :=
  (canonical (List.replicate 144 8 ++ List.replicate 112 9 ++ List.replicate 24 7 ++ List.replicate 8 8), canonical (List.replicate 32 5))

/-- Bits dropped up to a byte boundary of an input that began with a whole number of bytes. -/
def alignByte (bs : List Bool) : List Bool := bs.drop (bs.length % 8)

/-- The bytes that a list of bits spells. -/
def bitBytes (bs : List Bool) : List Byte := packBits bs.length bs

/-- The blocks of one stream up to the one with BFINAL = 1 (R213). -/
def inflateBlocks (limit base : Nat) : Nat → List Byte → List Bool → Inflated
  | 0, out, bs => ⟨out, bs, some 6⟩
  | fuel + 1, out, bs =>
    match takeBits 3 bs with
    | none => ⟨out, bs, some 6⟩
    | some (h, bs1) =>
      let r : Inflated :=
        match h / 2 with
        | 0 =>
          let bs2 := alignByte bs1
          match takeBits 32 bs2 with
          | none => ⟨out, bs2, some 6⟩
          | some (x, bs3) =>
            let n := x % 65536
            if x / 65536 ≠ 65535 - n then ⟨out, bs3, some 2⟩
            else
              let got := bitBytes (bs3.take (8 * n))
              let fit := got.take (limit - out.length)
              if fit.length < got.length then ⟨fit.reverse ++ out, bs3, some 7⟩
              else if got.length < n then ⟨got.reverse ++ out, [], some 6⟩
              else ⟨got.reverse ++ out, bs3.drop (8 * n), none⟩
        | 1 => inflateSyms fixedTables.1 fixedTables.2 limit base bs1.length out bs1
        | 2 =>
          match readTables bs1 with
          | .inl e => ⟨out, bs1, some e⟩
          | .inr (l, d, bs2) => inflateSyms l d limit base bs2.length out bs2
        | _ => ⟨out, bs1, some 1⟩
      match r.error with
      | some _ => r
      | none => if h % 2 = 1 then r else inflateBlocks limit base fuel r.out r.bits

/-- `n` streams, each beginning at a byte boundary (R203). -/
def inflateStreams (limit : Nat) : Nat → List Byte → List Bool → Inflated
  | 0, out, bs => ⟨out, bs, none⟩
  | n + 1, out, bs =>
    let r := inflateBlocks limit out.length (bs.length + 1) out bs
    match r.error with
    | some _ => r
    | none => inflateStreams limit n r.out (alignByte r.bits)

/-- The bits of bytes. -/
def byteBits (bs : List Byte) : List Bool := bs.flatMap (fun b => bitsLsb 8 b.toNat)

/-- What a decompression job writes and the first error of Table 9.5 that it meets (R212–R214): an invalid pre-coded record among the bytes decoded so far is met before what
ends their decoding. A format 1 source does not name its codec: which it
bears is free (log entry 20). -/
def expand (format limit : Nat) (src : List Byte) : List Byte × Option Nat :=
  if format = 0 then
    let r := inflateStreams limit 1 [] (byteBits src)
    (r.out.reverse, r.error.orElse (fun _ => if r.bits ≠ [] then some 8 else none))
  else
    let at_ (o n : Nat) := leNat ((src.drop o).take n)
    let flags := at_ 1 1
    let streams := at_ 2 2
    let raw := at_ 4 4
    let codec := (Config.sourceCodec src).toNat
    if src.length < 8 then ([], some 6)
    else if at_ 0 1 ≠ 1 ∨ 3 < codec ∨ field flags 3 2 ≠ 0 ∨ (codec < 2 ∧ streams ≠ 0) then ([], some 9)
    else
      let body := src.drop 8
      let r : Inflated := if codec < 2 then ⟨body.reverse, [], none⟩ else inflateStreams (2 ^ 32) streams [] (byteBits body)
      let got := r.out.reverse
      let delta := codec == 1 || codec == 2
      let back := unprecode got.length none 0 got
      let out := if delta then wordsBytes back.1 else got
      if limit < out.length then (out.take limit, some 7)
      else if delta ∧ back.2 = .invalid then (out, some 10)
      else
        (out, r.error.orElse (fun _ => if r.bits ≠ [] then some 8 else if (delta && back.2 == .short) || decide (out.length ≠ raw) then some 10 else none))

end Sys2Proof.Machine
end

