-- ==== Sys2Proof/Machine/ThermOps.lean ====
section
/-! DEFINITION. The readings of the thermal sensors as the device uses them (spec/16): the neighbours of a sensor and what stands in for a broken one. -/

namespace Sys2Proof.Machine

open Sys2Proof

/-- Whether a sensor is valid: it has not been declared broken (R362). -/
def State.sensorValid (s : State) (n : Fin 17) : Bool := !(s.therm.sensors[n]).broken

/-- A tile sensor by its place in the ring 0–15. -/
def ringSensor (k : Nat) : Fin 17 := ⟨k % 16, by omega⟩

/-- The nearest valid tile sensor at or beyond a place of the ring, going up or down; at most 16 places are looked at. -/
def State.nearest (s : State) (up : Bool) (skip : Fin 17) : Nat → Nat → Option (Fin 17)
  | _, 0 => none
  | k, n + 1 =>
    let c := ringSensor k
    if s.sensorValid c ∧ c ≠ skip then some c else s.nearest up skip (if up then k + 1 else k + 15) n

/-- The neighbours of a sensor (R362): the nearest valid ones on each side in the ring; of sensor 16, sensors 7 and 8 or the nearest valid beyond each. -/
def State.neighbours (s : State) (n : Fin 17) : Option (Fin 17) × Option (Fin 17) :=
  if n.val < 16 then (s.nearest false n (n.val + 15) 16, s.nearest true n (n.val + 1) 16) else (s.nearest false n 7 16, s.nearest true n 8 16)

/-- The reading of a sensor as it is used, in 1/16 °C: the mean of its neighbours stands in for a broken one (R362). -/
def State.sensorTemp (s : State) (n : Fin 17) : Int :=
  if s.sensorValid n then (s.therm.sensors[n]).reading
  else match s.neighbours n with
    | (some a, some b) => roundDiv ((s.therm.sensors[a]).reading + (s.therm.sensors[b]).reading) 2
    | _ => (s.therm.sensors[n]).reading

/-- The valid sensor with the highest of some quantity, the lowest number first. -/
def State.highest (s : State) (f : Sensor → Int) : Option (Fin 17) :=
  ((List.finRange 17).filter s.sensorValid).foldl (fun best n => match best with
    | none => some n
    | some b => if f s.therm.sensors[b] < f s.therm.sensors[n] then some n else some b) none

/-- T: the highest reading among valid sensors, with its sensor (R363). -/
def State.hottest (s : State) : Int × Fin 17 :=
  match s.highest (fun x => x.reading) with
  | some n => ((s.therm.sensors[n]).reading, n)
  | none => (0, 0)

/-- r: the highest rate among valid sensors, in 1/4096 °C per 256 ms, with its sensor. -/
def State.fastest (s : State) : Int × Fin 17 :=
  match s.highest (fun x => x.rate) with
  | some n => ((s.therm.sensors[n]).rate, n)
  | none => (0, 0)

/-- A rate as THERM.RATE gives it, in 1/16 °C/s: d / 256 / 0.256 s. -/
def rateUnits (d : Int) : Int := roundDiv (d * 1000) 65536

/-- Whether a rate has reached a limit in 1/16 °C/s. -/
def rateReached (d limit : Int) : Bool := limit * 65536 ≤ d * 1000

/-- The target of a TAC current reference's trim (R44) from its coefficients, for a temperature in 1/16 °C. -/
def trimTarget (trim0 t0 tc temp : Int) : Int := trim0 + roundDiv (tc * (temp - t0)) 3200

/-- One step of a trim towards its target (R44): at most one LSB, held within 0–1023. -/
def trimNext (trim target : Int) : Nat := (clamp 0 1023 (if trim < target then trim + 1 else if target < trim then trim - 1 else trim)).toNat

/-- The trim code of the stampers' TAC current reference (R59). -/
def State.stamperTrim (s : State) : Nat := s.ref.trim.getD Config.stamperTac.1

/-- Whether thermal throttling is active (R364). -/
def State.throttled (s : State) : Bool := s.therm.state == .throttle || s.therm.state == .critical

end Sys2Proof.Machine
end

