-- ==== Sys2Proof/Machine/RefOps.lean ====
section
/-! DEFINITION. The shared operations of the reference block (spec/03): stamps, gates, delay units and seconds. -/

namespace Sys2Proof.Machine

open Sys2Proof

/-- The state with the reference block changed. -/
def State.modRef (s : State) (f : RefBlock → RefBlock) : State := { s with ref := f s.ref }

/-- The state with one gate changed. -/
def State.modGate (s : State) (n : Fin 4) (f : Gate → Gate) : State := s.modRef (fun r => { r with gates := vmod r.gates n f })

/-- The state with one delay unit changed. -/
def State.modUnit (s : State) (u : Fin 4) (f : DelayUnit → DelayUnit) : State := s.modRef (fun r => { r with units := vmod r.units u f })

/-- The state with one stamper changed. -/
def State.modStamper (s : State) (n : Fin 5) (f : Stamper → Stamper) : State := s.modRef (fun r => { r with stampers := vmod r.stampers n f })

/-- The event source of a stamper (R73): that of its REFIN, or 453 for PPSIN. -/
def stamperSource (n : Fin 5) : Nat := 453 + (if n.val < 4 then n.val else 0)

/-- A stamper's recalibration ends, and its gate notes it (R60, R63). -/
def State.endStamperCal (s : State) (n : Fin 5) : State :=
  let s1 := s.modStamper n (fun x => { x with calibrating := false })
  match idx? 4 n.val with
  | some k => s1.modGate k (fun g => g.mark 32 s.nowFine)
  | none => s1

/-- A stamper's recalibration is abandoned (R45, R60, R73): the old table stays and CAL_FAIL is posted with 7. -/
def State.abandonStamper (s : State) (n : Fin 5) : State :=
  if (s.ref.stampers[n]).calibrating then (s.endStamperCal n).post (stamperSource n) 5 7 else s

/-- The fine value a stamper gives a raw code (R58). -/
def State.stampFine (s : State) (n : Fin 5) (raw : BitVec 10) : Nat := (codeFine (0x100 + n.val) (s.ref.stampers[n]).table raw.toNat).1

/-- A second in fine steps: 2²⁰ × 10⁶. -/
def secondFine : Int := 1048576000000

/-- A second in ticks (R76). -/
def secondTicks : Nat := 1024000000

/-- The tick of the next second. -/
def State.nextSecond (s : State) : DWord := BitVec.ofNat 64 ((s.now.toNat / secondTicks + 1) * secondTicks)

/-- The first gate boundary after a time in fine steps (R62): the next multiple of REFIN.GATE × 1,024 ticks. A write to REFIN.GATE leaves the boundary of the
gate in progress and sets the length from there on (log entry 75). -/
def State.nextBoundary (s : State) (n : Fin 4) (time : Int) : Int :=
  let g : Int := (max 1 (s.rd (pRefinGate n.val)) * 1024 * 1024 : Nat)
  (time / g + 1) * g

/-- Whether a gate's stamper is being recalibrated. -/
def State.gateCalibrating (s : State) (n : Fin 4) : Bool := (s.ref.stampers[(⟨n.val, by omega⟩ : Fin 5)]).calibrating

/-- The flags of a gate in REFIN.STATUS [5:2] (Table 3.5). -/
def Gate.flags (g : Gate) : Nat := 4 * bit g.overspeed + 8 * bit g.step + 16 * bit g.holdover + 32 * bit g.calibrated

/-- Whether nothing has made a gate invalid so far (R63). -/
def Gate.sound (g : Gate) : Bool := !g.first && !g.noStamp && !g.overspeed && !g.step && !g.calibrated

/-- A new gate begins: its flags stand as the device is now. -/
def State.beginGate (s : State) (n : Fin 4) (g : Gate) : Gate :=
  { g with first := false, noStamp := false, overspeed := false, step := false, holdover := s.inHoldover, calibrated := s.gateCalibrating n, edges := 0 }

/-- The boundary from which the next gate is looked for. -/
def Gate.seekFrom (g : Gate) (b : Int) : Gate := { g with boundary := b, lostTo := b }

/-- A setting is written (R61): the gate in progress and the edge counter are cleared, and the first gate after it is invalid. A closed gate whose result is not
yet in place goes with it (log entry 75). -/
def State.discardGate (s : State) (n : Fin 4) : State :=
  s.modGate n (fun g => ({ s.beginGate n g with opened := none, closing := none, first := true } : Gate).seekFrom (s.nextBoundary n s.nowFine))

/-- The flags of a gate from a boundary on without an edge (R63): STEP, HOLDOVER and CALIBRATING where they have stood in it. -/
def State.lateFlags (s : State) (n : Fin 4) (b : Int) : Nat :=
  let stood (w : Nat) : Bool := (s.ref.gates[n]).late.any (fun x => decide (x.1 = w ∧ b ≤ x.2))
  8 * bit (stood 8) + 16 * bit (s.inHoldover || stood 16) + 32 * bit (s.gateCalibrating n || stood 32)

/-- A gate's result is put in place with its status (R62, R63). -/
def State.publishGate (s : State) (n : Fin 4) (los : Bool) (valid : Bool) (flags : Nat) (f : Gate → Gate) : State :=
  let g := s.ref.gates[n]
  let seq := g.seq + 1
  let s1 := s.modGate n (fun x => { f x with seq := seq, status := BitVec.ofNat 16 (bit valid + 2 * bit los + flags), lost := los })
  if los ∧ !g.lost then s1.post (453 + n.val) 1 seq.toNat
  else if !los ∧ g.lost then s1.post (453 + n.val) 2 seq.toNat
  else s1

/-- The result of a closed gate (R62): frequency, count, span and phase, which holds its low 32 bits (log entry 75). Without a stamp of the closing edge, or with a span that a step has made 0 or less,
the values that the spec does not state are free (log entry 5). -/
def State.gateResult (s : State) (n : Fin 4) (c : ClosedGate) : State :=
  let p := 2 ^ s.rd (pRefinPrescale n.val)
  let count := BitVec.ofNat 48 c.edges
  match c.stamp with
  | some t =>
    let sp := t - c.opened
    let phase := BitVec.ofInt 32 (t - c.boundary)
    if 0 < sp then
      s.publishGate n false c.sound c.flags (fun x => { x with
        closing := none, freq := BitVec.ofNat 64 (p * c.edges * 2 ^ 20 * 1000000 * 2 ^ 24 / sp.toNat), count := count, span := BitVec.ofInt 64 sp, phase := phase })
    else
      (s.publishGate n false false c.flags (fun x => { x with
        closing := none, freq := Config.freeWord s.free, count := count, span := BitVec.ofInt 64 sp, phase := phase })).tickFree
  | none =>
    (s.publishGate n false false c.flags (fun x => { x with
      closing := none, freq := Config.freeWord s.free, count := count, span := Config.freeWord (s.free + 1)
      phase := (Config.freeWord (s.free + 2)).setWidth 32 })).tickFree.tickFree.tickFree

/-- The start source of a delay unit fires at a time in fine steps (R65, R67). -/
def State.dmStart (s : State) (source : Nat) (time : Int) : State :=
  (List.finRange 4).foldl (fun t u =>
    if t.rd (pRefinDmStart u.val) ≠ source then t
    else if (t.ref.units[u]).start.isSome then t.bumpPostCount (pRefinDmCntStartlost u.val) (453 + u.val) 7
    else t.modUnit u (fun x => { x with start := some time, startClock := t.time.clock, stops := [], stepped := false })) s

/-- The stop source that REFIN.DM_STOP names (Table 3.2): 256 + n for REFIN n, n in bits [1:0]; 512 + channel for a hit channel; others as written. -/
def stopSource (v : Nat) : Nat := if v / 256 = 1 then 256 + v % 4 else v

/-- A stop reaches the delay units that take its source (R65): accepted in the window of a running measurement; every other one is ignored and counted. -/
def State.dmStop (s : State) (source : Nat) (time : Int) : State :=
  (List.finRange 4).foldl (fun t u =>
    if stopSource (t.rd (pRefinDmStop u.val)) ≠ source then t
    else match (t.ref.units[u]).start with
      | none => t.bump (pRefinDmCntIgnored u.val)
      | some st =>
        let i := time - st
        if (t.rd (pRefinDmOpen u.val) * 1024 : Nat) ≤ i ∧ i < (t.rd (pRefinDmClose u.val) * 1024 : Nat) then
          t.modUnit u (fun x => { x with stops := x.stops ++ [time] })
        else t.bump (pRefinDmCntIgnored u.val)) s

/-- The accumulation of one interval (R67). A sum of squares beyond 64 bits is a value the spec does not state (log entry 5). -/
def DelayUnit.accumulate (x : DelayUnit) (i : Int) (free : DWord) : DelayUnit :=
  let first := if x.n = 0 then i else x.first
  let d := i - first
  let sum := x.sum + d
  let sq := x.sumsq.toNat + (d * d).toNat
  { x with
    n := x.n + 1, first := first, sum := clamp (-2147483648) 2147483647 sum
    sat := x.sat || decide (sum < -2147483648 ∨ 2147483647 < sum)
    sumsq := if sq < 2 ^ 64 then BitVec.ofNat 64 sq else free, last := i }

/-- The index of the first rising edge of a CLKOUT setting at or after a time in fine steps (R70). -/
def clkNext (m d : Nat) (offset : Int) (sec : DWord) (time : Int) : Int :=
  -((-((time - (sec.toNat : Int) * 1024 - offset) * m)) / (1024 * d : Nat))

/-- A second that a staged setting waits for, after a step: none later than the next second of the new time. -/
def State.stepSecond (s : State) (t : DWord) : DWord := if before s.nextSecond t then s.nextSecond else t

/-- A gate sees a step from the time `old` (R63): the boundary that it waits for is the next one of the new time, or, where its own has passed, lies a gate's length
before that one. -/
def State.gateStep (s : State) (n : Fin 4) (old : Int) : Gate :=
  let g := s.ref.gates[n]
  let next := s.nextBoundary n (s.nowFine - 1)
  let late := (g.late.filter (fun x => g.lostTo ≤ x.2)).map (fun x => (x.1, s.nowFine))
  (({ g with step := true, late := late } : Gate).mark 8 s.nowFine).seekFrom
    (if g.lostTo ≤ old then next - (max 1 (s.rd (pRefinGate n.val)) * 1024 * 1024 : Nat) else next)

/-- A step from the time `old` reaches the reference block (R63, R67, R69, R71): gates and running measurements see it, the boundaries and the edges of CLKOUT are
those of the new time, and CALOUT pulses whose time it skips are missed. A train whose last pulse is skipped ends without TRAIN_DONE (log entry 75). -/
def State.refStep (s : State) (old : Int) : State :=
  let s1 := s.modRef (fun r => { r with
    gates := Vector.ofFn (fun (n : Fin 4) => s.gateStep n old)
    units := r.units.map (fun (u : DelayUnit) => { u with stepped := u.stepped || u.start.isSome })
    clkout := r.clkout.map (fun (c : ClkOut) => { c with
      stagedAt := s.stepSecond c.stagedAt
      edge := match c.applied with
        | some (m, d, o, sec) => clkNext m d o sec s.nowFine
        | none => c.edge })
    pps := { r.pps with staged := r.pps.staged.map (fun p => (p.1, s.stepSecond p.2)) } })
  (List.finRange 4).foldl (fun t n =>
    match (t.ref.calout[n]).train with
    | none => t
    | some tr =>
      let gone := (s.now - tr.tick).toInt * 1024 + s.time.fine.toNat - tr.fine * 8
      let step : Int := tr.period * 1024
      let passed := if gone ≤ 0 then 0 else Nat.min tr.count ((gone + step - 1) / step).toNat
      if tr.next < passed then
        let s2 := t.bumpBy (pRefinCoMissed n.val) (passed - tr.next)
        s2.modRef (fun r => { r with calout := vmod r.calout n (fun o => { o with
          train := if passed < tr.count then some { tr with next := passed } else none }) })
      else t) s1

end Sys2Proof.Machine
end

