-- ==== Sys2Proof/Machine/Stream.lean ====
section
/-! DEFINITION. The tile streams (spec/01, 02, 05, 07): channel states, hit words, the merger, the copies to engines, the reductions of hit words and the
crossing to the rooms. -/

namespace Sys2Proof.Machine

open Sys2Proof

/-- The state with one channel changed. -/
def State.modChan (s : State) (ch : Fin 256) (f : Channel → Channel) : State := s.setChan ch (f s.chans[ch])

/-- The state with one tile changed. -/
def State.modTile (s : State) (t : Fin 16) (f : TileState → TileState) : State := s.setTile t (f s.tiles[t])

/-- The state with one engine changed. -/
def State.modEng (s : State) (e : Fin 128) (f : Engine → Engine) : State := s.setEng e (f s.engines[e])

/-- A channel takes a state (R48); an interval in which it was not RUNNING throughout is noted (R170). -/
def State.chanTo (s : State) (ch : Fin 256) (x : ChanState) : State :=
  let s1 := s.modChan ch (fun c => { c with state := x })
  if x = .running then s1
  else { s1 with red := { s1.red with notRunning := s1.red.notRunning.map (fun m => m ||| (1#256 <<< ch.val)) } }

/-! ### Copies to engines (R111–R113) -/

/-- A copy is placed in an engine's input queue (R113), or discarded for an engine that does not run. One that finds 16 words there waits for the end of the cycle: a POPH
of that cycle frees a place for it, else it is dropped. -/
def State.copyTo (s : State) (e : Fin 128) (w : DWord) : State :=
  let x := s.engines[e]
  match x.state with
  | .stopped | .halted | .trapped => s.bump (pEngCntIdle e.val)
  | _ =>
    if 16 ≤ x.queue.length then s.setEng e { x with late := x.late ++ [⟨w, s.time.clock⟩] }
    else s.setEng e { x with queue := x.queue ++ [⟨w, s.time.clock⟩] }

/-- The copies that found a full queue in the cycle that ends are dropped (R113, R133): counted, D set, and COPY_DROP posted at the first. -/
def State.dropLate (s : State) (e : Fin 128) : State :=
  ((s.engines[e]).late.foldl (fun (t : State) _ =>
    (t.modEng e (fun x => { x with dropped := min (x.dropped + 1) 0xFFFF, flags := x.flags ||| 0x20#7 })).bumpPostCount (pEngCntDropped e.val) (256 + e.val) 3) s).modEng e
    (fun x => { x with late := [] })

/-- The copies of every engine as a cycle of the engine clock ends, at every second tick. -/
def State.endCycle (s : State) : State :=
  if s.time.clock % 2 = 0 ∨ (List.finRange 128).all (fun e => (s.engines[e]).late == []) then s else (List.finRange 128).foldl State.dropLate s

/-- The engines of a tile. -/
def engsOf (t : Fin 16) : List (Fin 128) := (List.finRange 8).map (fun k => ⟨8 * t.val + k.val, by omega⟩)

/-- The copies of a released word (R111, R112): hit words and, with ENG.COPY bit 1, channel control words go to the lowest engine that claims the
channel; milestone and time control words to every engine with a non-zero ENG.CHANMASK and ENG.COPY bit 0. -/
def State.copyWord (s : State) (t : Fin 16) (w : DWord) : State :=
  let ty := w.toNat % 4
  let code := w.toNat / 0x10000 % 1024
  let mask := fun (e : Fin 128) => s.rd (pEngChanmask e.val)
  if ty = 2 ∨ (ty = 3 ∧ 0x100 ≤ code) then
    if ty = 3 ∧ 0x200 ≤ code then s
    else (engsOf t).foldl (fun u e => if mask e ≠ 0 ∧ (s.rd (pEngCopy e.val)).testBit 0 then u.copyTo e w else u) s
  else
    let cit := w.toNat / 2 ^ 56 % 16
    match (engsOf t).find? (fun e => (mask e).testBit cit) with
    | some e => if ty = 3 ∧ !(s.rd (pEngCopy e.val)).testBit 1 then s else s.copyTo e w
    | none => s

/-! ### Reductions of hit words (R170) -/

/-- An accumulator that has seen nothing. -/
def RedAcc.fresh (kind input decim : Nat) : RedAcc :=
  { kind := kind, input := input, decim := decim, count := 0, sum := 0, max := 0, min := 0, unsettled := false, isOpen := false, ovr := false }

/-- An accumulator of the running intervals changed, created where there is none. -/
def State.modAcc (s : State) (kind input decim : Nat) (f : RedAcc → RedAcc) : State :=
  let same := fun (a : RedAcc) => a.kind = kind ∧ a.input = input ∧ a.decim = decim
  let accs := s.red.accs
  let next := (if accs.any same then accs.map (fun a => if same a then f a else a) else accs ++ [f (RedAcc.fresh kind input decim)])
  { s with red := { s.red with accs := next } }

/-- One sample enters an accumulator. -/
def RedAcc.sample (a : RedAcc) (x : Int) : RedAcc :=
  { a with count := a.count + 1, sum := a.sum + x, max := if a.count = 0 then x else Max.max a.max x, min := if a.count = 0 then x else Min.min a.min x }

/-- A hit word is reduced at each decimation (R170); which records leave is a matter of the setting their interval ran under (R173). -/
def State.reduceHit (s : State) (w : DWord) : State :=
  if !s.on 34 then s else
  let x : Int := if w.getLsbD 3 then 4095 else (w.toNat / 16 % 4096 : Nat)
  let ch := w.toNat / 2 ^ 56
  ([0, 1, 2] : List Nat).foldl (fun t d => t.modAcc 0 ch d (fun a => a.sample x)) s

/-- Which decimations end at a milestone (R167, R173). -/
def decimEnds (m : DWord) (d : Nat) : Bool := m.toNat % (2 ^ 20 * 2 ^ (if d = 0 then 0 else if d = 1 then 6 else 10)) = 0

/-- A tile's milestone word has entered its stream: the intervals of its channels that end at it close (R170). -/
def State.closeTileAccs (s : State) (t : Fin 16) (m : DWord) : State :=
  let all := s.acq.state == .disarmed && s.acq.disarmTick == m
  let mine := fun (a : RedAcc) => decide (a.kind = 0 ∧ a.input / 16 = t.val) && (all || decimEnds m a.decim)
  { s with red := { s.red with accs := s.red.accs.filter (fun a => !mine a), ready := s.red.ready ++ s.red.accs.filter (fun a => mine a) } }

/-! ### Crossing to memory (R181, R272) -/

/-- The head word of a tile's output queue goes to its place in the chain and to its channel's hit write queue; none if either holds it. -/
def State.crossWord (s : State) (t : Fin 16) : Option State :=
  let k : Fin 17 := ⟨t.val, by omega⟩
  match (s.tiles[t]).output, s.place k with
  | w :: ws, some (r, i) =>
    let word := s.roomAddr r / 8 + i
    let m := channelOf word
    let c := s.mem.channels[m]
    if 256 ≤ c.hits.length then none
    else
      let ch := s.porter.chains[k]
      let s1 := (s.modTile t (fun x => { x with output := ws })).setChain k { ch with assigned := ch.assigned + 1 }
      some ((s1.setChannel m { c with hits := c.hits ++ [⟨t.val, r, i, w, s.wordTick w⟩] }).peak (pMemCHitPeak m.val) (c.hits.length + 1))
  | _, _ => none

/-- HIT_OVERRUN is posted at the first hold of the crossing since MEM.C_HIT_PEAK was last read (R272). -/
def State.noteOverrun (s : State) (t : Fin 16) : State :=
  match (s.tiles[t]).output, s.place ⟨t.val, by omega⟩ with
  | _ :: _, some (r, i) =>
    let m := channelOf (s.roomAddr r / 8 + i)
    let c := s.mem.channels[m]
    if 256 ≤ c.hits.length ∧ !c.overrun then (s.setChannel m { c with overrun := true }).post (400 + m.val) 9 c.hits.length else s
  | _, _ => s

/-- As many words as the chain and the hit write queues take cross. -/
def State.cross (s : State) (t : Fin 16) : Nat → State
  | 0 => s
  | n + 1 =>
    match s.crossWord t with
    | some s1 => s1.cross t n
    | none => s.noteOverrun t

/-- A chain closes at D (R182): its open room, and the next room where words have been assigned to it, become HISTORY with the words that reach them; it asks for no
further room. -/
def State.closeChain (s : State) (k : Fin 17) : State :=
  let c := s.porter.chains[k]
  let s1 := (s.closeOpen k false).modPorter (fun p => { p with requests := p.requests.filter (fun q => q.1 ≠ k.val) })
  match c.next with
  | some n => if 32 < c.assigned then (s1.setChain k { c with rooms := c.rooms ++ [n], next := none, assigned := c.assigned - 32 }).closeOpen k false else s1
  | none => s1

/-- A tile whose last word of an armed period has crossed closes its chain (R151, R182). -/
def State.closeAtD (s : State) (t : Fin 16) : State :=
  let x := s.tiles[t]
  if s.acq.state = .disarmed ∧ x.disarmWord = none ∧ x.held = [] ∧ x.output = [] then s.closeChain ⟨t.val, by omega⟩ else s

/-- A tile's output queue drains. -/
def State.drainOutput (s : State) (t : Fin 16) : State := (s.cross t ((s.tiles[t]).output.length)).closeAtD t

/-- Every tile's output queue drains, in tile order, and the monitor queue. -/
def State.drainAll (s : State) : State := ((List.finRange 16).foldl State.drainOutput s).drainMon

/-! ### The merger (R19, R80) -/

/-- Whether a key (rank among the steps, time) lies before another in a stream. -/
def keyLt (a b : Nat × Int) : Bool := a.1 < b.1 || (a.1 = b.1 && decide (a.2 < b.2))

/-- A word leaves the merger (R19): into the output queue towards its chain, to the engines and, if it is a hit word, to the counters, the
reductions and the delay units. -/
def State.releaseWord (s : State) (t : Fin 16) (h : HeldWord) : State :=
  let key := (h.rank, h.time)
  let s1 := s.modTile t (fun x => { x with
    output := x.output ++ [h.word]
    lastLeft := match x.lastLeft with
      | some l => if keyLt l key then some key else some l
      | none => some key })
  let s2 := s1.copyWord t h.word
  let ty := h.word.toNat % 4
  if ty < 2 then
    let ch := h.word.toNat / 2 ^ 56
    ((s2.bump (pChanCntHits ch)).reduceHit h.word).dmStop (512 + ch) h.time
  else if ty = 2 then s2.closeTileAccs t (BitVec.ofNat 64 (h.word.toNat / 2 ^ 20 * 2 ^ 20))
  else s2

/-- Words in order of their keys; equal keys stay in the order in which they completed. -/
def insertHeld (h : HeldWord) : List HeldWord → List HeldWord
  | [] => [h]
  | x :: xs => if keyLt (x.rank, x.time) (h.rank, h.time) then x :: insertHeld h xs else h :: x :: xs

/-- Held words sorted by key, stably. -/
def sortHeld (hs : List HeldWord) : List HeldWord := hs.foldr insertHeld []

/-- The hold of a word ends (R19): every word held with an earlier key leaves in order, then the word itself. -/
def State.releaseUpTo (s : State) (t : Fin 16) (h : HeldWord) : State :=
  let held := (s.tiles[t]).held.erase h
  let early := fun (x : HeldWord) => keyLt (x.rank, x.time) (h.rank, h.time)
  let s1 := s.modTile t (fun x => { x with held := held.filter (fun y => !early y) })
  ((sortHeld (held.filter early)) ++ [h]).foldl (fun u x => u.releaseWord t x) s1

/-- Whether a held word must wait for hits stamped before a step it stands behind (R80): hits that are closed and still wait in the derandomisers of the tile. A
hit still open then is a late hit of R19 (log entry 76). -/
def State.barred (s : State) (t : Fin 16) (h : HeldWord) : Bool :=
  (List.finRange 16).any (fun c => (s.chans[chanOf t c]).entries.any (fun x => x.status != .openHit && decide (2 * x.lead.epoch < h.rank)))

/-- Every word a tile holds leaves in order. -/
def State.releaseHeld (s : State) (t : Fin 16) : State :=
  let held := (s.tiles[t]).held
  (sortHeld held).foldl (fun u x => u.releaseWord t x) (s.modTile t (fun x => { x with held := [] }))

/-- Whether a word with a later key has left a tile's merger (R19). -/
def State.isLate (s : State) (t : Fin 16) (h : HeldWord) : Bool :=
  match (s.tiles[t]).lastLeft with
  | some l => keyLt (h.rank, h.time) l
  | none => false

/-- A word completes at the merger (R19): it is held, or, when a word with a later key has left, it enters the stream at once.
Whether a merger whose 64 entries are full takes a control, time control or milestone word the spec does not say; it does (log entry 74). -/
def State.completeWord (s : State) (t : Fin 16) (h : HeldWord) : State :=
  if s.isLate t h then (s.releaseWord t h).drainOutput t
  else s.modTile t (fun x => { x with held := x.held ++ [h] })

/-- The words a tile's merger holds and queues; it takes a hit word while they are fewer than 64 (Table 1.5). -/
def State.mergerRoom (s : State) (t : Fin 16) : Bool := (s.tiles[t]).held.length + (s.tiles[t]).output.length < 64

/-- A control word of a channel enters its tile stream while the streams run. -/
def State.emitChan (s : State) (ch : Fin 256) (code arg : Nat) : State :=
  if s.streaming then
    s.completeWord (tileOf ch) ⟨controlWord ch.val (shortTick s.now) code arg, (s.now.toNat : Int) * 1024, 2 * s.time.epoch, s.time.clock⟩
  else s

/-! ### Hit words (R37–R39) -/

/-- The corrected time of an edge in fine steps (R38). -/
def Edge.time (e : Edge) (fine : BitVec 10) (offset : Int) : Int := (e.tick.toNat : Int) * 1024 + e.base.toNat + fine.toNat + offset

/-- ToT and LONG of a hit (R39). A trailing edge before the leading one (a step fell between them) has no stated length; it counts as 0 (log entry 19). -/
def hitTot (lead : Int) (h : HitEntry) : Nat × Bool :=
  match h.status, h.trail, h.trailFine with
  | .normal, some t, some f =>
    let d := (t.time f h.offset - lead).toNat
    if d < 65536 then (d / 16, false) else (Nat.min 4095 (d / 1024), true)
  | .stuck, _, _ => (0xFFF, true)
  | _, _, _ => (0, false)

/-- The hit word of a converted entry (Table 2.5) with its corrected time: both edges take the offset in force at the leading edge (R38). -/
def hitWord (ch : Nat) (h : HitEntry) : DWord × Int :=
  let lead := h.lead.time (h.leadFine.getD 0) h.offset
  let (tot, long) := hitTot lead h
  let ty := match h.status with
    | .cutByBlank | .stuck => 1
    | _ => 0
  let short := (lead / 1024 % 2 ^ 30).toNat
  (BitVec.ofNat 64 (ch * 2 ^ 56 + short * 2 ^ 26 + (lead % 1024).toNat * 2 ^ 16 + tot * 16 + 8 * bit long + 4 * bit h.pileup + ty), lead)

/-- Whether a hit is closed with every cell it uses converted. -/
def HitEntry.ready (h : HitEntry) : Bool :=
  h.status != .openHit && h.leadFine.isSome && (h.status != .normal || h.trailFine.isSome)

/-- A channel's oldest hits whose words are complete are taken by the merger while it has room (R36). -/
def State.offer (s : State) (ch : Fin 256) : Nat → State
  | 0 => s
  | n + 1 =>
    let c := s.chans[ch]
    match c.entries with
    | h :: hs =>
      if h.ready && s.mergerRoom (tileOf ch) then
        let (w, time) := hitWord ch.val h
        ((s.setChan ch { c with entries := hs }).completeWord (tileOf ch) ⟨w, time, 2 * h.lead.epoch, s.time.clock⟩).offer ch n
      else s
    | [] => s

/-! ### Closing hits, blanks and quarantine (R49–R53) -/

/-- The open hit of a channel changed: it is always the newest entry (R36). -/
def Channel.modOpen (c : Channel) (f : HitEntry → HitEntry) : Channel :=
  { c with entries := c.entries.map (fun h => if h.status = .openHit then f h else h) }

/-- Whether a channel has an open hit. -/
def Channel.hasOpen (c : Channel) : Bool := c.entries.any (fun h => h.status == .openHit)

/-- A channel's open hit closes with a status; one with PILEUP is counted (R32). -/
def State.closeHit (s : State) (ch : Fin 256) (st : HitEnd) (pileup : Bool) : State :=
  let c := s.chans[ch]
  if !c.hasOpen then s else
  let marked := c.entries.any (fun h => h.status == .openHit && (h.pileup || pileup))
  let s1 := s.setChan ch { c.modOpen (fun h => { h with status := st, pileup := h.pileup || pileup, trail := if st = .normal then h.trail else none }) with stuckFrom := none }
  let s2 := if marked then s1.bump (pChanCntPileup ch.val) else s1
  s2.offer ch 8

/-- The front end as the written parameters set it. -/
def State.frontOf (s : State) (ch : Fin 256) : FrontEnd :=
  { thresh := s.rd (pChanThresh ch.val), hyst := s.rd (pChanHyst ch.val), mode := s.rd (pChanMode ch.val), polarity := s.rd (pChanPolarity ch.val),
    term := s.rd (pChanTerm ch.val) }

/-- The level of a discriminator (R28, R29) for a differential input of `v` in 1/128 mV: it holds between its switching points. -/
def FrontEnd.level (f : FrontEnd) (v : Int) (was : Bool) : Bool :=
  let u := if f.polarity = 0 then v else -v
  let mid : Int := if f.mode = 2 then 0 else 25 * signed 12 f.thresh
  let half : Int := if f.mode = 2 then 1600 else 32 * f.hyst
  if mid + half < u then true else if u < mid - half then false else was

/-- A setting comes into force: the discriminator's level follows it. An output that goes active this way, inside the blank of that write, is no leading
edge of the input and is not counted as a discarded hit (log entry 74). -/
def State.applyFront (s : State) (ch : Fin 256) : State :=
  s.modChan ch (fun c => { c with front := s.frontOf ch, level := (s.frontOf ch).level c.volts c.level })

/-- A blank begins or is prolonged (R49, R50): BLANKED for 2,048 ticks from now; an open hit is cut, and BLANK_START is emitted while armed. -/
def State.blank (s : State) (ch : Fin 256) (cause : Nat) : State :=
  let c := s.chans[ch]
  let ends := s.time.clock + 2048
  if c.state = .blanked then s.modChan ch (fun x => { x with blank := some { (x.blank.getD ⟨0, false, 0⟩) with ends := ends } })
  else
    let s1 := (s.closeHit ch .cutByBlank false).modChan ch (fun x => { x with
      blind := none, stuckFrom := none, inactiveFrom := none, blank := some ⟨ends, s.streaming, 0⟩ })
    (s1.chanTo ch .blanked).emitChan ch 1 cause

/-- A running blank's BLANK_END is emitted (R49), if its BLANK_START was. -/
def State.endBlankWord (s : State) (ch : Fin 256) : State :=
  match (s.chans[ch]).blank with
  | some b => if b.emitted then s.emitChan ch 2 (Nat.min b.discarded 0xFFF) else s
  | none => s

/-- The channel leaves a blank for WAIT_INACTIVE, or RUNNING if its input is inactive (R50). -/
def State.waitInactive (s : State) (ch : Fin 256) : State :=
  let c := s.chans[ch]
  let s1 := s.modChan ch (fun x => { x with blank := none, blind := none, stuckFrom := if c.level && s.streaming then some s.time.clock else none })
  s1.chanTo ch (if c.level then .waitInactive else .running)

/-- A channel is quarantined (R52). -/
def State.quarantine (s : State) (ch : Fin 256) (cause : Nat) : State :=
  let s1 := s.emitChan ch 3 cause
  let s2 := s1.modChan ch (fun x => { x with blind := none, stuckFrom := none, inactiveFrom := if x.level then none else some s.time.clock })
  (((s2.chanTo ch .quarantined).bump (pChanCntStuck ch.val)).post ch.val 2 cause)

/-- A quarantined channel is readmitted (R51, R53): READMIT, the stored writes applied, and a blank with cause 3. -/
def State.readmit (s : State) (ch : Fin 256) (how : Nat) : State :=
  let s1 := (s.emitChan ch 4 how).post ch.val 3 how
  (s1.applyFront ch).blank ch 3

/-- A calibration run ends (Table 2.8, steps 4 and 5): the stored writes are applied and the final 2,048 ticks of the blank begin; `outcome` is 0 for
CAL_DONE, else the number of the failed check. -/
def State.endCal (s : State) (ch : Fin 256) (outcome : Nat) : State :=
  let s1 := (s.applyFront ch).modChan ch (fun x => { x with
    calStart := none, calOutcome := some outcome, blank := some { (x.blank.getD ⟨0, false, 0⟩) with ends := s.time.clock + 2048 } })
  s1.chanTo ch .blanked

/-- The channel that a tile recalibrates, if any. -/
def State.calibrating (s : State) (t : Fin 16) : Option (Fin 256) :=
  ((List.finRange 16).map (chanOf t)).find? (fun ch => (s.chans[ch]).state == .calibrating)

/-- A recalibration of a channel starts (Table 2.8, step 1). -/
def State.startCal (s : State) (ch : Fin 256) : State :=
  let s1 := (s.closeHit ch .cutByBlank false).modChan ch (fun x => { x with
    blind := none, stuckFrom := none, calWaiting := false, calDue := false, calStart := some s.time.clock
    blank := some { (x.blank.getD ⟨0, s.streaming, 0⟩) with ends := 0 } })
  let s2 := if (s.chans[ch]).state = .blanked then s1 else s1.emitChan ch 1 2
  (s2.chanTo ch .calibrating).modTile (tileOf ch) (fun x => { x with calLast := s.time.clock })

/-- A channel is disabled at once (R49, R51). A calibration's outcome that still waits for the end of its blank is dropped, and the comparator, powered
down, reads inactive until an input beyond its upper switching point is seen (log entry 74). -/
def State.disableChan (s : State) (ch : Fin 256) : State :=
  let c := s.chans[ch]
  let s1 := if s.streaming then s.closeHit ch .cutByBlank false
    else s.modChan ch (fun x => { x with entries := x.entries.filter (fun h => h.status != .openHit) })
  let s2 := if c.state = .blanked ∨ c.state = .calibrating then s1.endBlankWord ch else s1
  let s3 := if c.state = .calibrating then s2.post ch.val 5 7 else s2
  (s3.modChan ch (fun x => { x with
    blank := none, blind := none, stuckFrom := none, inactiveFrom := none, calStart := none, calOutcome := none, calWaiting := false, level := false
    front := s.frontOf ch })).chanTo ch .disabled

/-- What a write of R49 does to a channel beyond being stored (R49, R51): nothing while DISABLED, QUARANTINED or CALIBRATING, else it is applied and blanks. -/
def State.configChan (s : State) (ch : Fin 256) : State :=
  match (s.chans[ch]).state with
  | .disabled | .quarantined | .calibrating => s
  | _ => (s.applyFront ch).blank ch 1

/-- A write of 1 or 2 to CHAN.MODE (R49, R51): stored while QUARANTINED or CALIBRATING, else applied with a blank. -/
def State.enableChan (s : State) (ch : Fin 256) : State :=
  match (s.chans[ch]).state with
  | .quarantined | .calibrating => s
  | _ => (s.applyFront ch).blank ch 1

/-! ### Arming and disarming of channels (R48, R150, R151) -/

/-- What arming does to a channel: WAIT_INACTIVE, or BLANK_START with cause 4 in a running blank; both timers start afresh. -/
def State.armChan (s : State) (ch : Fin 256) : State :=
  match (s.chans[ch]).state with
  | .disabled => s
  | .quarantined => s.modChan ch (fun x => { x with inactiveFrom := if x.level then none else some s.time.clock })
  | .blanked | .calibrating =>
    (s.modChan ch (fun x => { x with blank := x.blank.map (fun b => { b with emitted := true, discarded := 0 }) })).emitChan ch 1 4
  | _ => s.waitInactive ch

/-- What disarming does to a channel: an open hit is discarded, a running blank's BLANK_END is emitted, both timers stop. -/
def State.disarmChan (s : State) (ch : Fin 256) : State :=
  let s1 := s.endBlankWord ch
  s1.modChan ch (fun x => { x with
    entries := x.entries.filter (fun h => h.status != .openHit), blind := none, stuckFrom := none, inactiveFrom := none
    blank := x.blank.map (fun b => { b with emitted := false }) })

/-- Every channel of the powered tiles changed. -/
def State.eachChan (s : State) (f : State → Fin 256 → State) : State :=
  (List.finRange 256).foldl (fun t ch => if t.on (tileOf ch).val then f t ch else t) s

end Sys2Proof.Machine
end

