-- ==== Sys2Proof/Machine/ReadOps.lean ====
section
/-! DEFINITION. The shared operations on readouts (spec/07, 08, 09, 10): what a fragment holds, the reads it needs, its waybill, its way to the courier, and
the booking cache. -/

namespace Sys2Proof.Machine

open Sys2Proof

/-! ### Fragments (R153, R154) -/

/-- The 64-bit tick nearest a reference whose short tick is `t` (R77 with w = 30). -/
def nearTick (ref : DWord) (t : BitVec 30) : DWord := ref + BitVec.ofInt 64 (t - shortTick ref).toInt

/-- Whether a tick lies in the window (R153). -/
def inWindow (start : DWord) (length : Word) (t : DWord) : Bool := atOrBefore start t && before t (start + length.setWidth 64)

/-- Whether a word is the poison marker word (Table 12.6). -/
def isPoison (w : DWord) : Bool := w.toNat % 4 = 3 && field w.toNat 25 16 = 0x201

/-- A tile part as it is built: the tick of the last milestone word passed, the leading milestone word and the words taken so far. -/
structure TilePart where
  ref : DWord
  lead : Option DWord
  out : List DWord
  deriving DecidableEq, Repr

/-- One stream word is offered to a tile part. -/
def TilePart.offer (start : DWord) (length : Word) (p : TilePart) (w : DWord) : TilePart :=
  if w.toNat % 4 = 2 then
    let m : DWord := BitVec.ofNat 64 (w.toNat / 2 ^ 20 * 2 ^ 20)
    if atOrBefore m start then { p with ref := m, lead := some w }
    else if inWindow start length m then { p with ref := m, out := p.out ++ [w] }
    else { p with ref := m }
  else if isPoison w || inWindow start length (nearTick p.ref (w.extractLsb' 26 30)) then { p with out := p.out ++ [w] }
  else p

/-- The last milestone at or before a tick. -/
def milestoneBefore (t : DWord) : DWord := BitVec.ofNat 64 (t.toNat / 2 ^ 20 * 2 ^ 20)

/-- The milestone word that the porter forms for a tile part (R154). -/
def formedWord (start : DWord) (t : Nat) : DWord := BitVec.ofNat 64 ((milestoneBefore start).toNat + t % 32 * 16 + 8 + 2)

/-- A tile's part of a fragment (R154): its leading milestone word, stored or formed, then every word inside the window in stream order. -/
def tilePart (start : DWord) (length : Word) (t : Nat) (ws : List DWord) : List DWord :=
  let p := ws.foldl (TilePart.offer start length) ⟨milestoneBefore start, none, []⟩
  p.lead.getD (formedWord start t) :: p.out

/-- The places of the words of a room that were written before a tick (R155), in index order. -/
def Room.placesBefore (x : Room) (close : DWord) : List Nat :=
  (List.range 32).filter (fun i => x.wroteAt.any (fun e => e.1 = i && before e.2 close))

/-- The rooms whose own words a readout reads, each with the places it reads. -/
def State.ownPlaces (s : State) (src : ReadSource) : List (Nat × List Nat) :=
  match src with
  | .booking slot => match s.booking slot with
    | some b => (b.ranges.flatMap (·.2)).map (fun r => (r, (s.room r).placesBefore b.close))
    | none => []
  | .monitor seq => match s.porter.monitor.find? (fun m => m.seq.toNat = seq) with
    | some m => m.rooms.map (fun r => (r, List.range (s.room r).count))
    | none => []
  | .pass _ => []

/-- The stored records a readout carries whole: port, rooms and bytes, in ascending port order. -/
def State.storedRecords (s : State) (src : ReadSource) : List (Nat × List Nat × Nat) :=
  match src with
  | .booking slot => match s.booking slot with
    | some b => (List.range 16).flatMap (fun p => (b.children.filter (fun c => c.port = p && b.reported.getLsbD p)).map (fun c => (p, c.rooms, c.bytes)))
    | none => []
  | .pass id => match s.porter.pass.find? (fun e => e.id = id) with
    | some e => [(16, e.rooms, e.bytes)]
    | none => []
  | .monitor _ => []

/-- The stream words of a fragment, from the words of its rooms (R154, R174). -/
def State.fragment (s : State) (src : ReadSource) (words : List (Nat × Nat × DWord)) : List DWord :=
  let ofRoom := fun (r : Nat) => (List.range 32).filterMap (fun i => (words.find? (fun w => w.1 = r && w.2.1 = i)).map (fun w => w.2.2))
  match src with
  | .booking slot => match s.booking slot with
    | some b => b.ranges.flatMap (fun q => tilePart b.start b.length q.1 (q.2.flatMap ofRoom))
    | none => []
  | .monitor seq => match s.porter.monitor.find? (fun m => m.seq.toNat = seq) with
    | some m => m.rooms.flatMap ofRoom
    | none => []
  | .pass _ => []

/-- The words of a source's rooms as they stand in memory. -/
def State.memWords (s : State) (src : ReadSource) : List (Nat × Nat × DWord) :=
  (s.ownPlaces src).flatMap (fun q => q.2.map (fun i => (q.1, i, s.mem.word (s.roomAddr q.1 / 8 + i))))

/-- The raw bytes of a source's own fragment. -/
def State.ownBytes (s : State) (src : ReadSource) : Nat := 8 * (s.fragment src (s.memWords src)).length

/-- The bytes of a fragment in the schedule (R191): its raw bytes and its stored records. -/
def State.fragmentBytes (s : State) (src : ReadSource) : Nat :=
  s.ownBytes src + ((s.storedRecords src).map (fun c => c.2.2)).foldl (· + ·) 0

/-! ### Fetches of the booking cache (R189) -/

/-- A booking whose record has failed its check goes (R189): released under R186, or, where its index room is unreadable, with its rooms left pinned. -/
def State.loseBooking (s : State) (slot : Nat) (readable : Bool) : State :=
  let s1 := if readable then s.releaseBooking slot
    else (s.modPorter (fun p => { p with
      bookings := p.bookings.filter (fun x => x.1 ≠ slot), fetches := p.fetches.filter (fun x => x.slot ≠ slot)
      cached := p.cached.filter (fun x => x ≠ slot) })).dropReadouts (fun x => x == .booking slot)
  (s1.lookBacklog).lookDead

/-- The last word of a fetch has been read (R189): a record that passes its CRC-32C enters the cache; of one that fails a waybill PARTIAL and CORRUPT goes up, and
its index room is read. -/
def State.fetchEnd (s : State) (x : Fetch) : State :=
  let bytes := (List.range 8).flatMap (fun i => natLe 8 (((x.words.find? (fun w => w.1 = i)).map (fun w => w.2.toNat)).getD 0))
  let s1 := s.modPorter (fun p => { p with fetches := p.fetches.filter (fun y => y.slot ≠ x.slot) })
  match s.booking x.slot with
  | none => s1
  | some b =>
    if x.walking then s1.loseBooking x.slot (!x.bad)
    else if !x.bad ∧ withCrc32c (bytes.take 60) = bytes then s1.touch x.slot
    else
      let s2 := ((s1.bump pRoomsCntBookingCrc).post 502 1 x.slot).sendHead (s1.headAlone b.event b.start b.length true)
      match b.index with
      | none => s2.loseBooking x.slot true
      | some r =>
        let s3 := s2.modPorter (fun p => { p with fetches := p.fetches ++ [⟨x.slot, 32, [], false, true⟩] })
        (List.range 32).foldl (fun t i => t.pushRead 2 (t.roomAddr r / 8 + i) (.index x.slot i)) s3

/-- A word of a fetch has been read. -/
def State.fetched (s : State) (slot i : Nat) (r : ReadResult) : State :=
  match s.porter.fetches.find? (fun x => x.slot = slot) with
  | none => s
  | some x =>
    let y : Fetch := match r with
      | .data d => { x with awaiting := x.awaiting - 1, words := x.words ++ [(i, d)] }
      | .bad _ => { x with awaiting := x.awaiting - 1, bad := true }
    if y.awaiting = 0 then s.fetchEnd y
    else s.modPorter (fun p => { p with fetches := p.fetches.map (fun z => if z.slot = slot then y else z) })

/-! ### Readouts -/

/-- The state with a readout changed. -/
def State.modReadout (s : State) (src : ReadSource) (f : Readout → Readout) : State :=
  s.modPorter (fun p => { p with readouts := p.readouts.map (fun r => if r.source = src then f r else r) })

/-- The state with a compression unit changed. -/
def State.modUnitC (s : State) (u : Fin 4) (f : CompUnit → CompUnit) : State :=
  { s with comp := { s.comp with units := vmod s.comp.units u f } }

/-- A unit becomes idle unless it is quarantined. -/
def State.idleUnit (s : State) (u : Option Nat) : State :=
  match u.bind (fun k => idx? 4 k) with
  | some k => s.modUnitC k (fun x => if x.state = .quarantined then x else { x with state := .idle })
  | none => s

/-- The reads of a readout that wait are withdrawn. -/
def State.dropReads (s : State) (src : ReadSource) : State :=
  let stale := fun (a : Access) => match a.op with
    | .read (.own x _ _) => x == src
    | .read (.child x _ _) => x == src
    | _ => false
  { s with mem := { s.mem with channels := s.mem.channels.map (fun (c : MemChannel) => { c with general := c.general.filter (fun a => !stale a) }) } }

/-- The reads of a readout wait at level 7 of Table 12.4: its own rooms, and, but for the measuring pass, its stored records. -/
def State.pushReads (s : State) (src : ReadSource) : State :=
  let measuring := ((s.readout src).map (fun r => r.stage == .pass1)).getD false
  let own := (s.ownPlaces src).flatMap (fun q => q.2.map (fun i => (q.1, i)))
  let stored := if measuring then [] else (s.storedRecords src).flatMap (fun c => (List.range ((c.2.2 + 7) / 8)).map (fun i => (c.1, c.2.1, i)))
  let s1 := (s.dropReads src).modReadout src (fun x => { x with awaiting := own.length + stored.length, words := [], childWords := [] })
  let s2 := own.foldl (fun t q => t.pushRead 7 (t.roomAddr q.1 / 8 + q.2) (.own src q.1 q.2)) s1
  stored.foldl (fun t q => match q.2.1[q.2.2 / 32]? with
    | some r => t.pushRead 7 (t.roomAddr r / 8 + q.2.2 % 32) (.child src q.1 q.2.2)
    | none => t) s2

/-- The last read of a readout's stage has been served: a codec 0 fragment is handed to the courier; in pass 2 the unit has coded the fragment a second time
(R207). -/
def State.readDone (s : State) (src : ReadSource) : State :=
  match s.readout src with
  | none => s
  | some r =>
    if r.awaiting ≠ 0 then s
    else
      let raw := s.fragment src r.words
      match r.stage with
      | .reading =>
        let payload := (codePayload 0 0 0 0 r.fallback r.nounit raw).1
        s.modReadout src (fun x => { x with stage := .handed, raw := raw, corrupt := raw.any isPoison, size := payload.length, payload := payload })
      | .pass2 => s.modReadout src (fun x => { x with raw := raw, payload := (codePayload r.codec r.huffman r.depth r.streamKib false false raw).1 })
      | _ => s

/-- A fragment leaves as codec 0 without a unit (R199, R209, R211): its rooms are read, and it is handed whole to the courier. -/
def State.sendRaw (s : State) (src : ReadSource) (fallback nounit : Bool) : State :=
  match s.readout src with
  | none => s
  | some r =>
    (((s.idleUnit r.unit).modReadout src (fun x => { x with
      stage := .reading, unit := none, codec := 0, size := 0, streams := [], payload := [], fallback := fallback, nounit := nounit })).pushReads src).readDone src

/-- The lowest-numbered idle unit (R208). -/
def State.idleUnitNo (s : State) : Option (Fin 4) := (List.finRange 4).find? (fun u => (s.comp.units[u]).state == .idle)

/-- The codec that a source's own fragment is to have (R198, R199): none for a record that is passed on. -/
def State.wantedCodec (s : State) (src : ReadSource) : Nat :=
  match src with
  | .booking slot => if ((s.booking slot).map (fun b => b.ranges)).getD [] = [] then 0 else s.rd pCmpMode
  | .monitor _ => s.rd pCmpMonMode
  | .pass _ => 0

/-- A readout begins its work (R199, R207): it takes a unit and its settings are latched, or it goes uncoded; where no unit is idle it waits. -/
def State.beginReadout (s : State) (src : ReadSource) : State :=
  let wanted := s.wantedCodec src
  if wanted = 0 then s.sendRaw src false false
  else if s.noUnit then (s.bump pCmpCntNounit).sendRaw src false true
  else match s.idleUnitNo with
    | none => s
    | some u =>
      ((s.modUnitC u (fun x => { x with state := .pass1 })).modReadout src (fun x => { x with
        stage := .pass1, unit := some u.val, codec := wanted, depth := s.rd pCmpChainDepth, huffman := s.rd pCmpHuffman
        streamKib := s.rd pCmpStreamKib })).pushReads src

/-- A fragment starts (R191, R199, R207); nothing where it is to be coded and no unit is idle. -/
def State.startReadout (s : State) (src : ReadSource) : State :=
  if s.wantedCodec src ≠ 0 ∧ !s.noUnit ∧ s.idleUnitNo.isNone then s
  else
    let r : Readout :=
      { source := src, stage := .again, unit := none, codec := 0, depth := 0, huffman := 0, streamKib := 0, awaiting := 0, words := [], childWords := [],
        raw := [], size := 0, streams := [], payload := [], corrupt := false, fallback := false, nounit := false }
    let s1 := s.modPorter (fun p => { p with readouts := p.readouts ++ [r] })
    let s2 := match src with
      | .booking slot => (s1.modBooking slot (fun b => { b with state := .sending })).touch slot
      | _ => s1
    s2.beginReadout src

/-- The record being sent for a source is aborted and starts again from its beginning (R209, R211): the DATA frame in progress ends with PREEMPT and EOF (R224). -/
def State.abortRecord (s : State) (src : ReadSource) : State :=
  (List.finRange 18).foldl (fun t p =>
    match (t.ports[p]).record with
    | some r => if r.source = some src then t.cutSending p (fun _ => none) else t
    | none => t) s

/-- A crossing from a memory channel is reset (R360): a fragment is read again from its first room; one in pass 2 is sent again as codec 0 (R211). -/
def State.restartReadout (s : State) (src : ReadSource) : State :=
  match s.readout src with
  | none => s
  | some r =>
    match r.stage with
    | .reading | .pass1 => (s.pushReads src).readDone src
    | .pass2 => (s.abortRecord src).sendRaw src false r.nounit
    | .again | .handed => s

/-- A unit's crossing is reset (R211): the fragment it holds is discarded from it. It starts again from pass 1 once a unit takes it, or, where pass 2 had begun,
is sent again as codec 0. -/
def State.discardUnit (s : State) (src : ReadSource) : State :=
  match s.readout src with
  | none => s
  | some r =>
    match r.unit, r.stage with
    | some _, .pass1 => ((s.idleUnit r.unit).dropReads src).modReadout src (fun x => { x with stage := .again, unit := none, awaiting := 0, words := [] })
    | some _, .pass2 => (s.abortRecord src).sendRaw src false false
    | _, _ => s

/-! ### Records (R241, R244) -/

/-- The bytes of the stored records of a readout, as read. -/
def State.storedBytes (s : State) (r : Readout) : List Byte :=
  (s.storedRecords r.source).flatMap (fun c =>
    ((List.range ((c.2.2 + 7) / 8)).flatMap (fun i =>
      match r.childWords.find? (fun w => w.1 = c.1 && w.2.1 = i) with
      | some w => natLe 8 w.2.2.toNat
      | none => List.replicate 8 0)).take c.2.2)

/-- The head waybill and the content of a readout's record. -/
def State.record (s : State) (r : Readout) : Option (Waybill × List Byte) :=
  match r.source with
  | .booking slot => match s.booking slot with
    | none => none
    | some b =>
      let kids := (b.children.filter (fun c => b.reported.getLsbD c.port)).map (·.port)
      let have_ := kids.foldl (fun (m : Half) p => m ||| (1#16 <<< p)) 0
      let absent := if b.station then 0 else b.enabled &&& ~~~ have_ &&& ~~~ b.standby
      let pinned := b.ranges.flatMap (·.2) ++ b.children.flatMap (·.rooms) ++ b.index.toList
      some ({ children := kids.length, kind := if b.station then 2 else 1, compressed := r.codec = 2 || r.codec = 3, corrupt := b.corrupt || r.corrupt,
              truncated := b.truncated, partialFlag := absent != 0, step := b.step, suspect := b.suspect || pinned.any (fun x => (s.room x).suspect),
              source := BitVec.ofNat 16 (s.rd pDevNumber), incarnation := s.mram.incarnation, codec := BitVec.ofNat 8 r.codec, absent := absent,
              event := b.event, start := b.start, length := b.length, payload := r.size }, r.payload ++ s.storedBytes r)
  | .monitor seq => match s.porter.monitor.find? (fun m => m.seq.toNat = seq) with
    | none => none
    | some m =>
      some ({ children := 0, kind := 3, compressed := r.codec = 2 || r.codec = 3, corrupt := r.corrupt, truncated := m.truncated, partialFlag := false,
              step := m.step, suspect := m.rooms.any (fun x => (s.room x).suspect), source := BitVec.ofNat 16 (s.rd pDevNumber),
              incarnation := s.mram.incarnation, codec := BitVec.ofNat 8 r.codec, absent := 0, event := m.seq, start := m.start, length := 0x4000000,
              payload := r.size }, r.payload)
  | .pass id => match s.porter.pass.find? (fun e => e.id = id) with
    | none => none
    | some e => some (e.waybill, (s.storedBytes r).drop 32)

/-- The courier takes the next record for the data path (R192, R245): head waybills alone first, then the readouts in schedule order as the first of
them is complete or coded a second time. -/
def State.courier (s : State) : State :=
  let p := s.dataPort
  let x := s.ports[p]
  if x.record.isSome ∨ x.state ≠ .admitted then s else
  match s.porter.headWaybills with
  | w :: ws =>
    (s.modPorter (fun q => { q with headWaybills := ws })).modPort p (fun y => { y with
      record := some ⟨none, { w with incarnation := s.mram.incarnation }, [], 0, false⟩ })
  | [] =>
    match s.porter.readouts with
    | [] => s
    | r :: _ =>
      if r.stage = .handed ∨ (r.stage = .pass2 ∧ r.awaiting = 0) then
        match s.record r with
        | some (w, c) => s.modPort p (fun y => { y with record := some ⟨some r.source, w, c, 0, false⟩ })
        | none => s
      else s

end Sys2Proof.Machine
end

