-- ==== Sys2Proof/Machine/Links.lean ====
section
/-! DEFINITION. The commands of the links (spec/10): sending and receiving frames, lanterns, credit and admission. -/

namespace Sys2Proof.Machine

open Sys2Proof

/-! ### Sending (R219, R223–R225, R231) -/

/-- The bytes of a frame between its start symbol and EOF; of a MAC frame with its preamble (log entry 80). -/
def TxBody.wireSize (b : TxBody) : Nat := match b with
  | .mac _ _ _ _ _ => b.size + 8
  | _ => b.size

/-- The columns from a DATA frame's last byte sent to its next 32-bit boundary (R223). -/
def State.toBoundary (s : State) (p : Fin 18) : Nat :=
  let r := s.wireRung p
  (columnIndex r (s.ports[p]).sendingUntil - columnIndex r s.time.clock - 1) % max 1 (4 / s.wireWidth p)

/-- Whether a frame that starts now follows another inserted one back to back (R224). -/
def State.backToBack (s : State) (p : Fin 18) : Bool := s.inData p && (s.ports[p]).inserted && (s.ports[p]).busyUntil == s.time.clock

/-- The columns that stand ahead of a frame that starts now: those to the boundary and PREEMPT, where a DATA frame is pre-empted (R223, R224). -/
def State.leadColumns (s : State) (p : Fin 18) : Nat := if s.inData p && !s.backToBack p then s.toBoundary p + 1 else 0

/-- The time of those columns, in fine steps: a frame's MARK stands behind them (R219, R224). -/
def State.leadFine (s : State) (p : Fin 18) : Nat :=
  let r := s.wireRung p
  columnFine r (if r ≤ 4 then withSkips (columnIndex r s.time.clock) (s.leadColumns p) else s.leadColumns p)

/-- The columns from now to a frame's EOF: those ahead of it and its own (R219). -/
def State.colsToEof (s : State) (p : Fin 18) (b : TxBody) : Nat := s.leadColumns p + frameCols (s.wireWidth p) b b.wireSize

/-- The earliest pending launch of a frame on a port. -/
def State.pendingLaunch (s : State) (p : Fin 18) : Option DWord :=
  (s.time.queue.filterMap (fun e => match e with
    | .frame t q _ _ => if q.val = p.val then some t else none
    | .booking _ _ _ => none)).foldl (fun a t => match a with
      | some x => if before t x then some t else a
      | none => some t) none

/-- Whether a frame may start on a downstream port with a pending launch: its EOF leaves at the latest 32 ticks before it (R225). -/
def State.clearOfLaunch (s : State) (p : Fin 18) (b : TxBody) : Bool :=
  match s.pendingLaunch p with
  | some t => atOrBefore (s.now + BitVec.ofNat 64 (s.columnTicks p (s.colsToEof p b) + 32)) t
  | none => true

/-- The waiting frame of the highest rank, and among those the first that arrived (R223). -/
def firstOfRank (fs : List TxFrame) : Option TxFrame :=
  fs.foldl (fun a f => match a with
    | some x => if f.rank < x.rank then some f else a
    | none => some f) none

/-- The largest DATA segment of the child (R231): the smaller of PORT.P_DATA_MAX and 256 × limit − 44, down to a multiple of 4. -/
def State.segmentMax (s : State) (p : Fin 18) : Nat :=
  min (s.rd (pPortPDataMax p.val)) (256 * (s.ports[p]).limit - 44) / 4 * 4

/-- The next DATA frame of the record a port sends, if credit allows it; the last waits for the end of the unit's second pass (R207). -/
def State.nextData (s : State) (p : Fin 18) : Option DataFrame :=
  let x := s.ports[p]
  match x.record with
  | none => none
  | some r =>
    if (r.started && decide (r.content.length ≤ r.sent)) || x.state != .admitted then none else
    let seg := (r.content.drop r.sent).take (s.segmentMax p)
    let units := unitsOf (44 + (seg.length + 3) / 4 * 4)
    let open_ := s.porter.readouts.any (fun o => r.source = some o.source && o.stage == .pass2)
    if (units : Int) ≤ (x.granted - x.consumed).toInt ∧ ¬(open_ ∧ r.content.length ≤ r.sent + seg.length) then
      some { first := !r.started, last := r.content.length ≤ r.sent + seg.length, offset := r.sent, waybill := r.waybill, waybillOk := true,
             segment := seg }
    else none

/-- The instant at the balls of a MARK sent on a port, `lead` fine steps behind the frame's start (R84, R219). -/
def State.ballOut (s : State) (p : Fin 18) (f : BitVec 10) (lead : Nat) : Int :=
  s.stamp f + lead + Config.txLatency (portLane p) (if s.basexPort p then 5 else (s.lanes.ports[p]).rung)

/-- A Delay_Req starts: t3 of the exchange it belongs to (R85). -/
def State.requestSent (s : State) (p : Fin 18) (seq : Half) (fine : BitVec 10) (lead : Nat) : State :=
  let d : Fin 2 := if p = 17 then 1 else 0
  let x := s.time.domains[d]
  if x.exchange.seq.isSome ∧ x.exchange.reqSeq = seq then
    s.setDomain d { x with exchange := { x.exchange with t3 := some (fineToNs16 (s.ballOut p fine lead)), reqSent := true } }
  else s

/-- What a frame's start does beside leaving its queue: the timestamps of Sync and Delay_Req at their MARK (R84, R85). -/
def State.onStart (s : State) (p : Fin 18) (f : TxFrame) (fine : BitVec 10) (lead : Nat) : State :=
  match f.body with
  | .time seq .sync => s.enqueue p (.time seq (.followUp (toStamp (s.ballOut p fine lead))))
  | .time seq .delayReq => s.requestSent p seq fine lead
  | .mac _ _ _ seq .delayReq => s.requestSent p seq fine lead
  | _ => s

/-- A LANTERN that has not left within 4,096 ticks of its tick is skipped (R237). -/
def State.skipLanterns (s : State) (p : Fin 18) : State :=
  if s.time.clock ≤ (s.ports[p]).lanternDue + 4096 then s
  else s.modPort p (fun x => { x with tx := x.tx.filter (fun f => match f.body with
    | .lantern _ _ _ => false
    | _ => true) })

/-- A frame as it leaves: a LANTERN takes the next sequence number of its port (Table 10.13). -/
def Port.outgoing (x : Port) (b : TxBody) : TxBody := match b with
  | .lantern _ d m => .lantern x.lanternSeq d m
  | _ => b

/-- The LINK that a frame carries (Table 10.2). -/
def Port.linkOf (x : Port) (b : TxBody) : Byte := match b with
  | .prim _ => 0
  | .accept _ => 0
  | .adm _ a => a.link
  | _ => x.inc

/-- A port whose PORT.P_ENABLE is 0 has no work once its last frame, the CLOSE of R238, has been sent (R260). -/
def State.afterClose (s : State) (p : Fin 18) : State :=
  if (s.ports[p]).state = .disabled ∧ (s.ports[p]).tx = [] ∧ s.rd (pPortPEnable p.val) = 0 ∧ s.lanesUp p then s.lowPower p else s

/-- A frame other than DATA starts on a port (R223, R224): it leaves its queue and holds the wire up to its EOF. A pre-emption of a DATA frame is counted once,
however many frames follow back to back, and the DATA frame ends later by PREEMPT, the inserted frame and the PREEMPT that resumes it. -/
def State.startFrame (s : State) (p : Fin 18) (f : TxFrame) (queued : Bool) (fine : BitVec 10) : State :=
  let x := s.ports[p]
  let again := s.backToBack p
  let body := x.outgoing f.body
  let own := frameCols (s.wireWidth p) body body.wireSize
  let s1 : State := if queued then s.setPort p { x with tx := x.tx.erase f } else { s with acq := { s.acq with prims := s.acq.prims.tail } }
  let s2 := s1.modPort p (fun y => { y with
    lastSent := some { f with body := body, link := x.linkOf body }
    lanternSeq := if body.start = .lantern then y.lanternSeq + 1 else y.lanternSeq
    busyUntil := s.time.clock + s.columnTicks p (s.colsToEof p body)
    inserted := s.inData p
    sendingUntil := if s.inData p then y.sendingUntil + s.columnTicks p (own + if again then 0 else 2) else y.sendingUntil })
  let s3 := if s.inData p && !again then s2.bump (pPortPCntPreempt p.val) else s2
  let s4 := match body with
    | .ctrl _ => s3.courierUnit p (body.bytes (x.linkOf body) 0)
    | _ => s3
  (s4.onStart p { f with body := body } fine (s.leadFine p)).afterClose p

/-- A DATA frame of the record that a port sends starts (R223, R231): its units are consumed. -/
def State.startData (s : State) (p : Fin 18) (d : DataFrame) : State :=
  let x := s.ports[p]
  let size := (TxBody.data d).size
  s.setPort p { x with
    consumed := x.consumed + BitVec.ofNat 32 (unitsOf size)
    sending := some d, inserted := false
    sendingUntil := s.time.clock + s.columnTicks p (frameCols (s.wireWidth p) (.data d) size)
    lastSent := some ⟨.data d, none, 0, false, x.inc⟩
    record := x.record.map (fun r => { r with sent := r.sent + d.segment.length, started := true }) }

/-- FRAME_TRANSMIT (R223): once the wire is free a port starts the highest-ranked waiting frame that its state carries (R233); a waiting frame of another type pre-empts a DATA frame in
progress (R224), and DATA starts only against credit (R231). -/
def execFrameTransmit (p : Fin 18) (fine : BitVec 10) (s : State) : Out :=
  .next (if !s.sendable p then s else
    let s : State := if p = s.dataPort then s.courier else s
    let s := s.skipLanterns p
    let x := s.ports[p]
    if s.time.clock < x.busyUntil then s else
    let prim : Option TxFrame := if p = s.dataPort then s.acq.prims.head?.map (fun f => ⟨.prim f, none, 0, false, 0⟩) else none
    match firstOfRank ((prim.toList ++ x.tx).filter (fun f => x.carries f.body)) with
    | some f => if f.launched.isNone && !s.clearOfLaunch p f.body then s else s.startFrame p f (prim != some f) fine
    | none =>
      match s.nextData p with
      | none => s
      | some d => if s.inData p || !s.clearOfLaunch p (.data d) then s else s.startData p d)

/-- DATA_FRAME_ABORT (R224, R231): a received DATA frame ends with PREEMPT and EOF: what was received of its record is discarded, the credit of the record and
of this frame, of `units` units, returned and the abort counted. -/
def execDataFrameAbort (p : Fin 18) (units : Nat) (s : State) : Out :=
  .next (if h : p.val < 16 then
      if s.hearing p = .admitted ∨ s.hearing p = .standby then
        let s1 := ((s.dropRx ⟨p.val, h⟩).bump (pPortPCntAborts p.val)).modPort p (fun x => { x with consumed := x.consumed + BitVec.ofNat 32 units })
        s1.raiseGrant ⟨p.val, h⟩
      else s
    else s)

/-! ### Control frames (R229) -/

/-- CTRL_FRAME (R229, R298): delivered to a mailbox, broadcast, routed down or passed up. -/
def execCtrlFrame (p : Fin 18) (m : FrameMeta) (f : CtrlFrame) (s : State) : Out :=
  .next ((if s.hears p then s.courierUnit p ((TxBody.ctrl f).bytes m.link 0) else s).receive p
    { m with formOk := m.formOk && (f.up == decide (p.val < 16)) && decide (f.hops.toNat ≤ 8 ∧ f.mailbox.toNat ≤ 4) } false false false true true 1 (fun t =>
    if f.up then
      if f.hops = 8 then t
      else t.forward p t.dataPort (.ctrl { f with route := f.route <<< 4 ||| BitVec.ofNat 32 p.val, hops := f.hops + 1 }) 1
    else if f.hops = 0 then
      let t1 :=
        match idx? 8 f.mailbox.toNat with
        | some mb => if mb.val < 5 ∧ mbPort mb = p then t.deliver mb f.block else t
        | none => t
      if f.bcast then
        (List.finRange 16).foldl (fun u q => if (u.ports[downPort q]).state = .admitted then u.forward p (downPort q) (.ctrl f) 1 else u) t1
      else t1
    else
      match idx? 18 (f.route.toNat % 16) with
      | some q => if t.linked q then t.forward p q (.ctrl { f with route := f.route >>> 4, hops := f.hops - 1 }) 1 else t
      | none => t))

/-- EVQ_FRAME (R229): a child's event records are passed upward with the route built. -/
def execEvqFrame (p : Fin 18) (m : FrameMeta) (f : EvqFrame) (s : State) : Out :=
  .next (s.receive p { m with formOk := m.formOk && decide (1 ≤ f.records.length ∧ f.records.length ≤ 8 ∧ f.hops.toNat ≤ 8) } true false false true false 7 (fun t =>
    if f.hops = 8 then t
    else t.forward p t.dataPort (.evq { f with route := f.route <<< 4 ||| BitVec.ofNat 32 p.val, hops := f.hops + 1 }) 7))

/-- EVQ_FRAME_SEND (R230, R305): up to 8 records of the upstream buffer leave in an EVQ frame once 8 wait or 1,024 ticks have passed. -/
def execEvqFrameSend (s : State) : Out :=
  .next (let q := s.dataPort
    if (s.ports[q]).state ≠ .admitted ∨ s.fd.upstream = [] ∨
        (s.fd.upstream.length < 8 ∧ s.time.clock < s.fd.upstreamAt + 1024) then s
    else
      (s.modFd (fun f => { f with upstream := f.upstream.drop 8, upstreamAt := s.time.clock })).enqueue q
        (.evq { hops := 0, route := 0, source := BitVec.ofNat 16 (s.rd pDevNumber), array := BitVec.ofNat 4 (s.rd pDevArray),
                records := s.fd.upstream.take 8 }))

/-! ### Event data (R242–R246) -/

/-- Bytes written from an offset of a record on into its rooms; whole words at level 6, parts of words through the merge buffer. -/
def State.storeBytes (s : State) (rooms : List Nat) : Nat → Nat → List Byte → State
  | 0, _, _ => s
  | _, _, [] => s
  | fuel + 1, off, b :: bs =>
    match rooms[off / 256]? with
    | none => s
    | some r =>
      let o := off % 8
      let n := min (8 - o) (bs.length + 1)
      let part := (b :: bs).take n
      let w := s.roomAddr r / 8 + off % 256 / 8
      let s2 := if n = 8 then s.pushWrite 6 w (BitVec.ofNat 64 (leNat part)) else s.mergeWrite w (part.zipIdx.map (fun q => (o + q.2, q.1)))
      s2.storeBytes rooms fuel (off + n) ((b :: bs).drop n)

/-- The frames in a port's receive buffer leave it as their rooms allow (R23, R231). -/
def State.drainRx (s : State) (p : Fin 16) : Nat → State
  | 0 => s
  | fuel + 1 =>
    match (s.ports[downPort p]).rxWait with
    | [] => s
    | w :: ws =>
      let rooms := s.targetRooms p w.target
      if (w.offset + w.bytes.length + 255) / 256 ≤ rooms.length then
        (((s.modPort (downPort p) (fun x => { x with rxWait := ws })).storeBytes rooms w.bytes.length w.offset w.bytes).raiseGrant p).drainRx p fuel
      else s

/-- A record is found damaged (R242): discarded, its port marked absent, CORRUPT set, counted and posted; the rest of it is dropped. -/
def State.damaged (s : State) (p : Fin 16) (target : RxTarget) (w : Waybill) : State :=
  let s1 := s.dropRx p
  let s2 := match target with
    | .booking slot => s1.markAbsent slot p true
    | _ => s1
  ((s2.bump (pPortPCntDamaged p.val)).post (433 + p.val) 0x26 (w.event.toNat % 0x10000)).modPort (downPort p)
    (fun x => { x with rx := some ⟨.drop, w, 0⟩ })

/-- A record is late (R242): dropped up to its LAST frame, counted, LATE posted at the first. -/
def State.lateRecord (s : State) (p : Fin 16) (w : Waybill) : State :=
  (s.bumpPost (pPortPCntLate p.val) (433 + p.val) 0x24 (w.event.toNat % 0x10000)).modPort (downPort p)
    (fun x => { x with rx := some ⟨.drop, w, 0⟩ })

/-- A record is met on a port on which none is in progress, and finds where it goes (R242, R246). `whole` says that this is its first frame, read without
fault; a record whose beginning was not taken has a frame that failed a check, or an offset that does not continue the bytes before it, and is damaged. -/
def State.meetRecord (s : State) (p : Fin 16) (w : Waybill) (whole : Bool) : State :=
  let q := downPort p
  if w.kind = 1 then
    match s.booking (slotOf w.event) with
    | some b =>
      if b.event ≠ w.event ∨ ¬(b.state = .opened ∨ b.state = .closed) ∨ !b.expected.getLsbD p.val ∨ b.absent.getLsbD p.val ∨
          b.reported.getLsbD p.val then s.lateRecord p w
      else if !whole ∨ w.source ≠ (s.ports[q]).partner ∨ w.start ≠ b.start ∨ w.length ≠ b.length then
        s.damaged p (.booking (slotOf w.event)) w
      else
        ((s.modBooking (slotOf w.event) (fun b => { b with children := b.children ++ [⟨p.val, w, 0, []⟩] })).useRecord (slotOf w.event)).modPort q
          (fun x => { x with rx := some ⟨.booking (slotOf w.event), w, 0⟩ })
    | none => s.lateRecord p w
  else if w.kind = 2 ∨ w.kind = 3 then
    if !whole then s.damaged p .drop w
    else if 256 ≤ s.porter.pass.length then
      (s.bump pPortCntPassFull).modPort q (fun x => { x with rx := some ⟨.drop, w, 0⟩ })
    else
      let id := s.porter.passNext
      (s.modPorter (fun x => { x with pass := x.pass ++ [⟨id, w, 0, [], none⟩], passNext := id + 1 })).modPort q
        (fun x => { x with rx := some ⟨.pass id, w, 0⟩ })
  else s

/-- The entry of a child record in its booking's index room (Table 8.4), once the record is whole and has a room. -/
def State.indexPort (s : State) (slot : Nat) (p : Fin 16) : State :=
  match s.booking slot with
  | none => s
  | some b => match b.children.find? (fun c => c.port = p.val ∧ b.reported.getLsbD p.val) with
    | some c => match c.rooms.head? with
      | some room => s.writeIndex b.index (16 + p.val) room c.bytes
      | none => s
    | none => s

/-- A record's LAST frame has been taken (R242, R243, R246). -/
def State.lastFrame (s : State) (p : Fin 16) (r : RxRecord) (content : Nat) : State :=
  let s1 := s.modPort (downPort p) (fun x => { x with rx := none })
  match r.target with
  | .drop => s1
  | .booking slot =>
    if content < r.waybill.payload then (s.damaged p r.target r.waybill).modPort (downPort p) (fun x => { x with rx := none })
    else
      let s2 := s1.modBooking slot (fun b => { b with
        reported := b.reported ||| (1#16 <<< p.val)
        children := b.children.map (fun c => if c.port = p.val then { c with bytes := 32 + content } else c) })
      ((s2.indexPort slot p).useRecord slot).checkComplete slot
  | .pass id =>
    if content < r.waybill.payload then (s.damaged p r.target r.waybill).modPort (downPort p) (fun x => { x with rx := none })
    else s1.modPorter (fun x => { x with pass := x.pass.map (fun e => if e.id = id then { e with bytes := 32 + content, done := some s.now } else e) })

/-- The part of a DATA frame that its target stores: the head waybill ahead of the first segment, then the segments. -/
def State.storeSegment (s : State) (p : Fin 16) (r : RxRecord) (f : DataFrame) (units : Nat) : State :=
  let before' := if f.first then 0 else 32 + r.stored
  let bytes := if f.first then waybillBytes f.waybill ++ f.segment else f.segment
  let s1 := s.modPort (downPort p) (fun x => { x with
    rx := some { r with stored := r.stored + f.segment.length }
    rxWait := x.rxWait ++ [⟨r.target, before', bytes, units⟩] })
  (s1.refreshRequest p).drainRx p 64

/-- The credit units of a received DATA frame return as it leaves the receive buffer, stored or dropped (R231). -/
def State.takeUnits (s : State) (p : Fin 16) (units : Nat) : State :=
  s.modPort (downPort p) (fun x => { x with consumed := x.consumed + BitVec.ofNat 32 units })

/-- A FIRST frame arrives while a record is in progress on the port: that record is discarded as aborted (R224, R242). -/
def State.cutRecord (s : State) (p : Fin 16) : State :=
  if (s.ports[downPort p]).rx.isSome then (s.dropRx p).bump (pPortPCntAborts (downPort p).val) else s

/-- The record in progress on a port is damaged by a frame that fails a check (R242). -/
def State.spoilRecord (s : State) (p : Fin 16) : State :=
  match (s.ports[downPort p]).rx with
  | some r => match r.target with
    | .drop => s
    | _ => s.damaged p r.target r.waybill
  | none => s

/-- A frame whose head fails its check (R221, R227, R242): its flags are not used; it damages the record in progress, or the record its waybill names. -/
def State.badHead (s : State) (p : Fin 16) (f : DataFrame) : State :=
  if (s.ports[downPort p]).rx.isNone && f.waybillOk then s.meetRecord p f.waybill false else s.spoilRecord p

/-- A frame whose waybill fails its check (R221, R242): it damages the record in progress. A record of which no waybill was read is counted as
damaged at its last frame, with no event number known (log entry 70). -/
def State.badWaybill (s : State) (p : Fin 16) (f : DataFrame) : State :=
  let q := downPort p
  let s2 := if f.first then (s.cutRecord p).modPort q (fun x => { x with rx := none }) else s
  let s3 :=
    if (s2.ports[q]).rx.isNone && f.last then
      ((s2.bump (pPortPCntDamaged p.val)).post (433 + p.val) 0x26 ((Config.freeWord s2.free).toNat % 0x10000)).tickFree
    else s2.spoilRecord p
  if f.last then s3.modPort q (fun x => { x with rx := none }) else s3

/-- A frame whose head and waybill pass their checks (R222, R242, R243, R246). -/
def State.goodData (s : State) (p : Fin 16) (m : FrameMeta) (f : DataFrame) (units : Nat) : State :=
  let q := downPort p
  let s1 := if m.codeViolation then s.bumpPost (pPortPCntCode q.val) (portSource q) 0x28 (f.waybill.event.toNat % 0x10000) else s
  let s2 :=
    if f.first then (s1.cutRecord p).meetRecord p f.waybill true
    else if (s1.ports[q]).rx.isNone then s1.meetRecord p f.waybill false else s1
  match (s2.ports[q]).rx with
  | none => s2
  | some r =>
    let s3 :=
      match r.target with
      | .drop => s2
      | _ =>
        if f.waybill ≠ r.waybill ∨ f.offset ≠ r.stored then s2.damaged p r.target r.waybill
        else
          let t := s2.storeSegment p r f units
          match r.target with
          | .booking slot => if m.codeViolation then t.modBooking slot (fun b => { b with suspect := true }) else t
          | _ => t
    if f.last then
      match (s3.ports[q]).rx with
      | some r' => s3.lastFrame p r' r'.stored
      | none => s3
    else s3

/-- A DATA frame on a downstream port (R221, R222, R231, R242): taken, it goes to its record; failing a check, it damages one; refused, it does nothing. Its credit
returns in each case. A waybill of a reserved KIND is outside its table, and its frame is refused. -/
def State.takeData (s : State) (p : Fin 16) (m : FrameMeta) (f : DataFrame) : State :=
  let q := downPort p
  let units := unitsOf (TxBody.data f).size
  let m1 := { m.clean with checkOk := m.checkOk && f.waybillOk, formOk := m.formOk && decide (1 ≤ f.waybill.kind ∧ f.waybill.kind ≤ 3) }
  let s0 := (s.noteViols q m).courierUnit q ((waybillBytes f.waybill).take 28)
  let held := s0.hearing q
  let s1 := s0.receive q m1 true false false true false 2 (fun t => (t.takeUnits p units).goodData p m f units)
  if held ≠ .admitted then s1
  else match s0.takes q m1 true false false true false with
    | .taken => (s1.raiseGrant p).lookBacklog
    | .check => (((if m.checkOk then (s1.takeUnits p units).badWaybill p f else (s1.takeUnits p units).badHead p f)).raiseGrant p).lookBacklog
    | _ => (s1.takeUnits p units).raiseGrant p

/-- DATA_FRAME (R222, R231, R240, R242, R243, R246): stored into its booking or the pass-through list, or dropped as late or damaged. A frame whose EOF falls in
the tick of its port's absence, or of its booking's timeout, is taken first. -/
def execDataFrame (p : Fin 18) (m : FrameMeta) (f : DataFrame) (s : State) : Out :=
  .next (if !s.hears p then s
    else if h : p.val < 16 then
      let q : Fin 16 := ⟨p.val, h⟩
      match (s.ports[p]).cut with
      | none => s.takeData q m f
      | some c => ((s.uncut q c).takeData q m f).recut q c s.ports[p]
    else (s.noteViols p m).receive p m.clean true false false true false 2 (fun t => t))

/-- COMPLETE_TIMEOUT (R243): a booking in CLOSED is complete at the latest at C + PORT.COMPLETE_TIMEOUT; every expected port not complete is
marked absent; its partial record is discarded and the timeout counted and posted as the tick ends, since a last EOF of the same tick still counts (R240). -/
def execCompleteTimeout (slot : Half) (s : State) : Out :=
  .next (match s.booking slot.toNat with
    | none => s
    | some b =>
      if b.state ≠ .closed ∨ before s.now (b.close + BitVec.ofNat 64 (1024 * s.rd pPortCompleteTimeout)) then s else
      let missing := (List.finRange 16).filter (fun p => b.expected.getLsbD p.val && !(b.reported ||| b.absent).getLsbD p.val)
      (missing.foldl (fun t p =>
        let t1 := match (t.ports[downPort p]).rx with
          | some r => if r.target = RxTarget.booking slot.toNat then t.cutRx p (some ⟨.drop, r.waybill, 0⟩) else t
          | none => t
        (t1.cutBooking slot.toNat p).noteCut (downPort p) (fun c => { c with timed := c.timed ++ [(slot.toNat, b.event)] })) s).lookBacklog)

/-! ### Credit, tests, lanterns (R228, R231, R237) -/

/-- CREDIT_FRAME (R231): the child takes the limit and the total granted; a limit outside 4–16 is refused (R221). -/
def execCreditFrame (p : Fin 18) (m : FrameMeta) (limit : Nat) (granted : Word) (s : State) : Out :=
  .next (s.receive p { m with formOk := m.formOk && decide (4 ≤ limit ∧ limit ≤ 16) } false true false true false 8 (fun t =>
    t.modPort p (fun x => { x with limit := limit, granted := granted })))

/-- CREDIT_PERIOD (R231): the parent sends CREDIT at least once every 16,384 ticks. -/
def execCreditPeriod (p : Fin 16) (s : State) : Out :=
  .next (let x := s.ports[downPort p]
    if x.state ≠ .admitted ∨ s.time.clock < x.creditAt + 16384 then s
    else
      let s1 := s.raiseGrant p
      (s1.modPort (downPort p) (fun y => { y with announced := y.granted, creditAt := s.time.clock })).enqueue (downPort p)
        (.credit (s.rd (pPortPCreditMax p.val)) (s1.ports[downPort p]).granted))

/-- TEST_FRAME (R228): counted, its tag and the tick of its SOF stored. -/
def execTestFrame (p : Fin 18) (m : FrameMeta) (tag : Word) (s : State) : Out :=
  .next (s.receive p m false true false true false 10 (fun t =>
    (t.bump (pPortPCntTest p.val)).modPort p (fun x => { x with testTag := tag, testTick := t.now.setWidth 32 })))

/-- LANTERN_FRAME (R237): a valid LANTERN restarts the partner's timeout and gives its summary, in the tick of that timeout too (R240). -/
def execLanternFrame (p : Fin 18) (m : FrameMeta) (_seq device : Half) (summary : Word) (s : State) : Out :=
  .next (s.receive p m false false false true true 6 (fun t =>
    t.modPort p (fun x => { x with lanternAt := t.time.clock, lapsed := false, summary := summary, partner := device })))

/-- LANTERN_SEND (R237): at each tick count that is a multiple of 16,384 a LANTERN waits at each end of every link; it takes its sequence number as it leaves, and
one still waiting from before is skipped. -/
def execLanternSend (s : State) : Out :=
  .next (if s.now.toNat % 16384 ≠ 0 ∨ !s.on 30 then s else
    (List.finRange 18).foldl (fun t p =>
      if t.linked p then
        (t.modPort p (fun x => { x with lanternDue := t.time.clock, tx := x.tx.filter (fun f => f.body.start ≠ .lantern) })).enqueue p
          (.lantern 0 (BitVec.ofNat 16 (t.rd pDevNumber)) t.summary)
      else t) s)

/-- LANTERN_TIMEOUT (R237): 65,536 ticks pass with no valid LANTERN and the partner is declared absent, once the receipts of the tick are in (R240). -/
def execLanternTimeout (p : Fin 18) (s : State) : Out :=
  .next (if s.linked p ∧ (s.ports[p]).lanternAt + 65536 ≤ s.time.clock then s.modPort p (fun x => { x with lapsed := true }) else s)

/-! ### Admission (R232–R236) -/

/-- A refusal is recorded at this end (R235): counted, ADMIT_REFUSED posted, and entered in the ledger. -/
def State.noteRefusal (s : State) (p : Fin 18) (inc cause : Nat) : State :=
  (s.bump (pPortPCntRefused p.val)).postLedger (portSource p) 0x21 (inc + 256 * cause)

/-- The cause for which a parent refuses a REQUEST, Table 10.17. -/
def State.refuseCause (s : State) (p : Fin 18) (f : AdmitFrame) : Option Nat :=
  if s.rd (pPortPEnable p.val) = 0 then some 1
  else if (s.ports[p]).lastInc = some f.link ∨ f.link = 0 then some 2
  else if f.stepping ≠ 0xB1 ∨ f.release ≠ s.fd.release then some 3
  else if f.argument ≠ 1 ∧ f.argument ≠ 2 then some 4
  else none

/-- REQUEST (R234, R235, R237): a parent grants or refuses; a REQUEST on a link still up declares the child absent first. -/
def execRequest (p : Fin 18) (m : FrameMeta) (f : AdmitFrame) (s : State) : Out :=
  .next (s.receive p m true false true false true 9 (fun t =>
    let t1 := if t.linked p then t.declareAbsent p 4 5 else t
    match t1.refuseCause p f with
    | some c => (t1.sendAdmit p .refuse f.link (BitVec.ofNat 8 c)).noteRefusal p f.link.toNat c
    | none =>
      (t1.modPort p (fun x => { x with state := .admitting, inc := f.link, role := f.argument.toNat, partner := f.device, partnerArray := f.array,
                                        granted := 0, consumed := 0, announced := 0, grantAt := some t1.time.clock })).sendAdmit p .grant f.link f.argument))

/-- A link becomes ADMITTED or STANDBY by its role; a data path that is ADMITTED ends the wait of NO_STANDBY (R346) and that of a move (R347), and one that is STANDBY
holds no primitive (R164). -/
def State.admitLink (s : State) (p : Fin 18) (role : Nat) : State :=
  (({ s with keeper := { s.keeper with noStandby := s.keeper.noStandby && p != s.dataPort, dpAwaits := s.keeper.dpAwaits && (p != s.dataPort || role != 1) } } : State).modPort p (fun x =>
    { x with state := if role = 1 then .admitted else .standby, role := role, lanternAt := s.time.clock,
             grantAt := none, askedAt := none })).dropPrims

/-- GRANT (R233, R234, R236, R347): the child's link, if the GRANT is of the role it asks for, becomes ADMITTED or STANDBY and CONFIRM is sent; the GRANT of a renewal starts the end of
its window; a link that takes the role DATA after a move of the data path releases the bookings launched before unsent. -/
def execGrant (p : Fin 18) (m : FrameMeta) (f : AdmitFrame) (s : State) : Out :=
  .next (s.receive p m false true true false true 9 (fun t =>
    let x := t.ports[p]
    if f.link ≠ x.inc then t
    else if x.state = .admitting then
      if f.argument.toNat ≠ x.role then t else
      let t1 := if t.keeper.dpAwaits ∧ p = t.dataPort ∧ f.argument = 1 then t.releaseBookings else t
      ((t1.modPort p (fun y => { y with granted := 0, consumed := 0, partner := f.device, partnerArray := f.array })).admitLink p f.argument.toNat).sendAdmit p
        .confirm x.inc f.argument
    else if t.linked p then
      if x.renewAt.isSome then t.modPort p (fun y => { y with renewAt := none, windowEnd := some (t.time.clock + 16384) })
      else if x.state = .standby ∧ f.argument = 1 then
        ((t.releaseBookings.modPort p (fun y => { y with granted := 0, consumed := 0 })).admitLink p 1).sendAdmit p .confirm x.inc f.argument
      else if x.state = .admitted ∧ f.argument = 2 then (t.admitLink p 2).sendAdmit p .confirm x.inc f.argument
      else t.sendAdmit p .confirm x.inc f.argument
    else t))

/-- REFUSE (R232, R235): recorded; on STALE the child takes a new incarnation and admits afresh, on any other cause it asks again later. -/
def execRefuse (p : Fin 18) (m : FrameMeta) (f : AdmitFrame) (s : State) : Out :=
  .next (s.receive p m false true true false true 9 (fun t =>
    let x := t.ports[p]
    if x.state = .admitting ∨ (t.linked p ∧ x.renewAt.isSome) then
      let t1 := t.noteRefusal p f.link.toNat f.argument.toNat
      if f.argument = 2 then
        (t1.modPort p (fun y => { y with state := .down, askedAt := none, renewAt := none, oldInc := none, windowEnd := none })).takeIncarnation
      else t1.modPort p (fun y => { y with refusedAt := some t.time.clock, askedAt := none })
    else t))

/-- A booking that a child admitted in its launch tick is expected by, or as a STANDBY child is not awaited by (R240). -/
def Booking.meetsChild (b : Booking) (p : Fin 16) (role : Nat) : Booking :=
  if role = 1 then { b with expected := b.expected ||| (1#16 <<< p.val), standby := b.standby &&& ~~~ (1#16 <<< p.val),
                            state := if b.state = .ready then .closed else b.state }
  else { b with expected := b.expected &&& ~~~ (1#16 <<< p.val), standby := b.standby ||| (1#16 <<< p.val) }

/-- A child admitted in a launch tick is expected by the bookings of that launch, and one admitted as STANDBY stands so in them, whichever of the two comes first in
the tick (R240). -/
def State.expectNow (s : State) (p : Fin 16) (role : Nat) : State :=
  let now := s.porter.bookings.filter (fun b => decide (b.2.launch = s.now) && decide (b.2.state = .opened ∨ b.2.state = .closed ∨ b.2.state = .ready) && !b.2.station)
  now.foldl (fun t b => (t.modBooking b.1 (fun y => y.meetsChild p role)).checkComplete b.1) s

/-- CONFIRM (R234): the parent's port becomes ADMITTED or STANDBY; ADMITTED is posted, ledgered, and credit granted. -/
def execConfirm (p : Fin 18) (m : FrameMeta) (f : AdmitFrame) (s : State) : Out :=
  .next (if h : p.val < 16 then
    s.receive p m true false true false true 9 (fun t =>
      let x := t.ports[p]
      if f.link ≠ x.inc ∨ x.grantAt.isNone then t
      else
        let t0 := if x.role = 1 then t else t.toStandby p
        let t1 := (t0.admitLink p x.role).postLedger (portSource p) 0x20 (x.inc.toNat + 256 * bit (decide (x.role ≠ 1)))
        let t2 := if x.role = 1 ∧ x.state = .admitted then t1 else t1.expectNow ⟨p.val, h⟩ x.role
        (t2.modPort p (fun y => if x.state = .admitted then y else { y with granted := 0, consumed := 0, announced := 0, creditAt := t.time.clock })).raiseGrant ⟨p.val, h⟩)
  else s.receive p m true false true false true 9 (fun t => t))

/-- CLOSE (R237): the partner is declared absent. -/
def execClose (p : Fin 18) (m : FrameMeta) (_f : AdmitFrame) (s : State) : Out :=
  .next (s.receive p m false false true false true 9 (fun t => t.declareAbsent p 3 5))

/-- ROLE (R233): the parent answers GRANT with the new role; on a link not admitted it is dropped. -/
def execRole (p : Fin 18) (m : FrameMeta) (f : AdmitFrame) (s : State) : Out :=
  .next (s.receive p m true false true false true 9 (fun t =>
    if t.linked p ∧ f.link = (t.ports[p]).inc ∧ (f.argument = 1 ∨ f.argument = 2) then
      (t.modPort p (fun x => { x with role := f.argument.toNat, grantAt := some t.time.clock })).sendAdmit p .grant f.link f.argument
    else t))

/-- RENEW (R236): the parent takes the new incarnation without leaving its state, or refuses with STALE. -/
def execRenew (p : Fin 18) (m : FrameMeta) (f : AdmitFrame) (s : State) : Out :=
  .next (s.receive p m true false true false true 9 (fun t =>
    let x := t.ports[p]
    if t.linked p ∧ f.argument = x.inc ∧ f.link ≠ 0 ∧ f.link ≠ f.argument ∧ x.lastInc ≠ some f.link then
      ((t.modPort p (fun y => { y with inc := f.link, oldInc := some x.inc, windowEnd := some (t.time.clock + 16384) })).sendAdmit p .grant f.link
        (BitVec.ofNat 8 x.role)).postLedger (portSource p) 0x2A (f.link.toNat + 256 * x.inc.toNat)
    else (t.sendAdmit p .refuse f.link 2).noteRefusal p f.link.toNat 2))

/-- REQUEST_RETRY (R234): the child sends REQUEST again every 16,384 ticks until it is answered. A port that was declared absent with its lanes up asks afresh; one
refused waits its own time (R235). -/
def execRequestRetry (p : Fin 18) (s : State) : Out :=
  .next (match (s.ports[p]).askedAt with
    | some t => if (s.ports[p]).state = .admitting ∧ t + 16384 ≤ s.time.clock then s.askAdmission p else s
    | none => if (s.ports[p]).state = .absent ∧ (s.ports[p]).refusedAt.isNone then s.askAdmission p else s)

/-- REQUEST_AFTER_REFUSE (R235): the child asks again 1,048,576 ticks after a refusal that was not STALE. -/
def execRequestAfterRefuse (p : Fin 18) (s : State) : Out :=
  .next (match (s.ports[p]).refusedAt with
    | some t => if t + 1048576 ≤ s.time.clock then s.askAdmission p else s
    | none => s)

/-- GRANT_RETRY (R234): a GRANT without a CONFIRM within 16,384 ticks is sent again. -/
def execGrantRetry (p : Fin 16) (s : State) : Out :=
  .next (let x := s.ports[downPort p]
    match x.grantAt with
    | some t =>
      if t + 16384 ≤ s.time.clock then
        (s.modPort (downPort p) (fun y => { y with grantAt := some s.time.clock })).sendAdmit (downPort p) .grant x.inc (BitVec.ofNat 8 x.role)
      else s
    | none => s)

/-- RENEW_RETRY (R236): RENEW is sent again every 16,384 ticks until it is answered. -/
def execRenewRetry (p : Fin 18) (s : State) : Out :=
  .next (let x := s.ports[p]
    match x.renewAt, x.oldInc with
    | some t, some o =>
      if s.linked p ∧ t + 16384 ≤ s.time.clock then
        (s.modPort p (fun y => { y with renewAt := some s.time.clock })).sendAdmit p .renew x.inc o
      else s
    | _, _ => s)

/-- RENEWAL_WINDOW_END (R236): after the window only the new number is taken. -/
def execRenewalWindowEnd (p : Fin 18) (s : State) : Out :=
  .next (match (s.ports[p]).windowEnd with
    | some w => if w ≤ s.time.clock then s.modPort p (fun x => { x with oldInc := none, windowEnd := none }) else s
    | none => s)

end Sys2Proof.Machine
end

