-- ==== Sys2Proof/Machine/AcqOps.lean ====
section
/-! DEFINITION. The shared operations on acquisition (spec/04, 07, 08): milestone words, the free list at start-up, arming and disarming, the monitor
fragments, accepts and bookings, the reduction intervals and their records, and time steps. -/

namespace Sys2Proof.Machine

open Sys2Proof

/-! ### Milestone words (R78) -/

/-- The milestone word of a stream (Table 4.2). -/
def State.milestoneWord (s : State) (m : DWord) (stream : Nat) (step : Bool) : DWord :=
  let flag := fun (f : Domain → Bool) => f s.time.domains[0] || f s.time.domains[1]
  BitVec.ofNat 64 (m.toNat / 2 ^ 20 * 2 ^ 20 + s.time.servo.code * 2 ^ 16 + s.time.active.val * 2 ^ 15 + bit (s.time.sawHoldover || s.inHoldover) * 2 ^ 14 +
    bit step * 2 ^ 13 + bit s.time.sawSwitch * 2 ^ 12 + bit (s.time.servo == .locked) * 2 ^ 11 + bit (flag (fun d => d.masterJump)) * 2 ^ 10 +
    bit (flag (fun d => d.pathChanged)) * 2 ^ 9 + stream * 16 + 2)

/-- What the milestone words have said of holdover and switches since the previous ones begins anew. -/
def State.clearSeen (s : State) : State := { s with time := { s.time with sawHoldover := s.inHoldover, sawSwitch := false } }

/-- The milestone words for `m` enter the streams (R78). -/
def State.milestoneWords (s : State) (m : DWord) (step : Bool) : State :=
  ((s.holdAll (fun t => s.milestoneWord m t.val step) ((m.toNat : Int) * 1024) (2 * s.time.epoch)).monitorWord (s.milestoneWord m 16 step)).clearSeen

/-! ### The free list at the switch-on of PD20 (R178, R269, R287) -/

/-- The entries of a kind of the retirement map in order, each number once (Table 12.8). -/
def retired (es : List Word) (kind limit : Nat) : List Nat :=
  (es.filterMap (fun e => if e.toNat / 2 ^ 30 = kind ∧ e.toNat % 2 ^ 18 < limit then some (e.toNat % 2 ^ 18) else none)).foldl
    (fun a n => if a.contains n then a else a ++ [n]) []

/-- Retired rooms in order take the usable spares in order; a room that finds none is OUT. -/
def assignSpares : List Nat → List Nat → List (Nat × Option Nat)
  | [], _ => []
  | r :: rs, k :: ks => (r, some k) :: assignSpares rs ks
  | r :: rs, [] => (r, none) :: assignSpares rs []

/-- The entries of a retirement map as its bytes hold them (Table 12.8). -/
def retireEntries (bs : List Byte) : List Word :=
  (List.range (min (imageAt bs 4 4) ((bs.length - 16) / 4))).map (fun i => BitVec.ofNat 32 (imageAt bs (16 + 4 * i) 4))

/-- A retirement map of some entries (Table 12.8). -/
def retireImage (es : List Word) : List Byte :=
  let head := natLe 2 0x524D ++ [1, 0] ++ natLe 4 es.length ++ natLe 4 0
  let body := es.flatMap (fun e => natLe 4 e.toNat)
  head ++ natLe 4 (crc32c (head ++ body)).toNat ++ body

/-- The check that a retirement map fails, as RETIRE_MAP_BAD names it (R287, Table 12.9): 1 magic or version, 2 CRC, 3 a reserved field of an entry; 0 for none
(log entry 66). -/
def retireFail (bs : List Byte) : Nat :=
  let n := imageAt bs 4 4
  if imageAt bs 0 2 ≠ 0x524D ∨ imageAt bs 2 1 ≠ 1 then 1
  else if 16380 < n ∨ bs.length < 16 + 4 * n ∨ imageAt bs 12 4 ≠ (crc32c (bs.take 12 ++ (bs.drop 16).take (4 * n))).toNat then 2
  else if (retireEntries bs).any (fun e => decide (e.toNat / 2 ^ 18 % 2 ^ 12 ≠ 0 ∨ e.toNat / 2 ^ 30 = 3)) then 3
  else 0

/-- What a cut append leaves of the map: the words of the new entries written before the cut, behind the old header (R356). -/
def tornMap (old new : List Byte) (words : Nat) : List Byte :=
  if words ≤ (new.length + 7) / 8 then old.take 16 ++ (patch words old new).drop 16
  else patch (words - (new.length + 7) / 8) (old.take 16) new ++ new.drop 16

/-- The porter loads the retirement map and builds the free list (R178, R287). A map that fails its checks is not applied. A free list that is built again while
F was below LOW_WATER takes up there, so that its way up posts RECOVERED (R187). -/
def State.buildFree (s : State) : State :=
  let bad := retireFail s.mram.retirement
  let ok := bad = 0
  let es := if ok then retireEntries s.mram.retirement else []
  let unusable := retired es 1 2048
  let spares := (List.range 2048).filter (fun k => !unusable.contains k)
  let pairs := assignSpares (retired es 0 s.roomsFit) spares
  let outs := (pairs.filter (fun p => p.2.isNone)).length
  let rooms := pairs.foldl (fun m p => sset p.1 (match p.2 with
    | some k => { Room.reset with spare := some k }
    | none => { Room.reset with state := .out }) m) ([] : List (Nat × Room))
  let total := s.roomsFit - outs
  let s1 := s.modPorter (fun p => { Porter.reset with
    total := total, freeCount := total, rooms := rooms, heldSlots := retired es 2 65536, headWaybills := p.headWaybills, inForce := p.inForce
    monSeq := p.monSeq, orderNext := p.orderNext, lowWater := p.lowWater, reserve := p.reserve, chains := vmod Porter.reset.chains 16 (fun c => { c with active := true }) })
  let s2 := ((s1.wr pRoomsFreeMin total).request 16 1).thresholds
  let s3 := if 0 < outs then s2.post 504 2 (min outs 0xFFFF) else s2
  if ok then s3 else s3.postLedger 400 0x0C bad

/-- Whether every memory channel is READY (R270). -/
def State.memReady (s : State) : Bool := (List.finRange 4).all (fun m => (s.mem.channels[m]).state == .ready)

/-! ### Chains at A and D (R150, R151, R182) -/

/-- The history of a tile chain goes (R150): its unpinned rooms return to the free list, pinned ones become DETACHED. -/
def State.clearChain (s : State) (k : Fin 17) : State :=
  let c := s.porter.chains[k]
  let s1 := c.all.foldl (fun t r => if (t.room r).pins = 0 then t.freeRoom r else t.detach r) s
  (s1.modPorter (fun p => { p with requests := p.requests.filter (fun q => q.1 ≠ k.val) })).setChain k { c with rooms := [], next := none, assigned := 0 }

/-- A tile chain starts afresh from `a` (R150): its history goes, and an open room is asked for; its next room follows (R181). -/
def State.startChain (s : State) (k : Fin 17) (a : DWord) : State :=
  ((s.clearChain k).setChain k { active := true, rooms := [], next := none, assigned := 0, held := a, starved := false }).request k.val 1

/-- A tile chain ends with its tile's power (R182): the open room closes TRUNCATED, and the next room granted in advance leaves it. -/
def State.endChain (s : State) (k : Fin 17) : State :=
  let s1 := s.closeOpen k true
  let c := s1.porter.chains[k]
  let s2 := s1.modPorter (fun p => { p with requests := p.requests.filter (fun q => q.1 ≠ k.val) })
  match c.next with
  | some n =>
    let s3 := s2.setChain k { c with next := none, active := false }
    (if (s3.room n).pins = 0 then s3.freeRoom n else s3.detach n).thresholds
  | none => s2.setChain k { c with active := false }

/-- A chain whose open room was closed by a class W reset starts again in a new room (R182): its next room, or a room it asks for. -/
def State.reopenChain (s : State) (k : Fin 17) : State :=
  let s1 := s.closeOpen k true
  let c := s1.porter.chains[k]
  match c.next with
  | some n => (s1.setChain k { c with rooms := c.rooms ++ [n], next := none, assigned := 0 }).request k.val 1
  | none => s1.setChain k { c with assigned := 0 }

/-- The tiles that are powered. -/
def State.tilesOn (s : State) : List (Fin 16) := (List.finRange 16).filter (fun t => s.on t.val)

/-- The chain of a tile. -/
def chainOf (t : Fin 16) : Fin 17 := ⟨t.val, by omega⟩

/-! ### Reduction intervals (R167–R173) -/

/-- The intervals that end at a milestone close: those of the decimations it ends, or all of them at D (R151). -/
def State.closeIntervals (s : State) (m : DWord) (all : Bool) : State :=
  if !s.on 34 then s else
  let ends := fun (d : Nat) => all || decimEnds m d
  let r := s.red
  let pick := fun {α : Type} (old new : Vector α 3) => Vector.ofFn (fun (d : Fin 3) => if ends d.val then new[d] else old[d])
  let running := (List.finRange 256).foldl (fun (b : BitVec 256) ch => if (s.chans[ch]).state = .running then b else b ||| (1#256 <<< ch.val)) 0
  { s with red := { r with
      closing := r.inForce
      ready := r.ready ++ r.accs.filter (fun a => a.kind = 1 ∧ ends a.decim)
      accs := r.accs.filter (fun a => ¬(a.kind = 1 ∧ ends a.decim))
      acqEnded := pick r.acqEnded r.acq, acq := pick r.acq (Vector.replicate 3 AcqAcc.reset)
      stepEnded := pick r.stepEnded r.step, step := pick r.step (Vector.replicate 3 false)
      holdoverEnded := pick r.holdoverEnded r.holdover, holdover := pick r.holdover (Vector.replicate 3 s.inHoldover)
      edgeEnded := pick r.edgeEnded (Vector.ofFn (fun (d : Fin 3) => r.edge[d] || (all && !decimEnds m d.val)))
      edge := pick r.edge (Vector.replicate 3 false)
      unseenEnded := pick r.unseenEnded (Vector.ofFn (fun (d : Fin 3) => r.unseen[d] || (all && !decimEnds m d.val)))
      unseen := pick r.unseen (Vector.replicate 3 false)
      notRunningEnded := pick r.notRunningEnded r.notRunning, notRunning := pick r.notRunning (Vector.replicate 3 running)
      ended := ((List.range 3).filter ends).foldl (fun n d => n + 2 ^ d) 0
      due := some m } }

/-- The reduction settings as written come into force (R173). -/
def State.redInForce (s : State) : State :=
  { s with red := { s.red with inForce := ⟨s.rd pAcqRedChan, s.rd pAcqRedPfe, s.rd pAcqRedPfeMask, s.rd pAcqRedAcq⟩ } }

/-- The reduction unit begins to observe (R168): no running interval of the channels and of the precision front end counts as whole (R170, R171), and of the acquisition
inputs those that start at the arming milestone `a` are seen from their start. -/
def State.beginIntervals (s : State) (a : Option DWord) : State :=
  { s with red := { s.red with accs := [], ready := [], acq := Vector.replicate 3 AcqAcc.reset, step := Vector.replicate 3 false
                               holdover := Vector.replicate 3 s.inHoldover, edge := Vector.replicate 3 true
                               unseen := Vector.ofFn (fun (d : Fin 3) => !a.any (fun m => decimEnds m d.val))
                               notRunning := Vector.replicate 3 (BitVec.allOnes 256), due := none, ended := 0 } }

/-- A field of `n` bits that holds at its largest value, and whether it saturated. -/
def hold (n x : Nat) : Nat × Bool := if x < 2 ^ n then (x, false) else (2 ^ n - 1, true)

/-- A record's three words enter the monitor stream (Tables 7.3, 7.4). -/
def State.emitRecord (s : State) (input kind decim count flags : Nat) (b1 b2 : Nat) : State :=
  let head := input % 256 * 2 ^ 56 + kind * 2 ^ 53 + decim * 2 ^ 51 + count * 2 ^ 27 + flags * 2 ^ 20
  ((s.monitorWord (BitVec.ofNat 64 head)).monitorWord (BitVec.ofNat 64 (b1 * 4 + 1))).monitorWord (BitVec.ofNat 64 (b2 * 4 + 1))

/-- The record of an accumulator that has ended (R168–R171). -/
def State.emitAcc (s : State) (kind input d : Nat) : State :=
  let a := ((s.red.ready.find? (fun x => x.kind = kind ∧ x.input = input ∧ x.decim = d)).getD (RedAcc.fresh kind input d))
  let i : Fin 3 := ⟨d % 3, Nat.mod_lt d (by decide)⟩
  let off := kind = 0 ∧ (s.red.notRunningEnded[i]).getLsbD input
  let (count, sat) := hold 24 a.count
  let part := (s.red.edgeEnded[i]) || decide off
  let flags := bit a.ovr + 2 * bit a.isOpen + 4 * bit a.unsettled + 8 * bit s.red.holdoverEnded[i] + 16 * bit s.red.stepEnded[i] + 32 * bit sat + 64 * bit part
  s.emitRecord input kind d count flags (unsigned 62 a.sum) ((unsigned 24 a.max * 2 ^ 40 + unsigned 24 a.min * 2 ^ 16) / 4)

/-- The record of an acquisition input (R172, Table 7.5). -/
def State.emitAcq (s : State) (input d : Nat) : State :=
  let i : Fin 3 := ⟨d % 3, Nat.mod_lt d (by decide)⟩
  let a := s.red.acqEnded[i]
  let (count, s1) := hold 24 (a.refused[input]?.getD 0)
  let (dead, s2) := hold 62 (a.dead[input]?.getD 0)
  let (hon, s3) := if input = 0 then hold 24 a.honoured else (0, false)
  let (rec_, s4) := if input = 0 then hold 24 a.received else (0, false)
  let flags := 8 * bit s.red.holdoverEnded[i] + 16 * bit s.red.stepEnded[i] + 32 * bit (s1 || s2 || s3 || s4) + 64 * bit s.red.unseenEnded[i]
  s.emitRecord input 3 d count flags dead ((hon * 2 ^ 40 + rec_ * 2 ^ 16) / 4)

/-- The records of the intervals that ended at the milestone due, in the order of R173. -/
def State.emitRecords (s : State) : State :=
  if s.red.due.isNone then s
  else if !s.on 34 then { s with red := { s.red with due := none, ready := [] } }
  else
    let f := s.red.closing
    let decims := bitsOf s.red.ended 3
    let s1 := decims.foldl (fun t d =>
      let t1 := if f.chan.testBit d then
          (List.finRange 256).foldl (fun u ch => if u.on (tileOf ch).val ∧ (u.chans[ch]).state ≠ .disabled then u.emitAcc 0 ch.val d else u) t else t
      let t2 := if f.pfe.testBit d then (bitsOf f.pfeMask 32).foldl (fun u i => u.emitAcc 1 i d) t1 else t1
      if f.acq.testBit d then (List.range 5).foldl (fun u i => u.emitAcq i d) t2 else t2) s
    { s1 with red := { s1.red with due := none, ended := 0, ready := s1.red.ready.filter (fun a => !decims.contains a.decim) } }

/-! ### Arming and disarming (R150, R151) -/

/-- The arming milestone A (R150, R166), with which the cold start is complete (R354). -/
def State.armNow (s : State) (a : DWord) : State :=
  let s0 := (List.finRange 16).foldl (fun t k => if t.on k.val then t.startChain (chainOf k) a else t.clearChain (chainOf k)) s
  let s1 := s0.setChain 16 { s0.porter.chains[(16 : Fin 17)] with held := a }
  let s2 := ({ s1 with acq := { s1.acq with state := .armed, armTick := a, armedTicks := 0, deadTicks := 0, deadMask := 0, deadFrom := 0 } } : State).beginIntervals (some a)
  let s3 := s2.eachChan State.armChan
  ((s3.thresholds.post 497 1 (a.toNat / 2 ^ 20 % 0x10000)).reachStage 7).lookDead

/-- The disarming milestone D (R151): each tile's milestone word waits for its hits; the monitor stream takes its own. A step that takes effect at D is said in
those words; they are the last of their streams, so that no STEP word follows (R80, R151). -/
def State.disarmNow (s : State) (d : DWord) (step : Bool) : State :=
  let s1 := s.eachChan State.disarmChan
  let s2 := s1.tilesOn.foldl (fun t k => t.modTile k (fun x => { x with disarmWord := some (s.milestoneWord d k.val step) })) s1
  let s3 := ((s2.closeIntervals d true).monitorWord (s2.milestoneWord d 16 step)).clearSeen
  let s4 : State := { s3 with acq := { s3.acq with state := .disarmed, disarmTick := d } }
  (s4.lookDead).post 497 2 (d.toNat / 2 ^ 20 % 0x10000)

/-- A memory channel leaves READY while the device is armed (R270): it disarms in the same tick; every booking held is freed with a head waybill alone,
PARTIAL and CORRUPT; the free list is built again once all channels are READY. The channels that stay READY keep the accesses that no booking asked for: the rewrites of
levels 1, which only a write cancels (R277), and the reads of the night watch. -/
def State.faultDisarm (s : State) : State :=
  if !s.streaming then s else
  let s1 := s.eachChan State.disarmChan
  let s2 := s1.porter.bookings.foldl (fun t b => (t.sendHead (t.headAlone b.2.event b.2.start b.2.length true)).releaseBooking b.1) s1
  let s3 : State := { s2 with
    acq := { s2.acq with state := .disarmed, disarmTick := s.now }
    tiles := s2.tiles.map (fun (t : TileState) => { t with held := [], output := [], disarmWord := none })
    mem := { s2.mem with channels := s2.mem.channels.map (fun (c : MemChannel) => { c with
                              hits := [], merge := [], general := c.general.filter (fun a => c.state == .ready && (a.level == 1 || a.level == 4)) }) }
    porter := { s2.porter with rebuild := true, chains := Porter.reset.chains, requests := [], monQueue := [] }
    red := { s2.red with accs := [], ready := [], due := none, ended := 0 } }
  ((s3.dropReadouts (fun _ => true)).lookDead).post 497 2 (s.now.toNat / 2 ^ 20 % 0x10000)

/-! ### Accepts (R152–R163) -/

/-- A station-mode submission completes (R163). -/
def State.finishStation (s : State) (station : Option (Fin 128)) (st : Status) : State :=
  match station with
  | some e => s.modEng e (fun x => { x with accGo := ⟨st.code, false⟩ })
  | none => s

/-- The close tick of a booking (R155): C = S + W + ACQ.TAIL, with the ACQ.TAIL of its receipt (log entry 21). -/
def closeTick (a : Accept) (tail : Nat) : DWord := a.start + a.length.setWidth 64 + BitVec.ofNat 64 tail

/-- The rooms that a booking would pin at its launch: of each included tile's chain (R184). -/
def State.launchRanges (s : State) (a : Accept) (tail : Nat) : List (Nat × List Nat) :=
  s.includedTiles.map (fun t => (t.val, s.rangeOf (s.porter.chains[chainOf t]) a.start a.length (before a.launch (closeTick a tail))))

/-- The launch checks of Table 7.1 in order: the cause of refusal, if any. -/
def State.launchCause (s : State) (a : Accept) (r : Receipt) : Option Nat :=
  if !s.streaming ∨ (s.acq.state = .disarmPending ∧ atOrBefore s.acq.disarmTick a.launch) then some 6
  else if (a.launch - s.acq.armTick).toInt < r.pretrig then some 7
  else if s.includedTiles.any (fun t => before a.start (s.porter.chains[chainOf t]).held) then some 8
  else if (s.booking (slotOf a.event)).isSome ∨ s.porter.heldSlots.contains (slotOf a.event) then some 9
  else if s.porter.bookings.length = r.maxBookings then some 10
  else if 15 ≤ s.openBookings ∨ (s.launchRanges a r.tail).any (fun q => q.2.any (fun k => 15 ≤ (s.room k).pins)) then some 11
  else if s.belowLow then some 12
  else none

/-- The index room of a booking is written (Table 8.4): each chain's range, and the child records stored so far. -/
def State.fillIndex (s : State) (b : Booking) (room : Nat) : State :=
  (List.range 32).foldl (fun t e => t.pushWrite 2 (t.roomAddr room / 8 + e) (
    let first := fun (rooms : List Nat) (n : Nat) => match rooms.head? with
      | some r => BitVec.ofNat 64 (r + 0x40000 + n * 2 ^ 32)
      | none => 0
    if e < 16 then match b.ranges.find? (fun q => q.1 = e) with
      | some q => first q.2 q.2.length
      | none => 0
    else match b.children.find? (fun c => c.port + 16 = e ∧ b.reported.getLsbD c.port) with
      | some c => first c.rooms c.bytes
      | none => 0)) s

/-- A booking opens (R155, R157, R184, R185, R188, R190): its range is pinned, its record enters the cache, and its index room is asked for (R193). -/
def State.openBooking (s : State) (a : Accept) (station : Bool) (tail : Nat) : State :=
  let slot := slotOf a.event
  let close := closeTick a tail
  let ranges := s.launchRanges a tail
  let pinned := ranges.flatMap (·.2)
  let inW := fun (m : DWord) => inWindow a.start a.length m
  let st : BookState := if before a.launch close then .opened else if station ∨ s.expectedMask = 0 then .ready else .closed
  let b : Booking :=
    { event := a.event, state := st, station := station, step := s.time.stepAt.any inW, suspect := pinned.any (fun r => (s.room r).suspect),
      truncated := pinned.any (fun r => (s.room r).truncated), corrupt := false, expected := if station then 0 else s.expectedMask, start := a.start,
      length := a.length, launch := a.launch, close := close, reported := 0, absent := 0, enabled := s.enabledMask, standby := s.standbyMask,
      index := none, ranges := ranges, children := [], ownBytes := 0, order := s.porter.orderNext }
  let s2 := pinned.foldl (fun t r => t.modRoom r (fun x => { x with pins := x.pins + 1 })) s
  let s3 := s2.modPorter (fun p => { p with bookings := p.bookings ++ [(slot, b)], orderNext := p.orderNext + 1 })
  let s4 := s3.modBooking slot (fun x => { x with ownBytes := if st = .opened then 0 else s3.ownBytes (.booking slot) })
  let s6 := (((s4.touch slot).request 33 1).bump pAcqCntAccepts).modAcqAcc (fun x => { x with honoured := x.honoured + 1 })
  (s6.lookBacklog).lookDead

/-- A booking opening falls due (R157, R160, R163). -/
def State.launchBooking (s : State) (a : Accept) (station : Option (Fin 128)) (r : Receipt) : State :=
  if !s.on 20 then s.finishStation station .denied
  else match s.launchCause a r with
    | some c => (s.refuseAccept c a station.isSome).finishStation station .denied
    | none => (s.openBooking a station.isSome r.tail).finishStation station .ok

/-- Whether a booking is held or a launch pending with an event number (Table 7.1, DUPLICATE). -/
def State.duplicate (s : State) (event : Word) : Bool :=
  s.porter.bookings.any (fun b => b.2.event == event) || s.time.queue.any (fun e => match e with
    | .booking a _ _ => a.event == event
    | .frame _ _ _ _ => false)

/-- The receipt checks of Table 7.1 after INVALID, in order. -/
def State.receiptCause (s : State) (a : Accept) (station : Bool) : Option Nat :=
  let mode := s.rd pAcqStation
  if s.duplicate a.event then some 2
  else if atOrBefore a.launch s.now then some 3
  else if 256 ≤ s.time.queue.length then some 4
  else if (station ∧ (mode = 0 ∨ !s.isLeaf)) ∨ (!station ∧ mode = 1) then some 5
  else none

/-- An accept enters the launch queue (R161): of the accepts that enter in one cycle, those of frames go first, by port, then station mode's by engine. -/
def State.enterLaunch (s : State) (a : Accept) (station : Option (Fin 128)) (r : Receipt) : State :=
  let earlier := fun (e : LaunchEntry) => match e with
    | .booking _ _ x => decide (x.entered ≠ r.entered ∨ x.place ≤ r.place)
    | .frame _ _ _ _ => true
  s.setTime { s.time with queue := s.time.queue.takeWhile earlier ++ [.booking a station r] ++ s.time.queue.dropWhile earlier }

/-- An accept reaches the receipt checks (R25, R97, R152, R157, R160, R163): refused with its cause, or entered in the launch queue. A station-mode accept takes
its event number once it is past INVALID. `port` is that of an ACCEPT frame. -/
def State.receiveAccept (s : State) (a : Accept) (station : Option (Fin 128)) (port : Nat) : State :=
  if !s.on 20 then s.finishStation station .denied else
  let s0 := s.modAcqAcc (fun x => { x with received := x.received + 1 })
  if a.length = 0 ∨ s.rd pAcqWindowMax < a.length.toNat ∨ (station.isNone ∧ a.event.msb) then
    (s0.refuseAccept 1 a station.isSome).finishStation station .badarg
  else
    let seq := s.acq.stationSeq
    let a1 : Accept := if station.isSome then { a with event := 0x80000000#32 ||| seq.setWidth 32 } else a
    let s1 : State := if station.isSome then { s0 with acq := { s0.acq with stationSeq := seq + 1 } } else s0
    match s1.receiptCause a1 station.isSome with
    | none => s1.enterLaunch a1 station ⟨s.rd pAcqPretrig, s.rd pAcqMaxBookings, s.rd pAcqTail, s.time.clock, (station.map (fun e => 18 + e.val)).getD port⟩
    | some c =>
      let s2 := if c = 3 then s1.launchMissed 1 (a1.event.toNat % 0x10000) else if c = 4 then s1.queueFull 1 else s1
      (s2.refuseAccept c a1 station.isSome).finishStation station .denied

/-! ### The launch queue (R96, R97) -/

/-- The first entry of the launch queue that is due: the earliest launch tick, and among equal ticks the first that entered (R161). -/
def State.dueLaunch (s : State) : Option LaunchEntry :=
  (s.time.queue.filter (fun e => atOrBefore e.tick s.now)).foldl (fun a e => match a with
    | some x => if before e.tick x.tick then some e else a
    | none => some e) none

/-- A launched frame waits at rank 2 on its port, with its launch tick (R96, R225). -/
def State.launchFrame (s : State) (tick : DWord) (port : Fin 16) (f : LaunchFrame) (tag : Half) : State :=
  let body : TxBody := match f with
    | .accept a => .accept a
    | .test t => .test t
    | .ctrl mb hops route block => .ctrl
        { up := false, bcast := false, mailbox := mb, hops := hops, route := route, source := 0, array := 0, block := block }
  let x := s.ports[downPort port]
  if (x.state = .admitted ∨ x.state = .standby) ∧ x.carries body then
    s.modPort (downPort port) (fun x => { x with tx := x.tx ++ [⟨body, some tick, tag, false, 0⟩] })
  else s.post 452 2 tag.toNat

/-- One due entry is acted on. -/
def State.launchOne (s : State) : State :=
  match s.dueLaunch with
  | none => s
  | some e =>
    let s1 := s.setTime { s.time with queue := s.time.queue.erase e }
    match e with
    | .booking a st r => s1.launchBooking a st r
    | .frame t p f tag => s1.launchFrame t p f tag

/-- Every due entry is acted on, in launch-tick order. -/
def State.launchDue (s : State) : State := (List.range s.time.queue.length).foldl (fun t _ => t.launchOne) s

/-! ### Steps (R80, R88, R92) -/

/-- A forward step from one tick to another that passes the target of a WAITING engine wakes it at the step (R118). -/
def State.wakeWaiting (s : State) (old new : DWord) : State :=
  { s with engines := s.engines.map (fun (x : Engine) =>
    if x.state = .waiting ∧ (x.waitTarget - shortTick old).toInt ≤ (new - old).toInt then { x with state := .running } else x) }

/-- A domain sees a step of `ns` units of 2⁻¹⁶ ns: what it has measured of its offset moves with device time. -/
def Domain.stepped (d : Domain) (ns : Int) : Domain :=
  { d with offset := d.offset + ns, raw := d.raw + ns, recent := d.recent.map (· + ns), jumps := d.jumps.map (· + ns)
           collecting := d.collecting.map (fun c => (c.1, c.2 + c.1 * ns)) }

/-- The STEP entry of a step (R88, R330): that of a command is committed at its milestone; where its batch cannot start then it waits in the buffer, as an entry of
origin 0 does (log entry 76). -/
def State.commitStep (s : State) (e : LedgerEntry) : State :=
  if e.origin < 2 ∨ s.mram.running.isSome then s.ledgerLater e
  else match s.commitNow e with
    | (true, s1) => s1
    | (false, s1) => s1.ledgerLater e

/-- A time step takes effect at a milestone of the old time (R80): the tick and fine base change, the STEP control word enters the streams, and everything that
time touches sees it. A first step still planned makes up for what this step has moved, at the first milestone of the new time it falls on (log entry 76). -/
def State.applyStep (s : State) (m : DWord) (delta : Int) (origin command tag : Nat) : State :=
  let total : Int := (m.toNat : Int) * 1024 + delta
  let t := s.time
  let s1 : State := { s with
    time := { t with tick := BitVec.ofInt 64 (total / 1024), fine := BitVec.ofInt 10 (total % 1024), epoch := t.epoch + 1,
                     lastStep := delta, stepAt := m :: t.stepAt, lastMilestone := none
                     firstStep := t.firstStep.map (fun f => (milestoneAt (f.1 + BitVec.ofInt 64 (delta / 1024)), f.2.1 - delta, f.2.2))
                     domains := t.domains.map (fun (d : Domain) => d.stepped (fineToNs16 delta)) }
    red := { s.red with step := Vector.replicate 3 true }
    porter := { s.porter with
      bookings := s.porter.bookings.map (fun b => (b.1, { b.2 with step := b.2.step || inWindow b.2.start b.2.length m })) } }
  let s2 := s1.timeControl 0x101 s1.time.fine.toNat
  let n := (s.rd pTimeSteps + 1) % 2 ^ 32
  let s3 := ((s2.wr pTimeSteps n).post 451 2 (n % 0x10000)).commitStep
    { s2.entry origin 4 command (m.toNat / 2 ^ 20 % 2 ^ 32) (unsigned 64 delta % 2 ^ 32) (unsigned 64 delta / 2 ^ 32) tag with tick := m }
  (s3.refStep s.nowFine).wakeWaiting m s1.now

/-- The flag MASTER_JUMP of a domain clears (R91, R92). -/
def State.clearJump (s : State) (d : Fin 2) (how : Nat) : State :=
  let x := s.time.domains[d]
  if !x.masterJump then s
  else (s.setDomain d { x with masterJump := false, jumps := [], within := 0 }).post (449 + d.val) 4 how

/-- The step that is to take effect at a milestone: a pending re-step, else the first step (R88, R92). Of a domain in MASTER_JUMP, whose tracker is frozen, ADOPT takes the
filtered offset as it stood before the jump: R92 names the filtered offset and no other (log entry 76). -/
def State.stepAtMilestone (s : State) (m : DWord) : Option (Bool × Int) :=
  let first := match s.time.firstStep with
    | some (t, d, _) => if atOrBefore t m then some (true, d) else none
    | none => none
  match s.time.restep with
  | some r =>
    if atOrBefore r.milestone m then some (false, if r.adopt then -(ns16ToFine (s.time.domains[r.domain]).offset) else r.delta) else first
  | none => first

/-- The servo after a re-step (R87, R92): COARSE where it follows a domain or is in HOLDOVER, which it leaves with the words of an exit; in the states that have
had no step, and in MASTER, it stays (log entry 76). -/
def State.servoRestep (s : State) : State :=
  if s.inHoldover then s.leaveHoldover .coarse else if s.time.servo.follows then s.setServo .coarse else s

/-- The step of a milestone is applied (R80, R88, R92). -/
def State.stepNow (s : State) (m : DWord) : State :=
  match s.stepAtMilestone m with
  | none => s
  | some (true, delta) =>
    let dom := (s.time.firstStep.map (fun f => f.2.2)).getD s.time.active
    ((((s.setTime { s.time with firstStep := none, stepped := true }).activate dom).applyStep m delta 0 0 0)).setServo .coarse
  | some (false, delta) =>
    match s.time.restep with
    | none => s
    | some r =>
      let s1 := ((s.setTime { s.time with restep := none, bothJumped := false }).applyStep m delta r.origin.code 0x0503 r.tag.toNat).servoRestep
      ([0, 1] : List (Fin 2)).foldl (fun t d =>
        if (r.adopt && r.domain == d) || (!r.adopt && decide ((t.time.domains[d]).raw.natAbs ≤ t.stepLimit.toNat)) then t.clearJump d 2 else t) s1

end Sys2Proof.Machine
end

