-- ==== Sys2Proof/Machine/MemChan.lean ====
section
/-! DEFINITION. The shared operations on the memory channels (spec/12): slots, training and faults. -/

namespace Sys2Proof.Machine

open Sys2Proof

/-- Whether a channel serves accesses. -/
def State.memServes (s : State) (m : Fin 4) : Bool := (s.mem.channels[m]).state == .ready

/-- The waiting access that a G slot of a port serves (R273): of the lowest level, the oldest; a read waits for the merge-buffer entry of its word that left before it (R282). -/
def State.frontAccess (s : State) (m : Fin 4) (p : MemPort) : Option Access :=
  firstAccess ((s.mem.channels[m]).general.filter (fun a => onPort p a.word))

/-- The word number of a waiting hit write. -/
def State.hitWordNo (s : State) (h : HitWrite) : Nat := s.roomAddr h.room / 8 + h.index

/-- The oldest hit write of a port (R272). -/
def State.frontHit (s : State) (m : Fin 4) (p : MemPort) : Option HitWrite :=
  (s.mem.channels[m]).hits.find? (fun h => onPort p (s.hitWordNo h))

/-- The poison marker word (Table 12.6), of the tile in whose range a booking holds the room. -/
def State.poisonMarker (s : State) (src : ReadSource) (room index : Nat) (fresh : Bool) : DWord :=
  let x := s.room room
  let tile : Nat := match src with
    | .booking slot => (((s.booking slot).bind (fun b => b.ranges.find? (fun q => q.2.contains room))).map (fun q => q.1)).getD 0
    | _ => 0
  controlWord (16 * tile) (BitVec.ofNat 30 (x.min * 1024)) 0x201 (index + 32 * bit fresh)

/-- A stored child record met a damaged word (R280, R242): it is discarded, its port marked absent and CORRUPT set; a record that is passed on is dropped. -/
def State.damagedStored (s : State) (src : ReadSource) (port : Nat) : State :=
  match src with
  | .booking slot =>
    let rooms : List Nat := ((s.booking slot).map (fun b => (b.children.filter (fun c => c.port = port)).flatMap (fun c => c.rooms))).getD []
    let event := ((s.booking slot).map (fun b => b.event.toNat)).getD 0
    let mine := fun (a : Access) => match a.op with
      | .read (.child x q _) => x = src ∧ q = port
      | _ => false
    let left := ((List.finRange 4).map (fun m => ((s.mem.channels[m]).general.filter (fun a => mine a)).length)).foldl (· + ·) 0
    let s1 := { s with mem := { s.mem with channels := s.mem.channels.map (fun (c : MemChannel) => { c with general := c.general.filter (fun a => !mine a) }) } }
    let s2 := (s1.modBooking slot (fun b => { b with
      children := b.children.filter (fun c => c.port ≠ port), absent := b.absent ||| (1#16 <<< port), corrupt := true })).freeRooms rooms
    let s3 := (s2.bump (pPortPCntDamaged port)).post (433 + port) 0x26 (event % 0x10000)
    (s3.modReadout src (fun r => { r with awaiting := r.awaiting - left })).thresholds
  | .pass id =>
    let rooms : List Nat := ((s.porter.pass.find? (fun e => e.id = id)).map (fun e => e.rooms)).getD []
    ((((s.modPorter (fun p => { p with pass := p.pass.filter (fun e => e.id ≠ id) })).freeRooms rooms).bump pPortCntPassFull).dropReadouts (fun x => x == src)).thresholds
  | .monitor _ => s

/-- One general access is performed (R273–R282). -/
def State.serve (s : State) (a : Access) : State :=
  match a.op with
  | .corrected w => s.setMem (s.mem.write a.word w)
  | .poison => s.setMem ({ s.mem with poisoned := a.word :: s.mem.poisoned.filter (fun k => k ≠ a.word) }.store a.word 0 0x03)
  | .write w => (s.writeWord a.word w).wroteWord a.word w
  | .modify bytes =>
    let s0 := s.bump (pMemCCntMerge (a.word % 4))
    match s0.readWord a.word 3 2 2 true with
    | (.data d, s1) =>
      let old := natLe 8 d.toNat
      let new := (List.range 8).map (fun i => match bytes.find? (fun b => b.1 = i) with
        | some b => b.2
        | none => old[i]?.getD 0)
      let d := BitVec.ofNat 64 (leNat new)
      (s1.writeWord a.word d).wroteWord a.word d
    | (.bad _, s1) => s1
  | .read (.own src room index) =>
    let (res, s1) := s.readWord a.word 7 3 3 true
    let w := match res with
      | .data d => d
      | .bad fresh => s1.poisonMarker src room index fresh
    (s1.modReadout src (fun r => { r with awaiting := r.awaiting - 1, words := r.words ++ [(room, index, w)] })).readDone src
  | .read (.child src port index) =>
    let (res, s1) := s.readWord a.word 7 3 3 true
    let s2 := s1.modReadout src (fun r => { r with awaiting := r.awaiting - 1 })
    match res with
    | .data d => (s2.modReadout src (fun r => { r with childWords := r.childWords ++ [(port, index, d)] })).readDone src
    | .bad _ => (s2.damagedStored src port).readDone src
  | .read (.record slot i) => let (res, s1) := s.readWord a.word 2 2 2 true; s1.fetched slot i res
  | .read (.index slot i) => let (res, s1) := s.readWord a.word 2 2 2 true; s1.fetched slot i res
  | .read .night => (s.readWord a.word 4 4 4 false).2
  | .read .none => s

/-- A G slot of a port (R273): the first waiting access leaves its queue and is performed. -/
def State.slotG (s : State) (m : Fin 4) (p : MemPort) (flips : BitVec 72) : State :=
  match s.frontAccess m p with
  | none => s
  | some a =>
    let c := s.mem.channels[m]
    let s1 := s.setChannel m { c with general := c.general.erase a }
    (s1.setMem (s1.mem.upset a.word flips)).serve a

/-- The open room of a chain, and the room after it, close as they are full (R181). -/
def State.fillRooms (s : State) (k : Fin 17) : Nat → State
  | 0 => s
  | n + 1 =>
    match (s.porter.chains[k]).rooms.getLast? with
    | some r => if (s.room r).state = .opened ∧ (s.room r).count = 32 then (s.roomFull k r).fillRooms k n else s
    | none => s

/-- A hit word is written into its room (R177, R181, R272), a merge-buffer entry of its word is discarded (R282), and the words that the crossing held follow. -/
def State.writeHit (s : State) (m : Fin 4) (h : HitWrite) : State :=
  let c := s.mem.channels[m]
  let s1 := (s.setChannel m { c with hits := c.hits.erase h, merge := c.merge.filter (fun x => x.word ≠ s.hitWordNo h) }).writeWord (s.hitWordNo h) h.data
  let s2 := s1.modRoom h.room (fun x => x.wrote h.index (some h.tick) s.now)
  match idx? 17 h.chain with
  | some k => (s2.fillRooms k 2).drainAll
  | none => s2

/-- A channel enters FAULT (R270, R289): posted, ledgered, and while armed the device disarms at once. -/
def State.memFault (s : State) (m : Fin 4) (cause : Nat) : State :=
  let c := s.mem.channels[m]
  let was := c.state == .ready
  let s1 := (s.setChannel m { c with state := .fault, cause := cause }).postLedger (400 + m.val) 8 cause
  if was then s1.faultDisarm else s1

/-- A channel begins to train under the settings as written (R270, R290). -/
def State.startTraining (s : State) (m : Fin 4) : State :=
  let c := s.mem.channels[m]
  if !s.on (16 + m.val) then s
  else if !s.lanes.refclk128 then s.memFault m 4
  else s.setChannel m { c with state := .training, cause := 0, freq := s.rd pMemFreq, density := s.rd pMemDensity, ap := s.rd pMemApEn, dinv := s.rd pMemDinv }

/-- A write of 1 to MEM.RETRAIN (R270): DENIED while acquisition is armed. -/
def State.retrainMem (s : State) : Status × State :=
  if s.streaming then (.denied, s) else (.ok, (List.finRange 4).foldl State.startTraining s)

end Sys2Proof.Machine
end

