-- ==== Sys2Proof/Machine/Porter.lean ====
section
/-! DEFINITION. The commands of the porter and the compression units (spec/08, 09): grants, bookings, the readout schedule and the units' passes. -/

namespace Sys2Proof.Machine

open Sys2Proof

/-! ### Grants (R181, R193, R194) -/

/-- One room of a requester's request has been granted. -/
def State.granted (s : State) (who : Nat) : State :=
  s.modPorter (fun p => { p with
    requests := (p.requests.map (fun r => if r.1 = who then (r.1, r.2 - 1) else r)).filter (fun r => 0 < r.2)
    pointer := (who + 1) % 34, lastChain := if who ≤ 16 then who else p.lastChain })

/-- A chain finds no room (R181): it starves, counted, posted and ledgered once. -/
def State.starve (s : State) (k : Fin 17) : State :=
  let c := s.porter.chains[k]
  if c.starved then s
  else ((s.setChain k { c with starved := true }).bump pRoomsCntStarved).postLedger 501 4 k.val

/-- A chain takes the head of the free list as its next room. -/
def State.grantHead (s : State) (k : Fin 17) : Option State :=
  match s.takeHead with
  | some (r, s1) => some ((s1.granted k.val).joinNext k r)
  | none => none

/-- A chain's grant (R181, R187): the free list above the reserve, recycling, the room of a dropped monitor fragment, or the last free rooms. `free0` is the free
count at the start of the cycle: a chain that finds the last room taken in its own cycle waits. -/
def State.grantChain (s : State) (k : Fin 17) (free0 : Nat) : Option State × State :=
  if !s.atReserve then (s.grantHead k, s)
  else
    match if k.val < 16 then (s.granted k.val).recycle k else none with
    | some t => (some t, s)
    | none =>
      let s1 := if k.val = 16 then s.dropOldest else s
      match s1.grantHead k with
      | some t => (some t, s1)
      | none => (none, if free0 = 0 then s1.starve k else s1)

/-- A FRAGMENT room joins the record that a downstream port receives (R23, R188); the frames that wait for it are stored. -/
def State.grantFragment (s : State) (p : Fin 16) : Option State × State :=
  match (s.ports[downPort p]).rxWait.find? (fun w => s.waitsRoom p w) with
  | none => (none, s.refreshRequest p)
  | some rx =>
    match s.takeHead with
    | none => (none, s)
    | some (r, s1) =>
      let slot := match rx.target with
        | .booking k => k
        | _ => 0
      let old := s.targetRooms p rx.target
      let bad := (s1.room r).suspect
      let s2 := s1.takeRoom r .fragment 17 slot 1
      let s3 := match old.getLast? with
        | some o => s2.linkRooms o r
        | none => s2
      let s4 := match rx.target with
        | .booking k =>
          let t := s3.modBooking k (fun b => { b with
            suspect := b.suspect || bad, children := b.children.map (fun c => if c.port = p.val then { c with rooms := c.rooms ++ [r] } else c) })
          if old.isEmpty then t.indexPort k p else t
        | .pass id => s3.modPorter (fun q => { q with pass := q.pass.map (fun e => if e.id = id then { e with rooms := e.rooms ++ [r] } else e) })
        | .drop => s3.freeRoom r
      (some ((s4.granted (17 + p.val)).drainRx p 64), s4)

/-- An INDEX room is granted to the first booking that has none (R188, R193): it is pinned by it and written. -/
def State.grantIndex (s : State) : Option State × State :=
  match s.porter.bookings.find? (fun b => b.2.index.isNone) with
  | none => (none, s.modPorter (fun p => { p with requests := p.requests.filter (fun r => r.1 ≠ 33) }))
  | some (slot, b) =>
    match s.takeHead with
    | none => (none, s)
    | some (r, s1) =>
      let s2 := (s1.takeRoom r .index 18 slot 1).modBooking slot (fun x => { x with index := some r, suspect := x.suspect || (s1.room r).suspect })
      (some ((s2.fillIndex b r).granted 33), s)

/-- One requester's grant. -/
def State.grantOne (s : State) (who free0 : Nat) : Option State × State :=
  match idx? 17 who with
  | some k => s.grantChain k free0
  | none => match idx? 16 (who - 17) with
    | some p => s.grantFragment p
    | none => s.grantIndex

/-- The requests present in their order, until two grants are made. -/
def State.grants (s : State) (free0 : Nat) : Nat → List Nat → State
  | 0, _ => s
  | _, [] => s
  | n + 1, w :: ws =>
    match s.grantOne w free0 with
    | (some t, _) => t.grants free0 n ws
    | (none, t) => t.grants free0 (n + 1) ws

/-- ROOM_GRANT (R193): the allocator grants up to 2 waiting requests, round-robin from the pointer; words that waited for a room follow. -/
def execRoomGrant (s : State) : Out :=
  .next (if !s.on 20 then s else
    let present := (List.range 34).filter (fun w => s.porter.requests.any (fun r => r.1 = w))
    let order := present.filter (fun w => s.porter.pointer ≤ w) ++ present.filter (fun w => w < s.porter.pointer)
    (((s.grants s.porter.freeCount 2 order).thresholds).drainAll).lookDead)

/-! ### Bookings (R189, R190) -/

/-- BOOKING_CLOSE (R190, R162): a booking's close tick C is reached: READY on a leaf, CLOSED on a branch until it is complete. -/
def execBookingClose (slot : Half) (s : State) : Out :=
  .next (match s.booking slot.toNat with
    | none => s
    | some b =>
      if b.state ≠ .opened ∨ before s.now b.close then s else
      let k := slot.toNat
      let s1 := s.modBooking k (fun x => { x with state := if x.expected = 0 then .ready else .closed, ownBytes := s.ownBytes (.booking k) })
      (((s1.checkComplete k).touch k).lookBacklog).lookDead)

/-- BOOKING_FETCH (R189): a record missing from the cache is fetched: its words are read in the non-hit slots, and the last of them decides.
`flips` are the bits of one word of the record upset since it was last accessed (log entry 15). -/
def execBookingFetch (slot : Half) (word : Fin 8) (flips : BitVec 72) (s : State) : Out :=
  .next (if s.fetchable slot.toNat then (s.setMem (s.mem.upset (8 * slot.toNat + word.val) flips)).startFetch slot.toNat else s)

/-! ### The readout schedule (R191, R192) -/

/-- The first of a class: the earliest tick under R77, and among equal ticks the lowest order. -/
def firstWaiting (ws : List (ReadSource × DWord × Nat)) : Option ReadSource :=
  (ws.foldl (fun (a : Option (ReadSource × DWord × Nat)) w => match a with
    | some x => if before w.2.1 x.2.1 || (w.2.1 == x.2.1 && decide (w.2.2 < x.2.2)) then some w else a
    | none => some w) none).map (·.1)

/-- The visits a class needs until its deficit is above 0, where it gains `gain` at each. -/
def visits (deficit : Int) (gain : Nat) : Option Nat :=
  if gain = 0 then none
  else if 0 < deficit then some 1
  else some ((-deficit / gain).toNat + 1)

/-- The choice of R191: the source to start and the deficits and turn after it. -/
def State.chooseReadout (s : State) : Option (ReadSource × Int × Int × Bool) :=
  let q := 4096
  let gT := s.roomsItem pRoomsWTrig * q
  let gM := s.roomsItem pRoomsWMon * q
  let dT := s.porter.deficitT
  let dM := s.porter.deficitM
  match firstWaiting s.waitingT, firstWaiting s.waitingM with
  | none, none => none
  | some t, none => some (t, 0, 0, false)
  | none, some m => some (m, 0, 0, true)
  | some t, some m =>
    let bT : Int := s.fragmentBytes t
    let bM : Int := s.fragmentBytes m
    if !s.porter.turnM ∧ 0 < dT then some (t, dT - bT, dM, false)
    else if s.porter.turnM ∧ 0 < dM then some (m, dT, dM - bM, true)
    else
      let kT := visits dT gT
      let kM := visits dM gM
      let mFirst := !s.porter.turnM
      let takeT : Bool := match kT, kM with
        | some a, some b => if mFirst then a < b else a ≤ b
        | some _, none => true
        | none, _ => false
      if takeT then
        let k := kT.getD 1
        some (t, dT + k * gT - bT, dM + (if mFirst then k else k - 1) * gM, false)
      else
        let k := kM.getD 1
        some (m, dT + (if mFirst then k - 1 else k) * gT, dM + k * gM - bM, true)

/-- The booking record that a source needs and the cache does not hold. -/
def State.uncached (s : State) (src : ReadSource) : Option Nat :=
  match src with
  | .booking k => if s.porter.cached.contains k then none else some k
  | _ => none

/-- READOUT_START (R191, R192, R197–R199, R207, R211): a fragment that waits to start again goes first, once the crossing to the
courier is out of reset; else the schedule starts the next fragment; one that is to be compressed waits for an idle unit, so that at most 4 are
in compression, and a booking whose record is not cached for its fetch. -/
def execReadoutStart (s : State) : Out :=
  .next (if !s.on 20 then s else
    match s.porter.readouts.find? (fun r => r.stage = .again && (!s.on 21 || s.on 22 || s.on 23)) with
    | some r => s.beginReadout r.source
    | none =>
    match s.lookDeficits.chooseReadout with
    | none => s.lookDeficits
    | some (src, dT, dM, turn) =>
      match s.lookDeficits.uncached src with
      | some k => s.lookDeficits.startFetch k
      | none =>
      let s1 := s.lookDeficits.startReadout src
      if s1.porter.readouts.length = s.porter.readouts.length then s.lookDeficits
      else s1.modPorter (fun p => { p with deficitT := dT, deficitM := dM, turnM := turn }))

/-- DATA_RECORD_SENT (R190, R186, R246): the end-of-frame of a record's last DATA frame is sent; its booking is released, or its rooms are freed. -/
def execDataRecordSent (s : State) : Out :=
  .next (let p := s.dataPort
    match (s.ports[p]).record with
    | none => s
    | some r =>
      let handed := match r.source with
        | some src => ((s.readout src).map (fun x => x.stage == .handed)).getD false
        | none => true
      if !r.started ∨ r.sent < r.content.length ∨ s.time.clock < (s.ports[p]).sendingUntil ∨ !handed then s else
      let s1 : State := s.modPort p (fun (x : Port) => { x with record := none, sending := none })
      let s2 : State := match r.source with
        | none => s1
        | some (.booking k) => s1.releaseBooking k
        | some (.monitor seq) =>
          let rooms : List Nat := ((s1.porter.monitor.find? (fun (m : MonFragment) => m.seq.toNat = seq)).map (fun (m : MonFragment) => m.rooms)).getD []
          ((((s1.modPorter (fun (q : Porter) => { q with monitor := q.monitor.filter (fun (m : MonFragment) => m.seq.toNat ≠ seq) })).leaveMonitor rooms).dropReadouts (fun (x : ReadSource) => x == .monitor seq))).thresholds
        | some (.pass id) =>
          let rooms : List Nat := ((s1.porter.pass.find? (fun (e : PassRecord) => e.id = id)).map (fun (e : PassRecord) => e.rooms)).getD []
          ((((s1.modPorter (fun (q : Porter) => { q with pass := q.pass.filter (fun (e : PassRecord) => e.id ≠ id) })).freeRooms rooms).dropReadouts (fun (x : ReadSource) => x == .pass id))).thresholds
      (s2.lookBacklog).lookDead)

/-! ### The room map (R177) -/

/-- The four words of a room map entry (Table 8.1). -/
def Room.words (x : Room) : Nat × Nat × Nat × Nat :=
  (x.next.getD 0 + 2 ^ 18 * bit x.next.isNone + 2 ^ 19 * x.pins + 2 ^ 23 * bit x.suspect + 2 ^ 24 * bit x.spare.isSome + 2 ^ 25 * bit x.truncated + 2 ^ 26 * x.state.code,
   x.chain + 2 ^ 5 * x.count + 2 ^ 16 * x.slot, x.min, x.max)

/-- A read of ROOMS.MAP_W0: W0 of the selected room, with the snapshot of the other three words. -/
def State.mapSnapshot (s : State) : Nat × State :=
  let (a, b, c, d) := (s.room (s.rd pRoomsMapSel)).words
  (a, s.modPorter (fun p => { p with mapSnapshot := (BitVec.ofNat 32 b, BitVec.ofNat 32 c, BitVec.ofNat 32 d) }))

/-- ROOMS_MAP_SNAPSHOT (R177): a read of ROOMS.MAP_W0. -/
def execRoomsMapSnapshot (s : State) : Out := .next (if s.on 20 then s.mapSnapshot.2 else s)

/-! ### Compression passes (R207–R210) -/

/-- The readout that a unit holds. -/
def State.unitReadout (s : State) (u : Fin 4) : Option Readout := s.porter.readouts.find? (fun r => r.unit = some u.val)

/-- The event number, or monitor sequence, of a source. -/
def State.sourceNumber (s : State) (src : ReadSource) : Nat :=
  match src with
  | .booking k => ((s.booking k).map (fun b => b.event.toNat)).getD 0
  | .monitor n => n
  | .pass _ => 0

/-- A unit's mismatch is counted and posted (R209); the third since its readmission quarantines it (R210). -/
def State.unitMismatch (s : State) (u : Fin 4) (number : Nat) (pass2 : Bool) : State :=
  let n := (s.comp.units[u]).mismatches + 1
  let s1 := ((s.bump (pCmpUCntMismatch u.val)).bump pCmpCntFallback).post (404 + u.val) 1 (if pass2 then number % 0x8000 + 0x8000 else number % 0x10000)
  let s2 := s1.modUnitC u (fun x => { x with mismatches := n, state := if 3 ≤ n then .quarantined else x.state })
  if n < 3 then s2
  else
    let s3 := s2.postLedger (404 + u.val) 2 n
    if s3.noUnit then s3.post 410 1 1 else s3

/-- PASS_1_END (R203–R209): the measuring pass is done: the sizes and marks of the coded streams are kept, and the unit reads the fragment again to send it; on a
mismatch the fragment leaves as codec 0 with FALLBACK. -/
def execPass1End (u : Fin 4) (mismatch : Bool) (s : State) : Out :=
  .next (match s.unitReadout u with
    | none => s
    | some r =>
      if r.stage ≠ .pass1 ∨ (s.comp.units[u]).state ≠ .pass1 ∨ r.awaiting ≠ 0 ∨ !s.on 21 then s
      else if mismatch then (s.sendRaw r.source true false).unitMismatch u (s.sourceNumber r.source) false
      else
        let raw := s.fragment r.source r.words
        (((s.modUnitC u (fun x => { x with state := .pass2 })).modReadout r.source (fun x => { x with
          stage := .pass2, corrupt := raw.any isPoison, size := (codePayload r.codec r.huffman r.depth r.streamKib false false raw).1.length
          streams := (codedStreams r.codec r.huffman r.depth r.streamKib raw).map streamMark })).pushReads r.source).readDone r.source)

/-- Whether what a unit has coded in pass 2 differs from pass 1 (R209): a stream's length or CRC-32C, or the size of the whole. -/
def Readout.differs (r : Readout) : Bool :=
  r.payload.length != r.size || (codedStreams r.codec r.huffman r.depth r.streamKib r.raw).map streamMark != r.streams

/-- PASS_2_END (R207, R209): the sending pass is done; on a mismatch the record is aborted and sent again with its fragment as codec 0 and FALLBACK. -/
def execPass2End (u : Fin 4) (mismatch : Bool) (s : State) : Out :=
  .next (match s.unitReadout u with
    | none => s
    | some r =>
      if r.stage ≠ .pass2 ∨ (s.comp.units[u]).state ≠ .pass2 ∨ r.awaiting ≠ 0 ∨ !s.on 21 then s
      else if mismatch || r.differs then ((s.abortRecord r.source).sendRaw r.source true false).unitMismatch u (s.sourceNumber r.source) true
      else
        let stored := (codePayload r.codec r.huffman r.depth r.streamKib false false r.raw).2
        let s1 := ((s.idleUnit r.unit).modReadout r.source (fun x => { x with stage := .handed, unit := none })).bump (pCmpUCntFragments u.val)
        let s2 := s1.bumpBy pCmpCntStored stored
        { s2 with comp := { s2.comp with rawBytes := s2.comp.rawBytes + BitVec.ofNat 64 (8 * r.raw.length)
                                         outBytes := s2.comp.outBytes + BitVec.ofNat 64 r.payload.length } })

/-- A write of 1 to CMP.U_READMIT (R210): origins 2 and 3 only; the unit is readmitted and its mismatch count cleared. -/
def State.unitReadmit (s : State) (u : Fin 4) (o : Origin) : Status × State :=
  if !hostOrigin o then (.denied, s)
  else
    let x := s.comp.units[u]
    let none_ := s.noUnit
    let s1 := s.modUnitC u (fun y => { y with mismatches := 0, state := if y.state = .quarantined then .idle else y.state })
    if x.state ≠ .quarantined then (.ok, s1)
    else
      let s2 := s1.post (404 + u.val) 3 o.code
      let mask := ((List.finRange 4).filter (fun k => (s2.comp.units[k]).state != .quarantined)).foldl (fun n k => n + 2 ^ k.val) 0
      (.ok, if none_ then s2.post 410 2 mask else s2)

end Sys2Proof.Machine
end

