-- ==== Sys2Proof/Machine/Reference.lean ====
section
/-! DEFINITION. The commands of the reference block (spec/03), parameter writes apart. -/

namespace Sys2Proof.Machine

open Sys2Proof

/-- A selected edge in frequency mode (R57, R62): counted, and the first at or after a boundary closes the gate and opens the next, whatever number of boundaries
has passed. OVERSPEED is posted at the first close pair of a gate with the number of the last result (log entry 75). -/
def State.gateEdge (s : State) (n : Fin 4) (time : Int) (stamped close : Bool) : State :=
  let g0 := s.ref.gates[n]
  let s1 := if close then (s.modGate n (fun x => { x with overspeed := true })) else s
  let s2 := if close ∧ !g0.overspeed then s1.post (453 + n.val) 3 g0.seq.toNat else s1
  if time < g0.boundary then s2.modGate n (fun x => { x with edges := x.edges + 1 })
  else match g0.opened with
    | none => s2.modGate n (fun x => ({ s2.beginGate n x with opened := some time, first := x.first, overspeed := close, noStamp := !stamped } : Gate).seekFrom
        (s.nextBoundary n time))
    | some t0 =>
      let s3 := match g0.closing with
        | some c => s2.gateResult n c
        | none => s2
      let g := s3.ref.gates[n]
      s3.modGate n (fun x => ({ s3.beginGate n x with
        closing := some ⟨t0, g.boundary, if stamped then some time else none, g.edges + 1, g.sound, g.flags⟩
        opened := some (if stamped then time else g.boundary), noStamp := !stamped } : Gate).seekFrom (s.nextBoundary n time))

/-- What a stamper makes of an edge (R30, R58): the edge's time in fine steps where one of its two TACs, used in turn, was free, and whether the edge is
new: the rows REFIN_EDGE and PPSIN_EDGE may name one and the same edge of PPSIN. -/
def State.stampEdge (s : State) (n : Fin 5) (raw : BitVec 10) : Option Int × Bool × State :=
  let st := s.ref.stampers[n]
  let f := s.stampFine n raw
  let wall := s.time.clock * 1024 + f
  let time := s.nowFine + f
  if st.lastEdge = some wall then (if st.tacs.contains wall then some time else none, false, s)
  else
    let free := match (if st.tacs.length < 2 then none else st.tacs.head?) with
      | some l => decide (262144 ≤ (wall - l) * 10)
      | none => true
    (if free then some time else none, true, s.modStamper n (fun x => { x with
      lastEdge := some wall, tacs := if free then (if x.tacs.length < 2 then x.tacs else x.tacs.tail) ++ [wall] else x.tacs }))

/-- Whether an edge comes closer than 4.5 ns to the one before it (R57). -/
def State.closePair (s : State) (n : Fin 5) (raw : BitVec 10) : Bool :=
  match (s.ref.stampers[n]).lastEdge with
  | some l => decide ((s.time.clock * 1024 + s.stampFine n raw - l) * 1000 < 4718592)
  | none => false

/-- REFIN_EDGE (R57, R58, R66, R67): a selected prescaled edge of a reference input (0–3) or PPSIN (4) is stamped if a TAC is free, counted, and offered
to the delay units. In stamp mode a close pair sets OVERSPEED in REFIN.STATUS at once, where it stays until the next result (log entry 75). -/
def execRefinEdge (n : Fin 5) (raw : BitVec 10) (s : State) : Out :=
  .next (let mode := if n.val < 4 then s.rd (pRefinMode n.val) else 2
    if !s.on 31 || mode = 0 || (s.ref.stampers[n]).calibrating then s else
    let close := s.closePair n raw
    let (stamp, fresh, s1) := s.stampEdge n raw
    if h : n.val < 4 then
      let k : Fin 4 := ⟨n.val, h⟩
      let s2 := if stamp.isNone then s1.bump (pRefinCntNostamp n.val) else s1
      if mode = 1 then s2.gateEdge k (s.nowFine + s.stampFine n raw) stamp.isSome close
      else
        let s3 := if close then (s2.post (453 + n.val) 3 (s2.ref.gates[k]).seq.toNat).modGate k (fun g => { g with status := g.status ||| 4 }) else s2
        match stamp with
        | some time => (s3.dmStart (5 + n.val) time).dmStop (256 + n.val) time
        | none => s3
    else match stamp, fresh with
      | some time, true => s1.dmStart 9 time
      | _, _ => s1)

/-- GATE_RESULT (R62, R63): the closed gate's frequency, count, span and phase, with its status. -/
def execGateResult (n : Fin 4) (s : State) : Out :=
  .next (match (s.ref.gates[n]).closing with
    | some c => s.gateResult n c
    | none => s)

/-- GATE_BOUNDARY (R62, R63): a boundary passes with no selected edge since the one before it: the result of the gate between them is invalid with LOS; its other
values are free (log entry 5). A gate opened earlier goes on awaiting its closing edge. -/
def execGateBoundary (n : Fin 4) (s : State) : Out :=
  .next (let g := s.ref.gates[n]
    let len : Int := (s.rd (pRefinGate n.val) * 1024 * 1024 : Nat)
    if !s.on 31 || s.rd (pRefinMode n.val) ≠ 1 || decide (s.nowFine < g.lostTo + len) then s
    else
      let s1 := match g.closing with
        | some c => s.gateResult n c
        | none => s
      (s1.publishGate n true false (s.lateFlags n g.lostTo) (fun x => { x with
        closing := none, first := x.first && x.opened.isSome, lostTo := g.lostTo + len
        freq := Config.freeWord s1.free, count := 0, span := Config.freeWord (s1.free + 1)
        phase := (Config.freeWord (s1.free + 2)).setWidth 32 })).tickFree.tickFree.tickFree)

/-- The snapshot of a REFIN's result items (R62). -/
def State.freqSnapshot (s : State) (n : Fin 4) : State :=
  let g := s.ref.gates[n]
  let k := n.val
  (((((((s.wr (pRefinFreqLo k) (g.freq.toNat % 2 ^ 32)).wr (pRefinFreqHi k) (g.freq.toNat / 2 ^ 32)).wr (pRefinCountLo k) (g.count.toNat % 2 ^ 32)).wr
    (pRefinCountHi k) (g.count.toNat / 2 ^ 32)).wr (pRefinSpanLo k) (g.span.toNat % 2 ^ 32)).wr (pRefinSpanHi k) (g.span.toNat / 2 ^ 32)).wr
    (pRefinPhase k) g.phase.toNat).wr (pRefinStatus k) (g.status.toNat % 64 + 0x10000 * g.seq.toNat)

/-- REFIN_FREQ_SNAPSHOT (R62): a read of REFIN.FREQ_LO. -/
def execRefinFreqSnapshot (n : Fin 4) (s : State) : Out := .next (if s.on 31 then s.freqSnapshot n else s)

/-- STAMPER_CAL_COMPLETE (R43, R59, R60, R369): the stamper's histogram is complete; the table is built, checked and written with its image in a batch of 67
words. While the hold-up check defers the batch, the recalibration goes on. -/
def execStamperCalComplete (n : Fin 5) (hist : List Nat) (moved : Int) (source : Nat) (s : State) : Out :=
  .next (if !(s.ref.stampers[n]).calibrating || !s.aelkoFree then s else
    match buildTable hist (2 ^ 20) moved source 225 275 (0x100 + n.val) (s.sensorTemp 16) s.stamperTrim with
    | .inl k => (s.endStamperCal n).post (stamperSource n) 5 k
    | .inr t => match s.tryBatch 67 with
      | (false, u) => u.tornLin (s.cutAt 67) (0x100 + n.val) t.image
      | (true, u) =>
        let u1 : State := { u with mram := { u.mram with linImages := sset (0x100 + n.val) t.image u.mram.linImages } }
        ((u1.endStamperCal n).modStamper n (fun x => { x with table := some t })).post (stamperSource n) 4 (t.spanHigh - t.spanLow + 1))

/-- DM_CONCLUDE (R65, R67): a measurement concludes at its start plus DM_CLOSE + 256 ticks with the earliest accepted stop, or void. -/
def execDmConclude (u : Fin 4) (s : State) : Out :=
  .next (let x := s.ref.units[u]
    match x.start with
    | none => s
    | some st =>
      if s.time.clock < x.startClock + s.rd (pRefinDmClose u.val) + 256 then s
      else
        let s1 := s.bumpBy (pRefinDmCntIgnored u.val) (x.stops.length - 1)
        match x.stops.min?, x.stepped with
        | some t, false =>
          let i := t - st
          (s1.modUnit u (fun y => { y.accumulate i (Config.freeWord s.free) with start := none, stops := [] })).tickFree
        | _, _ => (s1.bump (pRefinDmCntVoid u.val)).modUnit u (fun y => { y with start := none, stops := [], stepped := false }))

/-- The snapshot of a delay unit's accumulators (R67). -/
def State.dmSnapshot (s : State) (u : Fin 4) : State :=
  let x := s.ref.units[u]
  let k := u.val
  (((((s.wr (pRefinDmN k) (x.n % 2 ^ 32)).wr (pRefinDmFirst k) (unsigned 32 x.first)).wr (pRefinDmSum k) (unsigned 32 x.sum)).wr
    (pRefinDmSumsqLo k) (x.sumsq.toNat % 2 ^ 32)).wr (pRefinDmSumsqHi k) (x.sumsq.toNat / 2 ^ 32)).wr (pRefinDmLast k) (unsigned 32 x.last)

/-- DM_N_SNAPSHOT (R67): a read of REFIN.DM_N. -/
def execDmNSnapshot (u : Fin 4) (s : State) : Out := .next (if s.on 31 then s.dmSnapshot u else s)

/-- CALOUT_PULSE (R68, R69): device time reaches a pulse's launch time; the pulse is launched once, and TRAIN_DONE follows the last. -/
def execCaloutPulse (n : Fin 4) (s : State) : Out :=
  .next (match (s.ref.calout[n]).train with
    | none => s
    | some t =>
      let l : Int := t.fine * 8 + t.next * t.period * 1024
      if (s.now - t.tick).toInt * 1024 + s.time.fine.toNat + 1023 < l then s
      else
        let last := t.count ≤ t.next + 1
        let s1 := s.modRef (fun r => { r with calout := vmod r.calout n (fun o =>
          { o with train := if last then none else some { t with next := t.next + 1 }, launched := o.launched + 1, active := some (s.time.clock + t.width) }) })
        let s2 := s1.dmStart (1 + n.val) ((t.tick.toNat : Int) * 1024 + l)
        if last then s2.post (453 + n.val) 8 ((s2.ref.calout[n]).launched % 0x10000) else s2)

/-- CALOUT_PULSE_END (R68): a pulse has been active for REFIN.CO_WIDTH ticks. -/
def execCaloutPulseEnd (n : Fin 4) (s : State) : Out :=
  .next (match (s.ref.calout[n]).active with
    | some e => if e ≤ s.time.clock then s.modRef (fun r => { r with calout := vmod r.calout n (fun o => { o with active := none }) }) else s
    | none => s)

/-- CLKOUT_SETTING_APPLY (R70): at the next second after enabling the staged setting takes effect, from its first edge at or after that second on. -/
def execClkoutSettingApply (m : Fin 2) (s : State) : Out :=
  .next (let c := s.ref.clkout[m]
    match c.staged with
    | some (a, d, o) =>
      if before s.now c.stagedAt then s
      else
        let first : Int := max 0 (clkNext a d o c.stagedAt ((c.stagedAt.toNat : Int) * 1024))
        s.modRef (fun r => { r with clkout := vmod r.clkout m (fun x => { x with staged := none, applied := some (a, d, o, c.stagedAt), edge := first }) })
    | none => s)

/-- CLKOUT_EDGE (R70): a synthesised edge falls due: rising edge j at S + CK_OFFSET + j × 1,024 × CK_D / CK_M, the falling edges midway; a stopped
output goes low at its falling edge. -/
def execClkoutEdge (m : Fin 2) (rising : Bool) (s : State) : Out :=
  .next (let c := s.ref.clkout[m]
    match c.applied with
    | none => s
    | some (a, d, o, sec) =>
      let nowF : Int := (s.now - sec).toInt * 1024 + s.time.fine.toNat + 1023
      if rising then
        let due : Int := o + c.edge * 1024 * d / a
        if c.level || decide (nowF < due) then s
        else s.modRef (fun r => { r with clkout := vmod r.clkout m (fun x => { x with level := true, edge := x.edge + 1 }) })
      else
        let due : Int := o + (2 * c.edge - 1) * 512 * d / a
        if !c.level || decide (nowF < due) then s
        else s.modRef (fun r => { r with clkout := vmod r.clkout m (fun x =>
          if x.stopping then { x with level := false, stopping := false, applied := none } else { x with level := false }) }))

/-- PPSOUT's offset in force (R71). -/
def Pps.inForce (p : Pps) (now : DWord) : Int :=
  match p.staged with
  | some (o, t) => if before now t then p.offset else o
  | none => p.offset

/-- PPSOUT_PULSE (R71): a second plus REFIN.PPS_OFFSET is reached in this tick; one pulse for each value of the second. -/
def execPpsoutPulse (s : State) : Out :=
  .next (let p := s.ref.pps
    let off := p.inForce s.now
    let sec := (s.nowFine + 1023 - off) / secondFine
    let reached := decide (s.nowFine ≤ sec * secondFine + off) && decide (0 ≤ sec)
    let fresh := match p.lastSecond with
      | some l => decide (l < sec.toNat)
      | none => true
    if p.enabled && reached && fresh && s.on 31 && (s.time.everLocked || s.rd pRefinPpsUnlocked = 1) then
      s.modRef (fun r => { r with pps := { p with level := true, started := s.time.clock, lastSecond := some sec.toNat, offset := off,
                                                  staged := if before s.now ((p.staged.map (·.2)).getD s.now) then p.staged else none } })
    else s)

/-- PPSOUT_PULSE_END (R71): PPSOUT has been active for REFIN.PPS_WIDTH µs. -/
def execPpsoutPulseEnd (s : State) : Out :=
  .next (if s.ref.pps.level ∧ s.ref.pps.started + s.rd pRefinPpsWidth * 1024 ≤ s.time.clock then
      s.modRef (fun r => { r with pps := { r.pps with level := false } })
    else s)

/-- PPSIN_EDGE (R58, R65, R72, R95): a rising PPSIN edge is stamped if a TAC is free; its offset from the nearest second is stored, or the edge is ignored
outside the window. An edge that is not stamped has no time and is not taken (log entry 75). -/
def execPpsinEdge (raw : BitVec 10) (s : State) : Out :=
  .next (if !s.on 31 || (s.ref.stampers[4]).calibrating then s else
    match s.stampEdge 4 raw with
    | (none, _, s0) => s0
    | (some time, fresh, s0) =>
      let s1 := if fresh then s0.dmStart 9 time else s0
      let off := time - (time + secondFine / 2) / secondFine * secondFine
      if (s.rd pRefinPpsinWindow * 1024 * 1024 : Nat) < off.natAbs then s1.bump pRefinPpsinCntIgnored
      else
        let again := !s.ref.pps.inValid && s.ref.pps.inLast.isSome
        let s2 := s1.modRef (fun r => { r with pps := { r.pps with inValid := true, inLast := some s.time.clock, inOffset := off } })
        (if again then s2.post 453 0x11 0 else s2).updateDrift)

/-- PPSIN_LOST (R72): no edge is taken for 1.5 s. -/
def execPpsinLost (s : State) : Out :=
  .next (match s.ref.pps.inLast with
    | some l =>
      if s.ref.pps.inValid ∧ l + 1536000000 ≤ s.time.clock then
        (s.modRef (fun r => { r with pps := { r.pps with inValid := false } })).post 453 0x10 0
      else s
    | none => s)

/-! ### The effects of parameter writes -/

/-- A write to REFIN.MODE, REFIN.PRESCALE or REFIN.EDGE (R61). -/
def State.refinSetting (s : State) (n : Fin 4) (item : RefinItem) (value : Nat) : State :=
  let a := match item with
    | .mode => pRefinMode n.val
    | .prescale => pRefinPrescale n.val
    | .edge => pRefinEdge n.val
  (s.wr a value).discardGate n

/-- A stamper's recalibration starts (R60). -/
def State.stamperCal (s : State) (n : Fin 5) : State :=
  let s1 := s.modStamper n (fun x => { x with calibrating := true, calStart := s.time.clock })
  if h : n.val < 4 then s1.modGate ⟨n.val, h⟩ (fun g => { g with calibrated := true }) else s1

/-- The accumulators of a delay unit are zeroed (R67). -/
def State.dmClear (s : State) (u : Fin 4) : State :=
  s.modUnit u (fun x => { x with n := 0, first := 0, sum := 0, sumsq := 0, last := 0, sat := false })

/-- A write of 1 to REFIN.CO_ARM (R68, R69): DENIED while a train is armed or running; less than 1,024 ticks ahead the launch is missed. -/
def State.coArm (s : State) (n : Fin 4) : Status × State :=
  let k := n.val
  if (s.ref.calout[n]).train.isSome then (.denied, s)
  else
    let tick : DWord := BitVec.ofNat 64 (s.rd (pRefinCoTickHi k) * 2 ^ 32 + s.rd (pRefinCoTickLo k))
    if (tick - s.now).toInt < 1024 then (.ok, (s.bump (pRefinCoMissed k)).post 452 3 k)
    else
      (.ok, s.modRef (fun r => { r with calout := vmod r.calout n (fun o =>
        { o with driven := true, launched := 0, train := some ⟨tick, s.rd (pRefinCoFine k), s.rd (pRefinCoWidth k), s.rd (pRefinCoPeriod k), s.rd (pRefinCoCount k), 0⟩ }) }))

/-- A write of 0 to REFIN.CO_ARM cancels a train (R68). A pulse that is active then keeps its width (log entry 75). -/
def State.coCancel (s : State) (n : Fin 4) : State :=
  s.modRef (fun r => { r with calout := vmod r.calout n (fun o => { o with train := none }) })

/-- A write to REFIN.CK_EN (R70): 1 stages the setting for the next second, 0 stops the output at its next falling edge. -/
def State.ckEn (s : State) (m : Fin 2) (enable : Bool) : State :=
  let k := m.val
  let s1 := s.wr (pRefinCkEn k) (bit enable)
  s1.modRef (fun r => { r with clkout := vmod r.clkout m (fun x =>
    if enable then { x with enabled := true, driven := true, stopping := false, stagedAt := s.nextSecond,
                            staged := some (s.rd (pRefinCkM k), s.rd (pRefinCkD k), signed 32 (s.rd (pRefinCkOffset k))) }
    else { x with enabled := false, staged := none, stopping := x.applied.isSome }) })

/-- A write to REFIN.PPS_EN (R71): 1 stages REFIN.PPS_OFFSET for the next second; 0 drops what is staged, also where its second has passed and no pulse has
followed yet (log entry 75). -/
def State.ppsEn (s : State) (enable : Bool) : State :=
  let s1 := s.wr pRefinPpsEn (bit enable)
  s1.modRef (fun r => { r with pps := if enable then
      { r.pps with enabled := true, driven := true, offset := r.pps.inForce s.now, staged := some (signed 32 (s.rd pRefinPpsOffset), s.nextSecond) }
    else { r.pps with enabled := false, staged := none } })

end Sys2Proof.Machine
end

