-- ==== Sys2Proof/Machine/PowerOps.lean ====
section
/-! DEFINITION. The shared operations on power (spec/16): domains, what switching one does, and the crossings between islands. -/

namespace Sys2Proof.Machine

open Sys2Proof

/-! ### Domains (R352, Table 16.1) -/

/-- The power domain a parameter belongs to; none for AON (log entry 10). -/
def paramDomain (a : Nat) : Option Nat :=
  let i := addrInst a
  let k := addrItem a
  match addrCls a with
  | 1 => some (i / 16)
  | 2 => some i
  | 5 => some (i / 8)
  | 6 | 7 => some 20
  | 8 => some 21
  | 9 => some (if 0x100 ≤ k then 16 + i else 16)
  | 10 => if k < 0x100 then some (if i < 16 then 24 + i / 4 else if i < 20 then 22 else 23) else if k < 0x200 then some (24 + i) else none
  | 11 => if k < 0x200 then some (if i < 16 then 24 + i / 4 else if i = 16 then 22 else 23) else none
  | 12 => some 30
  | 13 => some 31
  | 14 => some 32
  | _ => none

/-- The domain that a domain needs to be on, Table 16.1. -/
def domainNeeds (d : Nat) : Option Nat :=
  if d < 16 then some 30
  else match d with
    | 21 => some 20
    | 22 | 23 | 24 | 25 | 26 | 27 | 31 | 32 | 34 => some 30
    | 28 | 29 => some 33
    | _ => none

/-- The group of a domain (R370). -/
def domainGroup (d : Nat) : Nat :=
  if d < 8 then 0 else if d < 16 then 1 else if d < 20 then 2 else if d < 22 then 3 else if d < 28 then 4 else if d < 30 then 5 else if d < 32 then 6 else 7

/-- The power domain of an on-chip memory of Table 1.5, 36 for AON and 37 for no memory. They are numbered: 0–127 the instruction and 128–255 the data memory
of an engine, 256–271 the table memory of a tile, 272 and 273 the local memory of the pair and of the spare, 274–321 a tile's linearisation tables,
derandomisers and merger, 322–325 a merge buffer, 326 the room map, 327 the booking cache, 328–337 the windows and verification buffers of the units and the
windows of the decompressors, 338–355 the receive buffers of a port, 356 the reduction accumulators, 357 the coefficients, 358 the mailboxes, 359 the event
queue. -/
def memoryDomain (m : Nat) : Nat :=
  if m < 256 then m % 128 / 8
  else if m < 272 then m - 256
  else if m < 274 then m - 244
  else if m < 322 then (m - 274) % 16
  else if m < 326 then m - 306
  else if m < 328 then 20
  else if m < 338 then 21
  else match idx? 18 (m - 338) with
    | some p => portDomain p
    | none => if m = 356 then 34 else if m = 357 then 32 else if m = 358 ∨ m = 359 then 36 else 37

/-- The islands of a domain (R360). -/
def domainIslands (d : Nat) : List Nat :=
  if d < 22 then [d]
  else match d with
    | 22 => [38, 39, 40, 41]
    | 23 => [42]
    | 24 => [22, 23, 24, 25] | 25 => [26, 27, 28, 29] | 26 => [30, 31, 32, 33] | 27 => [34, 35, 36, 37]
    | 28 => [43] | 29 => [44] | 30 => [48] | 31 => [49] | 32 => [46] | 33 => [50] | 34 => [45]
    | _ => []

/-- The domain of an island; none for AON. -/
def islandDomain (i : Nat) : Option Nat := (List.range 36).find? (fun d => (domainIslands d).contains i)

/-- The event source of an island's group (R370). -/
def islandSource (i : Nat) : Nat := 483 + domainGroup ((islandDomain i).getD 35)

/-! ### Class W crossings (R360, Table 16.5) -/

/-- The domains of the two sides of a crossing. -/
def crossingSides (k : Nat) : List Nat × List Nat :=
  if k < 16 then ([k], [16, 17, 18, 19])
  else if k < 20 then ([k], [20])
  else match k with
    | 20 => ([20], [21])
    | 21 => ([21], [22, 23])
    | 22 => ([20], [22, 23])
    | 27 => ([34], [20])
    | _ => ([k + 1], [20])

/-- The receiving islands of a crossing, and all the islands of its two sides. -/
def crossingIslands (k : Nat) : Nat × List Nat :=
  let (a, b) := crossingSides k
  (((b.head?.map domainIslands).getD []).head?.getD 0, (a ++ b).flatMap domainIslands)

/-- Whether a crossing is out of reset: both sides have a domain on. -/
def State.crossingLive (s : State) (k : Nat) : Bool :=
  let (a, b) := crossingSides k
  a.any s.on && b.any s.on

/-- The readouts in progress start again from their first room or are sent again (R211, R360). -/
def State.restartAll (s : State) : State :=
  (s.porter.readouts.map (fun r => r.source)).foldl State.restartReadout s

/-- What the reset of a crossing does to the blocks on its two sides, Table 16.5. -/
def State.crossingLost (s : State) (k : Nat) : State :=
  match idx? 16 k with
  | some t =>
    let s1 := s.modTile t (fun x => { x with output := [] })
    let s2 : State := { s1 with mem := { s1.mem with channels := s1.mem.channels.map (fun (c : MemChannel) =>
      { c with hits := c.hits.filter (fun h => h.chain ≠ t.val) }) } }
    if (s.porter.chains[chainOf t]).active then s2.reopenChain (chainOf t) else s2
  | none =>
    if k < 20 then s.restartAll
    else if k < 22 then (s.porter.readouts.map (fun r => r.source)).foldl State.discardUnit s
    else if k = 22 then s.cutSending s.dataPort (fun r => some { r with sent := 0, started := false })
    else if k = 27 then
      if (s.porter.chains[(16 : Fin 17)]).active then s.modPorter (fun p => { p with monTruncated := true }) |>.reopenChain 16 else s
    else (List.finRange 16).foldl (fun t p =>
      if p.val / 4 = k - 23 ∧ ((t.ports[downPort p]).rx).isSome then (t.dropRx p).bump (pPortPCntAborts p.val) else t) s

/-- A coupled reset of a crossing (R360): its consequence, W_RESET in both islands, the count and the event. -/
def State.wResetCrossing (s : State) (k : Nat) : State :=
  if !s.crossingLive k then s else
  let (dest, both) := crossingIslands k
  let s1 := both.foldl (fun t i => t.islandBit i 2) (s.crossingLost k)
  (s1.bump pPwrCntWResets).post (islandSource dest) 3 k

/-! ### What a domain holds -/

/-- The reset values come back to every parameter of a domain. -/
def State.dropParams (s : State) (d : Nat) : State := { s with params := s.params.filter (fun p => paramDomain p.1 ≠ some d) }

/-- A tile loses its power: its chain ends TRUNCATED (R182), its channels and engines are gone. -/
def State.tileOff (s : State) (t : Fin 16) : State :=
  let s0 := (List.finRange 16).foldl (fun u c => u.chanTo (chanOf t c) .disabled) s
  let s1 := if (s.porter.chains[chainOf t]).active then s0.endChain (chainOf t) else s0
  { s1 with
    chans := Vector.ofFn (fun (ch : Fin 256) => if tileOf ch = t then { Channel.reset with volts := (s1.chans[ch]).volts } else s1.chans[ch])
    engines := Vector.ofFn (fun (e : Fin 128) => if tileOfEng e = t then Engine.reset else s1.engines[e])
    tiles := vput s1.tiles t TileState.reset
    keeper := { s1.keeper with window := s1.keeper.window.filter (fun w => tileOfEng w.engine ≠ t) }
    mem := { s1.mem with channels := s1.mem.channels.map (fun (c : MemChannel) => { c with hits := c.hits.filter (fun h => h.chain ≠ t.val) }) } }

/-- A memory channel loses its power: OFF, with the reads of readouts left waiting (R270, R360). -/
def State.memOff (s : State) (m : Fin 4) : State :=
  let was := (s.mem.channels[m]).state == .ready
  let s1 := s.setChannel m { MemChannel.reset with general := (s.mem.channels[m]).general.filter (fun a => match a.op with
    | .read .night => false
    | .read _ => true
    | _ => false) }
  if was then s1.faultDisarm else s1

/-- The porter and acquisition lose their power: every chain, booking and record is gone. -/
def State.porterOff (s : State) : State :=
  let s1 := if s.streaming then s.eachChan State.disarmChan else s
  { s1 with
    tiles := if s.streaming then s1.tiles.map (fun (t : TileState) => { t with held := [], output := [], disarmWord := none }) else s1.tiles
    ports := s1.ports.map (fun (p : Port) => { p with rx := none, rxWait := [], record := none, sending := none })
    mem := { s1.mem with channels := s1.mem.channels.map (fun (c : MemChannel) => { c with hits := [], general := [], merge := [] }) }
    comp := { s1.comp with units := s1.comp.units.map (fun (u : CompUnit) => if u.state = .quarantined then u else { u with state := .idle }) }
    porter := Porter.reset, acq := { Acq.reset with criticalOff := s.acq.criticalOff } }

/-- The lanes of a port lose their power with what runs on them (R86, R264): its partner is absent, a 1000BASE-X link is down, and the domain carried is LOST. -/
def State.laneGone (s : State) (p : Fin 18) : State :=
  let s1 := s.declareAbsent p 2 5
  if p.val < 16 then s1
  else if s.basexPort p then (s1.basexDown (basexIdx p) 1).noBasex p
  else (if s.lanesUp p then s1.loseDomain (basexIdx p) else s1).noBasex p

/-- The ports of a lane domain lose their power: partners absent, links down, bring-up OFF. -/
def State.portsOff (s : State) (d : Nat) : State :=
  ((List.finRange 18).filter (fun p => portDomain p = d)).foldl (fun t p =>
    let t1 := t.laneGone p
    let l := (t1.myLanes p)
    let t2 := l.foldl (fun u k => u.modLane k (fun x => { Lane.reset with signal := x.signal })) t1
    (t2.setPort p Port.reset).modBringup p (fun _ => Bringup.reset)) s

/-- The fragments in the compression units when PD21 loses its power: one sent again leaves as R211 says, the others go on without a unit, as codec 0 with
NOUNIT (R199, R365; log entry 12). -/
def State.bareReadouts (s : State) : State :=
  s.porter.readouts.foldl (fun t r => match r.stage with
    | .pass1 | .again => t.sendRaw r.source false true
    | .pass2 => t.discardUnit r.source
    | _ => t) s

/-- The decompression jobs that run or wait when PD21 loses its power: their commands complete DENIED (R212). -/
def State.dropJobs (s : State) : State :=
  (s.comp.jobs.toList.filterMap id ++ s.comp.waiting).foldl (fun t j =>
    let u := t.endTransfer j.mailbox
    match u.keeper.inFlight[j.mailbox] with
    | some f => if u.aelkoRuns then u.finish j.mailbox f .denied 0 [] else u
    | none => u) s

/-- A running maintenance as the clock begins again at 0: it keeps its remaining time. -/
def Maint.rebase (m : Maint) (clock : Nat) : Maint := { m with ends := m.ends.map (fun t => t - clock) }

/-- The timebase loses its power and counts from 0 at its next switch-on: what other domains time by its clock keeps its remaining time, and times
since a happening begin again (log entry 16). -/
def State.timeOff (s : State) : State :=
  let c := s.time.clock
  { s with
    time := TimeState.reset, fresh := Fresh.reset
    fd := { s.fd with maint := s.fd.maint.map (fun (m : Option Maint) => m.map (fun x => x.rebase c)), upstreamAt := 0 }
    mem := { s.mem with channels := s.mem.channels.map (fun (m : MemChannel) => { m with parity := m.parity.map (fun _ => 0) }) }
    keeper := { s.keeper with
      transfers := s.keeper.transfers.map (fun (t : Option Transfer) => t.map (fun x => { x with at_ := 0 }))
      spareResets := s.keeper.spareResets.map (fun _ => 0), ckptAt := 0, selftestAt := 0, selftestAsked := 0, dpUpAt := 0
      dpMovedAt := s.keeper.dpMovedAt.map (fun _ => 0), sysReset := s.keeper.sysReset.map (fun t => t - c) } }

/-- The state of a domain's block is gone. -/
def State.blockOff (s : State) (d : Nat) : State :=
  match idx? 16 d with
  | some t => s.tileOff t
  | none => match d with
    | 16 => s.memOff 0 | 17 => s.memOff 1 | 18 => s.memOff 2 | 19 => s.memOff 3
    | 20 => s.porterOff
    | 21 =>
      let c : Compression := { Compression.reset with units := s.comp.units.map (fun (u : CompUnit) => if u.state = .quarantined then u else ⟨.idle, 0⟩) }
      { s.bareReadouts.dropJobs with comp := c }
    | 22 | 23 | 24 | 25 | 26 | 27 => s.portsOff d
    | 30 => s.timeOff
    | 31 => { s with ref := RefBlock.reset }
    | 32 => { s with pfe := Pfe.reset }
    | 34 => { s with red := Reduction.reset }
    | _ => s

/-- A channel's table as its MRAM slot holds it: none, for the factory's, where the image fails its checks (R42). -/
def State.slotTable (s : State) (k : Nat) : Option LinTable := (sfind k s.mram.linImages).bind parseImage

/-- The bytes of coefficients in order (R384). -/
def coefBytes (cs : List Word) : List Byte := cs.flatMap (fun c => natLe 4 c.toNat)

/-- The coefficients of an input as its record in MRAM holds them: none where it fails its CRC-32C, as one that nothing has written does (R384; log entry 8). -/
def State.coefsOf (s : State) (n : Nat) : Option (List Word) :=
  (sfind n s.mram.coefs).bind (fun bs =>
    if bs.length = 52 ∧ imageAt bs 48 4 = (crc32c (bs.take 48)).toNat then some ((List.range 12).map (fun k => BitVec.ofNat 32 (imageAt bs (4 * k) 4))) else none)

/-- A domain's block comes out of reset (R353): tables and coefficients are loaded, memory trains, ports begin their bring-up. -/
def State.blockOn (s : State) (d : Nat) : State :=
  match idx? 16 d with
  | some t =>
    (List.finRange 16).foldl (fun u c => u.modChan (chanOf t c) (fun x => { x with table := s.slotTable (chanOf t c).val }))
      (s.modTile t (fun x => { x with calLast := s.time.clock }))
  | none => match d with
    | 16 => s.startTraining 0 | 17 => s.startTraining 1 | 18 => s.startTraining 2 | 19 => s.startTraining 3
    | 20 => s.buildFree
    | 21 =>
      if s.noUnit then s.post 410 1 1
      else s.post 410 2 (((List.finRange 4).filter (fun k => (s.comp.units[k]).state != .quarantined)).foldl (fun n k => n + 2 ^ k.val) 0)
    | 22 | 23 | 24 | 25 | 26 | 27 => ((List.finRange 18).filter (fun p => portDomain p = d)).foldl State.portPowerOn s
    | 31 => { s with ref := { s.ref with stampers := Vector.ofFn (fun (n : Fin 5) => { (s.ref.stampers[n]) with table := s.slotTable (256 + n.val) }) } }
    | 32 => (List.finRange 32).foldl (fun (t : State) i =>
        let c := t.coefsOf i.val
        let t1 : State := { t with pfe := { t.pfe with inputs := vmod t.pfe.inputs i (fun x => { x with coefs := c.getD resetCoefs, valid := c.isSome }) } }
        if c.isSome then t1 else t1.post 462 1 i.val) s
    | 34 => if s.streaming then s.redInForce.beginIntervals none else s.redInForce
    | _ => s

/-! ### Switching (R353, Table 16.2) -/

/-- The state with a domain's bit set or cleared. -/
def State.domainBit (s : State) (d : Nat) (on : Bool) : State :=
  { s with power := { s.power with domains := if on then s.power.domains ||| (1#36 <<< d) else s.power.domains &&& ~~~ (1#36 <<< d) } }

/-- Whether an island has power: AON always. -/
def State.islandOn (s : State) (i : Nat) : Bool :=
  match islandDomain i with
  | some d => s.on d
  | none => !s.power.poreset

/-- The handshakes of the class S crossings that an island begins as it leaves reset: with each management core and with the timebase, and of these themselves
with every island, where the other side has left reset (R359, log entry 11). -/
def State.islandHandshakes (s : State) (i : Nat) : List (Nat × Nat) :=
  let hubs : List Nat := [43, 44, 48]
  ((if hubs.contains i then List.range 51 else hubs).filter (fun j => j ≠ i ∧ s.islandOn j)).map (fun j => (i, j))

/-- One domain off: it leaves the device as clamped and empty; `cause` is that of Table 16.7. -/
def State.domainOff (s : State) (cause d : Nat) : State :=
  let s1 := ((s.blockOff d).dropParams d).domainBit d false
  let gone := domainIslands d
  let s2 : State := { s1 with
    power := { s1.power with
      handshakes := s1.power.handshakes.filter (fun h => !gone.contains h.1 && !gone.contains h.2)
      signals := s1.power.signals.filter (fun i => !gone.contains i) }
    onchip := s1.onchip.filter (fun w => memoryDomain w.memory ≠ d) }
  let s3 := s2.post (483 + domainGroup d) 2 (d + 256 * cause)
  if d = 21 ∧ !s.noUnit then s3.post 410 1 2 else s3

/-- One domain on. -/
def State.domainOn (s : State) (d : Nat) : State :=
  let s1 := ((s.dropParams d).domainBit d true).blockOn d
  let s2 : State := { s1 with power := { s1.power with handshakes := s1.power.handshakes ++ (domainIslands d).flatMap s1.islandHandshakes } }
  s2.post (483 + domainGroup d) 1 d

/-- Domains that are on switch off in the order given; each crossing out of reset that loses a side is reset once. The chain of a tile among them ends first, so
that one room of it closes TRUNCATED (R182). -/
def State.switchOff (s : State) (cause : Nat) (ds : List Nat) : State :=
  let on := ds.filter s.on
  let ks := (List.range 28).filter (fun k => on.any (fun d => (crossingSides k).1.contains d || (crossingSides k).2.contains d))
  let s1 := on.foldl (fun (t : State) d => match idx? 16 d with
    | some k => if (t.porter.chains[chainOf k]).active then t.endChain (chainOf k) else t
    | none => t) s
  (on.foldl (fun t d => t.domainOff cause d) (ks.foldl State.wResetCrossing s1)).lookDead

/-- The order in which domains switch on: the order given, but each after the one it needs (R332, R353). -/
def switchOrder (ds : List Nat) : List Nat :=
  (ds.flatMap (fun d => ((domainNeeds d).filter ds.contains).toList ++ [d])).foldl (fun acc d => if acc.contains d then acc else acc ++ [d]) []

/-- Domains that are off switch on, each after the one it needs. -/
def State.switchOn (s : State) (ds : List Nat) : State := ((switchOrder (ds.filter (fun d => !s.on d))).foldl State.domainOn s).lookDead

/-- The ledger entry of a domain's switch (Table 13.11). -/
def State.powerEntry (s : State) (origin command tag d : Nat) (on : Bool) : LedgerEntry :=
  s.entry origin 3 command d (bit !on) (bit on) tag

/-- A switch-off by the device itself (R353): each switch enters the ledger with origin 0. -/
def State.switchOffAuto (s : State) (cause : Nat) (ds : List Nat) : State :=
  let on := ds.filter s.on
  on.foldl (fun t d => t.ledgerLater (t.powerEntry 0 0 0 d false)) (s.switchOff cause on)

/-- A switch-on by the device itself (R353, R354). -/
def State.switchOnAuto (s : State) (origin : Nat) (ds : List Nat) : State :=
  let off := switchOrder (ds.filter (fun d => !s.on d))
  off.foldl (fun t d => t.ledgerLater (t.powerEntry origin 0 0 d true)) (s.switchOn off)

end Sys2Proof.Machine
end

