-- ==== Sys2Proof/Machine/Acquire.lean ====
section
/-! DEFINITION. The commands of acquisition (spec/04, 07): milestones, launches, accepts, primitives, records and the pre-trigger span. -/

namespace Sys2Proof.Machine

open Sys2Proof

/-! ### Milestones (R78, R80, R150, R151) -/

/-- What was written for the next milestone comes into force (R38, R196, R323). -/
def State.stagedInForce (s : State) : State :=
  let s1 : State := { s with chans := Vector.ofFn (fun (ch : Fin 256) =>
    let c := s.chans[ch]
    if s.on (tileOf ch).val then
      { c with offset := signed 16 (s.rd (pChanOffset ch.val)), stagedTable := none, table := c.stagedTable.orElse (fun _ => c.table)
               tableBuilt := if c.stagedTable.isSome then none else c.tableBuilt, calPosted := c.calPosted && c.stagedTable.isNone }
    else c) }
  let s2 : State := if s1.on 31 then
    { s1 with ref := { s1.ref with stampers := s1.ref.stampers.map (fun (x : Stamper) => { x with table := x.staged.orElse (fun _ => x.table), staged := none }) } } else s1
  if s2.on 20 then s2.roomsInForce.thresholds.lookBacklog else s2

/-- The history walks of the 16 tile chains, of those too whose tile has lost its power (R180, R182). -/
def State.walkAll (s : State) : State :=
  let horizon := (s.now - BitVec.ofNat 64 (s.roomsItem pRoomsHold)).toNat / 1024 % 2 ^ 32
  (List.finRange 16).foldl (fun t k => t.walkChain (chainOf k) horizon (t.porter.chains[chainOf k]).rooms) s

/-- The domains that thermal state CRITICAL switches off (R365). -/
def criticalDomains : List Nat := [35, 34, 21, 15, 14, 13, 12, 11, 10, 9, 8, 7, 6, 5, 4, 3, 2, 1, 0]

/-- The switch-off of R365: each switch ledgered, and CRITICAL_OFF posted. -/
def State.criticalOffNow (s : State) : State :=
  if s.acq.criticalOff.isNone then s else
  let ds := criticalDomains.filter s.on
  let mask := (ds.filter (fun d => d < 16)).foldl (fun n d => n + 2 ^ d) 0
  ((({ s with acq := { s.acq with criticalOff := none } } : State).switchOffAuto 2 ds)).postLedger 482 2 mask

/-- The switch-off of R365 at the milestone of its disarming. -/
def State.criticalOffAt (s : State) (m : DWord) : State := if s.acq.criticalOff.any (fun c => atOrBefore c m) then s.criticalOffNow else s

/-- What a milestone does to acquisition: arming, disarming, or the walks, intervals and words of an armed one. -/
def State.acqMilestone (s : State) (m : DWord) : State :=
  let step := (s.stepAtMilestone m).isSome
  match s.acq.state with
  | .armPending => if atOrBefore s.acq.armTick m then (s.armNow m).milestoneWords m step else s
  | .disarmPending =>
    if atOrBefore s.acq.disarmTick m then (s.walkAll.disarmNow m step) else ((s.walkAll.closeIntervals m false).milestoneWords m step).thresholds
  | .armed => ((s.walkAll.closeIntervals m false).milestoneWords m step).thresholds
  | .disarmed => s

/-- MILESTONE (R78, R80, R150, R151, R174, R180, R365): device time reaches a multiple of 2²⁰ ticks. -/
def execMilestone (s : State) : Out :=
  .next (if !s.on 30 ∨ !isMilestone s.now ∨ s.time.lastMilestone = some s.now then s else
    let m := s.now
    let s1 := s.emitRecords
    let s2 := ({ s1 with time := { s1.time with lastMilestone := some m } } : State).stagedInForce
    let s3 := if m.toNat % 2 ^ 26 = 0 ∧ s2.on 20 then s2.endMonitor m else s2
    let s4 := if s3.on 20 then s3.acqMilestone m else s3
    let s5 := if m.toNat % 2 ^ 30 = 0 ∧ s4.on 34 then s4.redInForce else s4
    ((((s5.criticalOffAt m).launchDue).stepNow m).thresholds).lookDead)

/-- DISARM_MILESTONE_RELEASE (R151): a tile's last hits have reached its merger; its milestone word for D follows them. -/
def execDisarmMilestoneRelease (tile : Fin 16) (s : State) : Out :=
  .next (match (s.tiles[tile]).disarmWord with
    | none => s
    | some w =>
      if (List.finRange 16).any (fun c => (s.chans[chanOf tile c]).entries != []) then s
      else
        let d := BitVec.ofNat 64 (w.toNat / 2 ^ 20 * 2 ^ 20)
        let s1 := s.releaseHeld tile
        let s2 := s1.releaseWord tile ⟨w, (d.toNat : Int) * 1024, 2 * s1.time.epoch, s1.time.clock⟩
        (s2.modTile tile (fun x => { x with disarmWord := none })).drainOutput tile)

/-- REDUCTION_RECORDS (R173): the records of the intervals that ended at the last milestone enter the monitor stream once every tile's word for it has entered
its stream. -/
def execReductionRecords (s : State) : Out :=
  .next (match s.red.due with
    | none => s
    | some m =>
      let has := fun (w : DWord) => w.toNat % 4 = 2 ∧ w.toNat / 2 ^ 20 = m.toNat / 2 ^ 20
      if s.tilesOn.any (fun t => (s.tiles[t]).held.any (fun h => has h.word) || ((s.tiles[t]).disarmWord.map (fun w => decide (has w))).getD false) then s
      else s.emitRecords)

/-- PRETRIG_ELAPSED (R159, R165): ACQ.PRETRIG ticks have passed since A; the dead state is looked at. -/
def execPretrigElapsed (s : State) : Out :=
  .next (if s.streaming ∧ (s.rd pAcqPretrig : Int) ≤ (s.now - s.acq.armTick).toInt then s.lookDead else s)

/-- LAUNCH (R96, R157, R161): the first entry whose launch tick has been reached is acted on. -/
def execLaunch (s : State) : Out := .next (if s.on 30 then s.launchOne else s)

/-! ### Frames of the trigger (R24, R152, R164) -/

/-- ACCEPT_FRAME (R24, R25, R157, R230): taken from the data-path port alone, sent on to every port with an admitted child unless late, then checked as an accept from above. -/
def execAcceptFrame (p : Fin 18) (m : FrameMeta) (f : Accept) (s : State) : Out :=
  .next (s.receive p { m with formOk := m.formOk && p == s.dataPort } false true false false false 4 (fun t =>
    let late := atOrBefore f.launch t.now
    let t1 := if late then t else
      (List.finRange 16).foldl (fun u q => if (u.ports[downPort q]).state = .admitted then u.enqueue (downPort q) (.accept f) else u) t
    t1.receiveAccept f none p.val))

/-- A primitive reaches the device's primitive path (R164): queued, or dropped, counted and posted where the data path holds no admitted parent or the
queue of 32 is full. -/
def State.pathPrimitive (s : State) (f : PrimFrame) : State :=
  if !s.primPath ∨ 32 ≤ s.acq.prims.length then s.bumpPostCount pAcqCntPrimDropped 500 1
  else { s with acq := { s.acq with prims := s.acq.prims ++ [f] } }

/-- PRIM_FRAME (R164): a child's primitive joins the queue, whatever ACQ.PRIM_UP is. -/
def execPrimFrame (p : Fin 18) (m : FrameMeta) (f : PrimFrame) (s : State) : Out :=
  .next (s.receive p m true false false false false 3 (fun t => t.pathPrimitive f))

/-- The tile served next in round-robin order from a pointer, of those that hold something. -/
def nextTile (pointer : Nat) (has : Fin 16 → Bool) : Option (Fin 16) :=
  ((List.range 16).map (fun k => (⟨(pointer + k) % 16, Nat.mod_lt _ (by decide)⟩ : Fin 16))).find? has

/-- PRIMITIVE_TAKE (R115, R164): the path takes one primitive from the tile queues, round-robin; it takes nothing while its own queue is full and the data path
admitted, and discards without a count while ACQ.PRIM_UP is 0. -/
def execPrimitiveTake (s : State) : Out :=
  .next (let full := 32 ≤ s.acq.prims.length
    let up := s.rd pAcqPrimUp = 1
    if !s.on 20 ∨ (up ∧ full ∧ s.primPath) then s else
    match nextTile s.acq.primTile (fun t => (s.tiles[t]).prims != []) with
    | none => s
    | some t =>
      match (s.tiles[t]).prims with
      | [] => s
      | f :: fs =>
        let s1 := s.modTile t (fun x => { x with prims := fs })
        let s2 : State := { s1 with acq := { s1.acq with primTile := (t.val + 1) % 16 } }
        if up then s2.pathPrimitive f else s2)

/-- ENGINE_RECORD_TAKE (R116, R172): the reduction unit takes one EMITS record from the tile queues, round-robin, and its engine record enters the monitor
stream. -/
def execEngineRecordTake (s : State) : Out :=
  .next (if !s.on 34 then s else
    match nextTile s.red.tileNext (fun t => (s.tiles[t]).records != []) with
    | none => s
    | some t =>
      match (s.tiles[t]).records with
      | [] => s
      | r :: rs =>
        let s1 := s.modTile t (fun x => { x with records := rs })
        let s2 : State := { s1 with red := { s1.red with tileNext := (t.val + 1) % 16 } }
        if s2.streaming then
          s2.emitRecord r.engine 2 3 (r.seq % 2 ^ 24) 0 (r.body.toNat % 2 ^ 32 * 2 ^ 30 % 2 ^ 62) (r.body.toNat / 2 ^ 32 * 2 ^ 30 + r.tick.toNat)
        else s2)

end Sys2Proof.Machine
end

