-- ==== Sys2Proof/Machine/Time.lean ====
section
/-! DEFINITION. The commands of network time (spec/04): exchanges, the servo, the two domains. -/

namespace Sys2Proof.Machine

open Sys2Proof

/-- A domain's exchange in progress changed. -/
def State.modExchange (s : State) (d : Fin 2) (f : Exchange → Exchange) : State :=
  let x := s.time.domains[d]
  s.setDomain d { x with exchange := f x.exchange }

/-- An exchange is discarded and counted (R86): the runs of consecutive valid ones end, those of Table 4.6 among them where the domain is the active one. -/
def State.badExchange (s : State) (d : Fin 2) : State :=
  let x := s.time.domains[d]
  let s1 := s.setDomain d { x with exchange := Exchange.reset, consecutive := 0, recent := [], jumps := [], within := 0, pathRun := [] }
  let s2 := if s.time.active = d then s1.setTime { s1.time with lockRun := 0, unlockRun := 0 } else s1
  s2.bump (pTimeDCntBad d.val)

/-- A message that fails its check (R86): a Sync leaves its exchange, and one still open before it, without t1 and t2; any other message spoils the exchange
that is open, if one is. -/
def State.badMessage (s : State) (d : Fin 2) (isSync : Bool) : State :=
  if !s.dEnabled d then s
  else if isSync then (if ((s.time.domains[d]).exchange.seq).isSome then s.badExchange d else s).badExchange d
  else s.modExchange d (fun e => { e with bad := e.bad || e.seq.isSome })

/-- LANE.MAC. -/
def State.laneMac (s : State) : Nat := s.rd pLaneMacLo + s.rd pLaneMacHi * 2 ^ 32

/-- The PTP destination of Table 11.9. -/
def ptpGroup : BitVec 48 := 0x011B19000000#48

/-- Whether a received MAC frame passes the filter of Table 11.9. -/
def macTaken (h : MacHead) (mac : Nat) : Bool :=
  !h.tagged && decide (64 ≤ h.size ∧ h.size ≤ 1518) && h.etherType == 0x88F7 && (h.dest == ptpGroup || h.dest == 0x0180C200000E#48 || h.dest.toNat == mac)

/-- A PTP message of a domain arrives on its port, or on its 1000BASE-X lane (R83, R221, R264). One that fails its check, or that a coding
error of its lane damaged, spoils the exchange (R86). On 1000BASE-X
a frame outside the filter of Table 11.9 is discarded and counted, and a message of another domainNumber than TIME.PTP_DOMAIN is not for this device (log entry 77). -/
def State.timeMessage (s : State) (d : Fin 2) (m : TimeMeta) (isSync : Bool) (act : State → State) : State :=
  let p := domainPort d
  if !s.on 30 then s
  else if s.onBasex d then
    if !(s.lanes.basex[d]).linkUp then s
    else
      let s1 := s.noteViols p m.frame
      if m.frame.checkOk && !m.frame.codeViolation && m.frame.formOk && macTaken m.mac s.laneMac then
        if m.domain.toNat = s.rd pTimePtpDomain then act s1 else s1
      else
        let s2 := s1.bump pLaneBasexCntDiscard
        if m.frame.checkOk && !m.frame.codeViolation then s2 else s2.badMessage d isSync
  else
    let s1 := if s.on (portDomain p) && s.lanesUp p && (!m.frame.checkOk || m.frame.codeViolation) then s.badMessage d isSync else s
    s1.receive p m.frame false true false true true 5 act

/-- The fixed latency that a lane's receiver adds, comma alignment included, at its rung (R84). -/
def State.rxDelay (s : State) (p : Fin 18) : Int :=
  let rung := if s.basexPort p then 5 else (s.lanes.ports[p]).rung
  Config.rxLatency (portLane p) rung + Config.commaLatency rung (((idx? 21 (portLane p)).map (fun l => (s.lanes.lanes[l]).comma)).getD 0)

/-- The instant at the balls of a MARK received on a port (R84). -/
def State.ballIn (s : State) (p : Fin 18) (f : BitVec 10) : Int := s.stamp f - s.rxDelay p

/-- A PTP message waits to go out on a domain (R83, R264): a TIME frame, or a MAC frame with domainNumber TIME.PTP_DOMAIN, of which none is sent while LANE.MAC is 0. -/
def State.sendTime (s : State) (d : Fin 2) (seq : Half) (msg : TimeMsg) : State :=
  if s.onBasex d then
    if s.laneMac = 0 ∨ !(s.lanes.basex[d]).linkUp then s else s.enqueue (domainPort d) (.mac ptpGroup (BitVec.ofNat 48 s.laneMac) (BitVec.ofNat 8 (s.rd pTimePtpDomain)) seq msg)
  else s.enqueue (domainPort d) (.time seq msg)

/-- SYNC (R84, R85): t2 is taken at the message's MARK, and a Delay_Req with a sequence of its own waits to go out; `phase` is the phase of the recovered clock that
the detector measures, in fine steps. -/
def execSync (d : Fin 2) (m : TimeMeta) (seq : Half) (oneStep : Bool) (t1 : WireStamp) (arrival : Arrival) (s : State) : Out :=
  .next (s.timeMessage d m true (fun t =>
    if !t.dEnabled d then t else
    let late := ((t.time.domains[d]).exchange.seq).isSome
    let t1s := if late then t.badExchange d else t
    let req := t1s.time.nextSeq
    let t2s := (t1s.setTime { t1s.time with nextSeq := req + 1 }).modExchange d (fun _ =>
      { seq := some seq, t1 := if oneStep then some (wireNs16 t1) else none, t2 := some (fineToNs16 (t1s.ballIn (domainPort d) arrival.fine)), reqSeq := req
        reqSent := false, t3 := none, epoch := t1s.time.epoch, bad := false })
    let t3s := t2s.setDomain d { (t2s.time.domains[d]) with phase := if t.syntonised d then some arrival.phase else none }
    t3s.sendTime d req .delayReq))

/-- FOLLOW_UP (R85): t1 of the Sync with the same sequence. -/
def execFollowUp (d : Fin 2) (m : TimeMeta) (seq : Half) (t1 : WireStamp) (s : State) : Out :=
  .next (s.timeMessage d m false (fun t => t.modExchange d (fun e =>
    if e.seq = some seq ∧ e.t1.isNone then { e with t1 := some (wireNs16 t1) } else e)))

/-- DELAY_REQ (R84, R85): a master stamps it at its MARK and answers with Delay_Resp. -/
def execDelayReq (p : Fin 16) (m : FrameMeta) (seq : Half) (fine : BitVec 10) (s : State) : Out :=
  .next (s.receive (downPort p) m true false false true true 5 (fun t =>
    if t.on 30 then t.enqueue (downPort p) (.time seq (.delayResp (toStamp (t.ballIn (downPort p) fine)))) else t))

/-- TIME.PATH_LIMIT in 2⁻¹⁶ ns. -/
def State.pathLimit (s : State) : Int := s.rd pTimePathLimit * 65536 / 1000

/-- A span of 2⁻¹⁶ ns in ps. -/
def ns16ToPs (x : Int) : Int := x * 1000 / 65536

/-- A jump of a master in units of 100 ns; the spec names no rounding, and it is taken down (log entry 76). -/
def jumpUnits (x : Int) : Int := x / 6553600

/-- MASTER_JUMP is flagged (R91): posted, ledgered, the tracker frozen; BOTH_JUMPED, with the mean jump taken down to a whole unit (log entry 76), when the other domain is flagged too and their jumps agree within 1 µs. -/
def State.flagJump (s : State) (d : Fin 2) (jump : Int) : State :=
  let x := s.time.domains[d]
  let s1 := (s.setDomain d { x with masterJump := true, tracking := false, jumps := [jump], within := 0 }).postLedger (449 + d.val) 3 (sat16 (jumpUnits jump))
  let o := s1.time.domains[otherDomain d]
  match o.masterJump, o.jumps.head? with
  | true, some j =>
    if (jump - j).natAbs ≤ 65536000 ∧ !s1.time.bothJumped then
      (s1.setTime { s1.time with bothJumped := true }).post 451 6 (sat16 (jumpUnits ((jump + j) / 2)))
    else s1
  | _, _ => s1

/-- One exchange of the 64 that form a proposal (R93). -/
def State.collect (s : State) (d : Fin 2) (off : Int) : State :=
  let x := s.time.domains[d]
  match x.collecting with
  | none => s
  | some (n, sum) =>
    let hold := x.proposalHoldover || s.inHoldover
    if n + 1 < 64 then s.setDomain d { x with collecting := some (n + 1, sum + off), proposalHoldover := hold }
    else
      let asym := signed 32 (s.rd (pTimeDAsym d.val))
      let mean := (sum + off) / 64
      (s.setDomain d { x with collecting := none, proposal := asym + mean, proposalValid := true, proposalHoldover := hold }).post (449 + d.val) 6
        (sat16 (ns16ToPs mean))

/-- The three last of a run all lie beyond a limit on one side of a reference. -/
def beyond (run : List Int) (ref limit : Int) : Bool :=
  run.length = 3 && (run.all (fun x => limit < x - ref) || run.all (fun x => x - ref < -limit))

/-- A valid exchange of a domain is counted: with the 16th in a row the domain is TRACKING, unless a flag that clears TRACKING stands (R89, Table 4.7). -/
def State.countValid (s : State) (d : Fin 2) : State :=
  let x := s.time.domains[d]
  let tracking := x.tracking || (decide (16 ≤ x.consecutive + 1) && !x.lost && !x.masterJump && !x.pathChanged)
  let s1 := s.setDomain d { x with consecutive := x.consecutive + 1, tracking := tracking }
  if tracking ∧ !x.tracking then s1.post (449 + d.val) 8 0 else s1

/-- The tracker of a domain takes a valid exchange (R84, R85, R87): the filtered offset and delay and the tracked rate are free values. -/
def State.track (s : State) (d : Fin 2) (mpd off : Int) : State :=
  let x := s.time.domains[d]
  let n := s.free
  let rate := Config.trackedRate (if s.syntonised d then x.phase else none) off x.rate (n + 2)
  let keep := s.rd pTimeHoldAvg * 1024000000
  let y := { x with offset := Config.filtered x.offset off n, mpd := Config.filtered x.mpd mpd (n + 1), measured := true
                    recent := (x.recent ++ [off]).drop (x.recent.length + 1 - 8)
                    rate := rate, rates := (s.time.clock, rate) :: x.rates.filter (fun r => s.time.clock ≤ r.1 + 2 * keep) }
  { s.setDomain d y with free := n + 3 }

/-- The rate that the servo asks for, held within TIME.SLEW_MAX of the rate of a domain's reference (R81). -/
def State.slewed (s : State) (d : Fin 2) (asked : Int) : Int :=
  let ref := (s.time.domains[d]).rate
  let max : Int := 1000 * s.rd pTimeSlewMax
  clamp (ref - max) (ref + max) asked

/-- The servo takes an exchange of the active domain (R81, R87): the rate it asks for is a free value, and the runs of Table 4.6 are counted on the filtered offset.
In ACQUIRE the rate is that of the domain measured (Table 4.5), the active one or, while that is LOST or disabled, the other. -/
def State.steer (s : State) (d : Fin 2) : State :=
  match s.time.servo with
  | .coarse | .fine | .locked =>
    if s.time.active ≠ d then s else
    let off := (s.time.domains[d]).offset.natAbs
    (({ s with
      free := s.free + 1
      time := { s.time with
        rate := s.slewed d (Config.servoRate (s.time.domains[d]).offset s.time.rate s.free)
        lockRun := if off * 1000 ≤ 655360 then s.time.lockRun + 1 else 0, unlockRun := if 1310720 < off * 1000 then s.time.unlockRun + 1 else 0 } } : State)).rateLimit
  | .acquire =>
    let act := s.time.active
    if act = d ∨ (s.time.domains[act]).lost ∨ !s.dEnabled act then (s.setTime { s.time with rate := (s.time.domains[d]).rate }).rateLimit else s
  | _ => s

/-- A valid exchange (R86–R93). It counts towards the 16 of TRACKING whatever it does (R89). A jump that ends leaves HOLDOVER to a re-step after BOTH_JUMPED (R91). -/
def State.goodExchange (s : State) (d : Fin 2) (mpd off : Int) : State :=
  let x := s.time.domains[d]
  let learns := x.pathChanged && x.pathRef.isNone
  let ref := if x.pathChanged then x.pathRef.getD mpd else x.mpd
  let moved := if !x.pathChanged then 0 else if learns then off - x.offset else x.pathShift
  let limit := s.stepLimit
  let inside : Bool := off.natAbs ≤ limit.toNat
  let shift := if inside then 0 else x.asymShift
  let out : Bool := s.time.stepped && limit.toNat < (off + shift - moved).natAbs
  let run := (x.pathRun ++ [(s.time.clock, mpd)]).drop (x.pathRun.length + 1 - 3)
  let path := (x.measured || x.pathChanged) && beyond (run.map (·.2)) ref s.pathLimit
  let jumps := if out ∧ !x.masterJump then x.jumps ++ [off] else []
  let s0 := s.setDomain d { x with
    exchange := Exchange.reset, lost := false, missed := 0, raw := off, pathRun := run, asymShift := shift
    pathRef := if learns then some mpd else x.pathRef, pathShift := if learns then moved else x.pathShift
    jumps := if x.masterJump then x.jumps else jumps, within := if x.masterJump && inside then x.within + 1 else 0 }
  let s1 := s0.setTime { s0.time with seen := if s.time.seen.contains d then s.time.seen else d :: s.time.seen }
  let s2 := s1.wr (pTimeDExchanges d.val) ((s1.rd (pTimeDExchanges d.val) + 1) % 2 ^ 32)
  let s3 := (if x.lost then s2.post (449 + d.val) 2 0 else s2).collect d off
  let s4 :=
    if 3 ≤ jumps.length ∧ ¬(path ∧ (off - x.offset).natAbs ≤ (mpd - ref).natAbs + s.pathLimit.toNat) then s3.flagJump d off
    else if path then s3.flagPath d (sat16 (ns16ToPs (mpd - ref))) (some mpd) (off - x.offset)
    else s3
  (if x.masterJump then
    if 16 ≤ (s4.time.domains[d]).within then (s4.setTime { s4.time with bothJumped := s4.time.bothJumped && s4.inHoldover }).clearJump d 1 else s4
  else if (s4.time.domains[d]).masterJump ∨ (s4.time.domains[d]).pathChanged ∨ out then s4
  else (s4.track d mpd off).steer d).countValid d

/-- DELAY_RESP (R85, R86): t4 completes the exchange, which is validated and taken or counted as bad. -/
def execDelayResp (d : Fin 2) (m : TimeMeta) (seq : Half) (t4 : WireStamp) (s : State) : Out :=
  .next (s.timeMessage d m false (fun t =>
    let e := (t.time.domains[d]).exchange
    if !t.dEnabled d ∨ e.seq.isNone ∨ !e.reqSent ∨ e.reqSeq ≠ seq then t
    else
      let u := match e.t1, e.t2, e.t3 with
        | some a, some b, some c =>
          let f := wireNs16 t4
          let mpd := ((b - a) + (f - c)) / 2
          let off := (b - a) - mpd - signed 32 (t.rd (pTimeDAsym d.val))
          if e.bad ∨ e.epoch ≠ t.time.epoch ∨ mpd < 0 then t.badExchange d else t.goodExchange d mpd off
        | _, _, _ => t.badExchange d
      u.noteHealth d))

/-- ANNOUNCE (R83): currentUtcOffset is stored in TIME.UTC_OFFSET. -/
def execAnnounce (d : Fin 2) (m : TimeMeta) (utcOffset : Half) (s : State) : Out :=
  .next (s.timeMessage d m false (fun t => t.wr pTimeUtcOffset utcOffset.toNat))

/-- SIGNALING (R83, R84): the L1_SYNC flags of the partner, by which a domain on 1000BASE-X is syntonised. Which flag means that the partner reports L1_SYNC the spec does
not say; the model takes bit [0] (log entry 77). A message without the L1_SYNC TLV is of a kind not
supported (`known` false) and is discarded without a count. -/
def execSignaling (p : Fin 18) (m : TimeMeta) (flags : Option Byte) (s : State) : Out :=
  .next (if flags.isNone ∧ m.frame.checkOk then s
    else if p.val < 16 then s.receive p m.frame false false false true true 5 (fun t => t)
    else
      let d : Fin 2 := if p = 17 then 1 else 0
      s.timeMessage d m false (fun t => t.setDomain d { (t.time.domains[d]) with l1sync := (flags.getD 0).getLsbD 0 }))

/-- The ticks of an exchange interval (R86). -/
def State.intervalTicks (s : State) : Nat := 1024000000 / 2 ^ (-(signed 8 (s.rd pTimeSyncLog))).toNat

/-- Whether a domain's last 8 valid exchanges all lie within TIME.STEP_LIMIT of their mean (Table 4.6), and that mean. -/
def State.firstOffset (s : State) (d : Fin 2) : Option Int :=
  let r := (s.time.domains[d]).recent
  let mean := (r.foldl (· + ·) 0) / 8
  if s.dEnabled d ∧ r.length = 8 ∧ r.all (fun x => (x - mean).natAbs ≤ s.stepLimit.toNat) then some mean else none

/-- In ACQUIRE, a domain that qualifies brings the first step (R88), at the first milestone at least 2 exchange intervals away; a part that has had its first
step enters COARSE without one (log entry 13). -/
def State.planFirstStep (s : State) : State :=
  if s.time.servo ≠ .acquire ∨ s.time.firstStep.isSome then s else
  let prefer : Fin 2 := if s.rd pTimePrefer = 1 then 1 else 0
  match ([prefer, otherDomain prefer].filterMap (fun d => (s.firstOffset d).map (fun x => (d, x)))).head? with
  | none => s
  | some (d, mean) =>
    if s.time.stepped then (s.activate d).setServo .coarse
    else
      let at_ := milestoneAt (s.now + BitVec.ofNat 64 (2 * s.intervalTicks))
      let delta := -(ns16ToFine mean) + Config.accruedError mean s.time.rate s.free
      (s.setTime { s.time with firstStep := some (at_, delta, d) }).tickFree

/-- A domain is checked for LOST at the end of an exchange interval (R86). Whether one that is not enabled becomes LOST so the spec does not say; the model counts none of
its intervals (log entry 76). -/
def State.countMissed (s : State) (d : Fin 2) : State :=
  if !s.dEnabled d then s else
  let x := s.time.domains[d]
  let missed := if s.time.seen.contains d then 0 else x.missed + 1
  let s1 := s.setDomain d { x with missed := missed }
  if s.rd pTimeLostCount ≤ missed then s1.loseDomain d else s1

/-- What a master sends on a downstream port at an exchange interval (R83): Sync; Announce and Signaling beside it, whose interval and fields other than
currentUtcOffset the spec leaves open (log entry 77). -/
def State.masterSends (s : State) (q : Fin 18) : State :=
  let seq := (s.ports[q]).timeSeq
  let w := Config.freeWord s.free
  let s1 := (s.modPort q (fun x => { x with timeSeq := x.timeSeq + 1 })).enqueue q (.time seq .sync)
  ((s1.enqueue q (.time seq (.announce (BitVec.ofNat 16 (s.rd pTimeUtcOffset)) (w.setWidth 16) (w.extractLsb' 16 8) (w.extractLsb' 24 2 |>.setWidth 8)))).enqueue q
    (.time seq (.signaling (w.extractLsb' 32 6 |>.setWidth 8)))).tickFree

/-- EXCHANGE_INTERVAL (R83, R86, R87): masters send, a slave on 1000BASE-X sends Signaling, the domains are checked for LOST, and the servo takes its transition. -/
def execExchangeInterval (s : State) : Out :=
  .next (if !s.on 30 then s else
    let s1 := (List.finRange 16).foldl (fun t p => if t.linked (downPort p) then t.masterSends (downPort p) else t) s
    let s1 := ([0, 1] : List (Fin 2)).foldl (fun t d =>
      if t.onBasex d ∧ t.dEnabled d then (t.sendTime d t.time.nextSeq (.signaling ((Config.freeWord t.free).extractLsb' 0 6 |>.setWidth 8))).tickFree else t) s1
    let seen := s1.time.seen
    let s2 := (s1.countMissed 0).countMissed 1
    let s3 := ((s2.setTime { s2.time with seen := [] }).noteHealth 0).noteHealth 1
    let s4 := s3.servoStep seen
    if s4.time.servo = s3.time.servo then s4.planFirstStep else s4)

/-- The domain that TIME.PREFER names. -/
def State.preferred (s : State) : Fin 2 := if s.rd pTimePrefer = 1 then 1 else 0

/-- Whether the preferred domain has been healthy for TIME.REVERT_HOLD seconds without a break (R90). -/
def State.preferHeld (s : State) : Bool :=
  match (s.time.domains[s.preferred]).healthySince with
  | some t => s.healthy s.preferred && decide (t + 1024000000 * s.rd pTimeRevertHold ≤ s.time.clock)
  | none => false

/-- REVERT_HOLD_EXPIRY (R90): the preferred domain has been healthy for TIME.REVERT_HOLD seconds with TIME.REVERT at 1. -/
def execRevertHoldExpiry (s : State) : Out :=
  .next (if s.on 30 ∧ s.time.servo.follows ∧ s.rd pTimeRevert = 1 ∧ s.time.active ≠ s.preferred ∧ s.preferHeld then
      (s.switchDomain s.preferred true).switchLedger (otherDomain s.preferred) s.preferred
    else s)

/-- What a write to TIME.SOURCE does beside being stored (R87): MASTER is entered at once; out of HOLDOVER with the words of an exit (log entry 76). -/
def State.sourceWritten (s : State) (master : Bool) : State :=
  if master then
    let s1 := s.setTime { s.time with firstStep := none, bothJumped := false }
    if s1.inHoldover then s1.leaveHoldover .master else s1.setServo .master
  else if s.time.servo = .master then s.setServo .freerun else s

/-- What a write to TIME.D_ASYM does beside being stored (R93, R94): the array host's clears PATH_CHANGED, and the change counts towards no jump. -/
def State.asymWritten (s : State) (d : Fin 2) (old new : Int) (host : Bool) (how : Nat) : State :=
  let x := s.time.domains[d]
  let s1 := s.setDomain d { x with asymShift := x.asymShift + new - old }
  if x.pathChanged ∧ host then
    (s1.setDomain d { (s1.time.domains[d]) with pathChanged := false, proposalValid := false, collecting := none, pathRun := [], mpd := x.pathRef.getD x.mpd,
                                                 pathRef := none, pathShift := 0 }).post
      (449 + d.val) 7 how |>.noteHealth d
  else s1

end Sys2Proof.Machine
end

