-- ==== Sys2Proof/Machine/EngOps.lean ====
section
/-! DEFINITION. The shared operations on engines (spec/05, 06): words, registers, flags, cycles, traps, memories and the port window. -/

namespace Sys2Proof.Machine

open Sys2Proof

/-! ### Instruction words (R129–R132) -/

/-- A word with register fields and an 18-bit immediate (Table 6.1). -/
def engWord (op : Nat) (d a : Fin 16) (imm : Nat) : Word := BitVec.ofNat 32 (op * 2 ^ 26 + d.val * 2 ^ 22 + a.val * 2 ^ 18 + imm % 2 ^ 18)

/-- A word with three register fields and a 14-bit immediate (Table 6.1). -/
def engWord3 (op : Nat) (d a b : Fin 16) (imm : Nat) : Word := engWord op d a (b.val * 2 ^ 14 + imm % 2 ^ 14)

/-- Whether a word is an instruction: its opcode is assigned and its reserved fields are 0 (R130, Table 6.2). -/
def legalWord (w : Word) : Bool :=
  let n := w.toNat
  let op := n / 2 ^ 26
  let d := n / 2 ^ 22 % 16
  let a := n / 2 ^ 18 % 16
  let b := n / 2 ^ 14 % 16
  let imm14 := n % 2 ^ 14
  let imm18 := n % 2 ^ 18
  if op ≤ 0x06 ∨ (0x08 ≤ op ∧ op ≤ 0x0A) ∨ op = 0x34 then imm14 = 0
  else if op = 0x0C ∨ op = 0x0D then imm18 = 0
  else if (0x10 ≤ op ∧ op ≤ 0x13) ∨ (0x28 ≤ op ∧ op ≤ 0x31) then true
  else if 0x14 ≤ op ∧ op ≤ 0x16 then imm18 < 32
  else if op = 0x17 then a = 0
  else if op = 0x18 ∨ op = 0x19 then imm18 < 1024
  else if op = 0x1A then imm18 < 1024 ∧ a ≤ 1
  else if 0x20 ≤ op ∧ op ≤ 0x25 then d = 0
  else if op = 0x26 ∨ op = 0x27 then a = 0 ∧ b = 0 ∧ d ≤ 6
  else if op = 0x32 then d = 0 ∧ a = 0 ∧ b = 0
  else if op = 0x33 ∨ op = 0x38 ∨ op = 0x39 ∨ op = 0x3E ∨ op = 0x3F then n % 2 ^ 26 = 0
  else if op = 0x36 then d = 0
  else if op = 0x3A ∨ op = 0x3B then d = 0 ∧ imm14 = 0
  else if op = 0x3C then d = 0 ∧ imm18 < 64
  else false

/-! ### Registers and flags (R102, R103) -/

/-- A register's value: v0 reads 0. -/
def Engine.get (x : Engine) (r : Fin 16) : Word := if r = 0 then 0 else x.v[r]

/-- A register written: writes to v0 are discarded. -/
def Engine.put (x : Engine) (r : Fin 16) (w : Word) : Engine := if r = 0 then x else { x with v := vput x.v r w }

/-- A flag by its number (Table 5.3). -/
def Engine.flag (x : Engine) (i : Nat) : Bool := x.flags.getLsbD i

/-- A flag set or cleared. -/
def Engine.setFlag (x : Engine) (i : Nat) (b : Bool) : Engine :=
  { x with flags := if b then x.flags ||| (1#7 <<< i) else x.flags &&& ~~~ (1#7 <<< i) }

/-- A result with Z and N (R133). -/
def Engine.result (x : Engine) (d : Fin 16) (r : Word) : Engine := ((x.put d r).setFlag 0 (r == 0)).setFlag 1 r.msb

/-- The instruction word at the PC. -/
def Engine.word (x : Engine) : Word := BitVec.ofNat 32 (x.imem.getLe (4 * x.pc.toNat) 4)

/-- The words of the input queue that are visible: those that entered at least 2 engine cycles, 4 periods of the measurement clock, ago (R113). -/
def State.visible (s : State) (e : Fin 128) : List QueueWord := (s.engines[e]).queue.filter (fun q => q.entered + 4 ≤ s.time.clock)

/-! ### Traps and cycles (R101, R124) -/

/-- The cycles that the engine clocks have passed. -/
def State.cycle (s : State) : Nat := s.therm.cycles

/-- A trap in a cycle (R124): the engine stops before the instruction changes any state. -/
def State.engTrapAt (s : State) (e : Fin 128) (cause cycle : Nat) : State :=
  let x := s.engines[e]
  let s1 := s.setEng e { x with state := .trapped, loaded := .none, trapCause := cause, trapPc := x.pc, trapCycle := cycle }
  (s1.bump (pEngCntTraps e.val)).post (256 + e.val) 1 (cause * 2 ^ 12 + x.pc.toNat)

/-- A trap in the running cycle. -/
def State.engTrap (s : State) (e : Fin 128) (cause : Nat) : State := s.engTrapAt e cause s.cycle

/-- A trap with ECC (R110): the uncorrectable word, of a memory as `memoryDomain` numbers them, is counted, logged and posted (R288), and left as it is. -/
def State.engEcc (s : State) (e : Fin 128) (memory row : Nat) : State := (s.onchipUe memory row).engTrap e 4

/-- Cycles are counted by the watchdog, and the highest count is kept; the next instruction can enter X after them, and not in the running cycle. -/
def State.engCycles (s : State) (e : Fin 128) (n : Nat) : State :=
  let x := s.engines[e]
  (s.setEng e { x with watchdog := x.watchdog + n, ready := Nat.max (x.ready + n) (s.cycle + 1) }).peak (pEngMaxCycles e.val) (Nat.min (x.watchdog + n) 0xFFFF)

/-- Whether one more cycle count reaches ENG.BUDGET. -/
def State.budgetReached (s : State) (e : Fin 128) (n : Nat) : Bool :=
  s.rd (pEngBudget e.val) != 0 && decide (s.rd (pEngBudget e.val) ≤ (s.engines[e]).watchdog + n)

/-- Cycles pass in which the engine does nothing else: they count up to ENG.BUDGET, where the engine traps with WATCHDOG, in the last cycle counted (R124). -/
def State.spend (s : State) (e : Fin 128) (n : Nat) : State :=
  if s.budgetReached e n then
    let t := s.engCycles e (s.rd (pEngBudget e.val) - (s.engines[e]).watchdog)
    t.engTrapAt e 1 ((t.engines[e]).ready - 1)
  else s.engCycles e n

/-- A register field of a word: d at bit 22, a at bit 18, b at bit 14 (Table 6.1). -/
def wordReg (w : Word) (at_ : Nat) : Fin 16 := ⟨w.toNat / 2 ^ at_ % 16, Nat.mod_lt _ (by decide)⟩

/-- The general registers that an instruction reads (Table 6.2). -/
def wordReads (w : Word) : List (Fin 16) :=
  let op := w.toNat / 2 ^ 26
  let d := wordReg w 22
  let a := wordReg w 18
  let b := wordReg w 14
  if op ≤ 0x0A ∨ (0x20 ≤ op ∧ op ≤ 0x25) ∨ op = 0x34 ∨ op = 0x3A ∨ op = 0x3B then [a, b]
  else if op = 0x19 ∨ (0x2B ≤ op ∧ op ≤ 0x2D) ∨ op = 0x2F ∨ op = 0x31 then [d, a]
  else if (0x0C ≤ op ∧ op ≤ 0x18 ∧ op ≠ 0x17) ∨ (0x28 ≤ op ∧ op ≤ 0x30) ∨ op = 0x36 ∨ op = 0x3C then [a]
  else if op = 0x33 then [15]
  else []

/-- The load-use stall of the instruction at the PC (Table 5.1): 1 cycle when it reads what the last one loaded; only EXTH reads h0 and h1. A word that is no instruction
reads nothing. -/
def Engine.loadUse (x : Engine) : Nat :=
  if !legalWord x.word then 0 else
  match x.loaded with
  | .reg r => if r ≠ 0 ∧ (wordReads x.word).contains r then 1 else 0
  | .hitRegs => bit (x.word.toNat / 2 ^ 26 == 0x1A)
  | .none => 0

/-- Whether the instruction at the PC of an engine is in X: the engine is RUNNING, and the cycles it owes before have passed (R101; log entry 17). -/
def Engine.inX (x : Engine) (cycle : Nat) : Bool := x.state == .running && decide (x.ready + x.loadUse ≤ cycle)

/-- Whether a command's word is the one that an engine has in X. -/
def State.atWord (s : State) (e : Fin 128) (w : Word) : Bool :=
  s.on (tileOfEng e).val && (s.engines[e]).word == w && (s.engines[e]).inX s.cycle

/-- A fetched instruction word with one flipped bit is corrected and counted (R110, R288). -/
def State.correctFetch (s : State) (e : Fin 128) : State :=
  let x := s.engines[e]
  if x.imemCe.contains x.pc.toNat then (s.setEng e { x with imemCe := x.imemCe.filter (fun k => k ≠ x.pc.toNat) }).bump pMemCntOnchipCe else s

/-- A word of data memory that is read or merged is corrected and counted. -/
def State.correctData (s : State) (e : Fin 128) (row : Nat) : State :=
  let x := s.engines[e]
  if x.dmemCe.contains row then (s.setEng e { x with dmemCe := x.dmemCe.filter (fun k => k ≠ row) }).bump pMemCntOnchipCe else s

/-- A word of table memory that is read or merged is corrected and counted. -/
def State.correctTable (s : State) (t : Fin 16) (row : Nat) : State :=
  let x := s.tiles[t]
  if x.tableCe.contains row then (s.setTile t { x with tableCe := x.tableCe.filter (fun k => k ≠ row) }).bump pMemCntOnchipCe else s

/-- A cycle of an engine in which its instruction does not get on, with the load-use stall before it. -/
def State.engStall (s : State) (e : Fin 128) : State :=
  (s.spend e (1 + (s.engines[e]).loadUse)).modEng e (fun y => { y with loaded := .none })

/-- The trap that the instruction in X meets first (R124): its own, which is a cause or the uncorrectable word that it reads, then that of a PC that would leave the
instruction memory; the fetched word comes before both. -/
def State.firstTrap (s : State) (e : Fin 128) (own : Option (Nat ⊕ (Nat × Nat))) (target : Int) : Option (Nat ⊕ (Nat × Nat)) :=
  let x := s.engines[e]
  if x.imemBad.contains x.pc.toNat then some (.inr (e.val, x.pc.toNat))
  else own.orElse (fun _ => if target < 0 ∨ 0x7FF < target then some (.inl 6) else none)

/-- A trap by its cause, or by the uncorrectable word. -/
def State.takeTrap (s : State) (e : Fin 128) : Nat ⊕ (Nat × Nat) → State
  | .inl c => s.engTrap e c
  | .inr r => s.engEcc e r.1 r.2

/-- An instruction executes (R101, R124): a budget that its load-use stall reached, its traps in their order, then its cycle against the budget, then its effect
with the PC at `target`. -/
def State.engGo (s : State) (e : Fin 128) (w : Word) (own : Option (Nat ⊕ (Nat × Nat))) (target : Int) (effect : State → State) : State :=
  if !s.atWord e w then s else
  let s := s.correctFetch e
  let stall := (s.engines[e]).loadUse
  if stall ≠ 0 ∧ s.budgetReached e stall then s.spend e stall
  else match s.firstTrap e own target with
    | some c => s.takeTrap e c
    | none =>
      if s.budgetReached e (1 + stall) then s.spend e (1 + stall)
      else effect ((s.engCycles e (1 + stall)).modEng e (fun y => { y with loaded := .none, pc := BitVec.ofInt 11 target }))

/-- The address of the next instruction in sequence. -/
def State.seq (s : State) (e : Fin 128) : Int := ((s.engines[e]).pc.toNat : Int) + 1

/-- An instruction that writes register `d` with Z and N and may set more flags. -/
def State.engAlu (s : State) (e : Fin 128) (w : Word) (f : Engine → Engine) : State :=
  s.engGo e w none (s.seq e) (fun t => t.modEng e f)

/-- The sum of two operands with C and V (R134). -/
def Engine.add (x : Engine) (d : Fin 16) (a b : Word) : Engine :=
  let r := a + b
  ((x.result d r).setFlag 2 (decide (2 ^ 32 ≤ a.toNat + b.toNat))).setFlag 3 (a.msb == b.msb && r.msb != a.msb)

/-- The difference of two operands with C and V (R134). -/
def Engine.sub (x : Engine) (d : Fin 16) (a b : Word) : Engine :=
  let r := a - b
  ((x.result d r).setFlag 2 (decide (b.toNat ≤ a.toNat))).setFlag 3 (a.msb != b.msb && r.msb != a.msb)

/-- An 18-bit immediate sign-extended, and zero-extended (Table 6.3). -/
def sx18 (imm : BitVec 18) : Word := imm.signExtend 32
/-- An 18-bit immediate zero-extended. -/
def zx18 (imm : BitVec 18) : Word := imm.setWidth 32

/-- The number of set bits of a word. -/
def popCount (w : Word) : Nat := ((List.range 32).filter (fun i => w.getLsbD i)).length

/-- The number of leading zero bits of a word; 32 for 0. -/
def leadingZeros (w : Word) : Nat := if w = 0 then 32 else 31 - Nat.log2 w.toNat

/-- The mask of a field of width `width1 + 1` at bit 0. -/
def fieldMask (width1 : BitVec 5) : Word := BitVec.ofNat 32 (2 ^ (width1.toNat + 1) - 1)

/-- A field of a word (R135). -/
def takeField (w : Word) (pos width1 : BitVec 5) : Word := (w >>> pos.toNat) &&& fieldMask width1

/-- A field of `old` replaced by the low bits of `a` (R135). -/
def putField (old a : Word) (pos width1 : BitVec 5) : Word :=
  let m := fieldMask width1 <<< pos.toNat
  (old &&& ~~~ m) ||| ((a <<< pos.toNat) &&& m)

/-! ### Control transfer (R136) -/

/-- Whether a branch is taken: its condition by its opcode, of two register values and the flags (Table 6.2). -/
def Engine.branches (x : Engine) (op : Nat) (d a b : Fin 16) : Bool :=
  let p := x.get a
  let q := x.get b
  match op with
  | 0x20 => p == q
  | 0x21 => p != q
  | 0x22 => p.slt q
  | 0x23 => q.sle p
  | 0x24 => p.ult q
  | 0x25 => q.ule p
  | 0x26 => x.flag d.val
  | 0x27 => !x.flag d.val
  | _ => false

/-- A conditional branch; the 2 further cycles of one that is taken count at its target. -/
def State.engBranch (s : State) (e : Fin 128) (op : Nat) (d a b : Fin 16) (disp : BitVec 14) : State :=
  let w := engWord3 op d a b disp.toNat
  if (s.engines[e]).branches op d a b then s.engGo e w none (((s.engines[e]).pc.toNat : Int) + disp.toInt) (fun t => t.spend e 2)
  else s.engGo e w none (s.seq e) (fun t => t)

/-! ### Loads and stores (R137–R139) -/

/-- The trap of a data memory access (R104, R110): ADDRESS, or ECC where it reads or merges an uncorrectable word. -/
def Engine.dataTrap (x : Engine) (e : Fin 128) (ea size : Nat) (reads : Bool) : Option (Nat ⊕ (Nat × Nat)) :=
  if 0x2000 ≤ ea ∨ ea % size ≠ 0 then some (.inl 3)
  else if reads ∧ x.dmemBad.contains (ea / 4) then some (.inr (128 + e.val, ea / 4)) else none

/-- A load from data memory. -/
def State.engLoad (s : State) (e : Fin 128) (w : Word) (d a : Fin 16) (imm : BitVec 18) (size : Nat) : State :=
  let x := s.engines[e]
  let ea := (x.get a + sx18 imm).toNat
  s.engGo e w (x.dataTrap e ea size true) (s.seq e) (fun t =>
    (t.correctData e (ea / 4)).modEng e (fun y => { y.put d (BitVec.ofNat 32 (y.dmem.getLe ea size)) with loaded := .reg d }))

/-- A store to data memory; a full word gets fresh check bits. -/
def State.engStore (s : State) (e : Fin 128) (w : Word) (d a : Fin 16) (imm : BitVec 18) (size : Nat) : State :=
  let x := s.engines[e]
  let ea := (x.get a + sx18 imm).toNat
  let fresh := fun (ks : List Nat) => if size = 4 then ks.filter (fun k => k ≠ ea / 4) else ks
  s.engGo e w (x.dataTrap e ea size (decide (size < 4))) (s.seq e) (fun t =>
    (if size = 4 then t else t.correctData e (ea / 4)).modEng e (fun y => { y with
      dmem := y.dmem.putLe ea size (y.get d).toNat, dmemCe := fresh y.dmemCe, dmemBad := fresh y.dmemBad }))

/-- Whether an address lies in the port window. -/
def inPort (ea : Nat) : Bool := decide (0x10000 ≤ ea ∧ ea < 0x10100)

/-- The trap of a table space access: ADDRESS, PRIV, or ECC. -/
def State.tableTrap (s : State) (e : Fin 128) (ea size : Nat) (reads writes : Bool) : Option (Nat ⊕ (Nat × Nat)) :=
  let t := s.tiles[tileOfEng e]
  if (0x10000 ≤ ea ∧ ¬(size = 4 ∧ inPort ea)) ∨ ea % size ≠ 0 then some (.inl 3)
  else if writes ∧ (ea = 0x1002C ∨ ea = 0x10038) ∧ s.rd (pEngPriv e.val) = 0 then some (.inl 5)
  else if reads ∧ ea < 0x10000 ∧ t.tableBad.contains (ea / 4) then some (.inr (256 + (tileOfEng e).val, ea / 4)) else none

/-- The bank of a byte address of table memory (R105). -/
def bankOf (ea : Nat) : Fin 4 := ⟨ea / 4 % 4, Nat.mod_lt _ (by decide)⟩

/-- The effective address of the memory instruction at the PC (R137). -/
def Engine.wordEa (x : Engine) : Nat := (x.get (wordReg x.word 18) + sx18 (BitVec.ofNat 18 x.word.toNat)).toNat

/-- The trap of the own checks of the instruction at the PC: that of its memory access, if it has one (R104, R106, R110). -/
def State.ownTrap (s : State) (e : Fin 128) : Option (Nat ⊕ (Nat × Nat)) :=
  let x := s.engines[e]
  match x.word.toNat / 2 ^ 26 with
  | 0x28 => x.dataTrap e x.wordEa 4 true
  | 0x29 => x.dataTrap e x.wordEa 2 true
  | 0x2A => x.dataTrap e x.wordEa 1 true
  | 0x2B => x.dataTrap e x.wordEa 4 false
  | 0x2C => x.dataTrap e x.wordEa 2 true
  | 0x2D => x.dataTrap e x.wordEa 1 true
  | 0x2E => s.tableTrap e x.wordEa 4 true false
  | 0x2F => s.tableTrap e x.wordEa 4 false true
  | 0x30 => s.tableTrap e x.wordEa 2 true false
  | 0x31 => s.tableTrap e x.wordEa 2 true true
  | _ => none

/-- The PC after the instruction at the PC (R136). -/
def Engine.target (x : Engine) : Int :=
  let op := x.word.toNat / 2 ^ 26
  let pc : Int := x.pc.toNat
  let disp : Int := (BitVec.ofNat 14 x.word.toNat).toInt
  if (0x20 ≤ op ∧ op ≤ 0x27 ∧ x.branches op (wordReg x.word 22) (wordReg x.word 18) (wordReg x.word 14)) ∨ op = 0x32 then pc + disp
  else if op = 0x33 then (x.get 15).toNat
  else if op = 0x3F then pc
  else pc + 1

/-- Whether the instruction in X presents an access to a table bank (R105): it is an aligned access to table memory whose fetch is good, and its PC is where its
sequel can be or the access finds an uncorrectable word first. Port-window accesses never contend. -/
def State.presents (s : State) (e : Fin 128) : Bool :=
  let x := s.engines[e]
  let op := x.word.toNat / 2 ^ 26
  s.on (tileOfEng e).val && x.inX s.cycle && decide (0x2E ≤ op ∧ op ≤ 0x31) && decide (x.wordEa < 0x10000) && !x.imemBad.contains x.pc.toNat &&
    (match s.ownTrap e with
      | none => decide (x.pc.toNat < 0x7FF)
      | some (.inl _) => false
      | some (.inr _) => true)

/-- Whether the access that an engine presents loses its arbitration in this cycle (R105, R139): the bank has served an access in it or is held by a narrow store, or
an engine of the tile with a lower number addresses it too. -/
def State.stalls (s : State) (e : Fin 128) : Bool :=
  let k := bankOf (s.engines[e]).wordEa
  s.presents e && (decide (s.cycle < (s.tiles[tileOfEng e]).banks[k]) ||
    (List.finRange 128).any (fun f => tileOfEng f == tileOfEng e && decide (f < e) && s.presents f && bankOf (s.engines[f]).wordEa == k))

/-- An access to table space (R105, R139): it wins the bank of its word and executes, or stalls a cycle that ENG.CNT_STALL counts. A store narrower than 32 bits
holds the bank for a second cycle; an access that traps on the word it reads has taken its cycle. `lost` says which of the two this cycle's row is; the other is not
what the engine does, and leaves the state (log entry 17). -/
def State.engTable (s : State) (e : Fin 128) (w : Word) (ea : Nat) (own : Option (Nat ⊕ (Nat × Nat))) (cycles : Nat) (lost : Bool) (effect : State → State) : State :=
  let hold := fun (n : Nat) (t : State) => if inPort ea then t else t.modTile (tileOfEng e) (fun y => { y with banks := vput y.banks (bankOf ea) (s.cycle + n) })
  if !s.atWord e w ∨ lost ≠ s.stalls e then s
  else if lost then ((s.correctFetch e).bump (pEngCntStall e.val)).engStall e
  else s.engGo e w own (s.seq e) (fun t => effect (hold cycles t)) |> (fun t => if s.presents e ∧ own.isSome then hold 1 t else t)

/-- A submission register as it reads (Table 5.4). -/
def Submission.value (x : Submission) : Nat := x.status + 2 ^ 16 * bit x.pending

/-- A read of the port window (Table 5.4): the value, and what the read does. NOW lags device time by a free number of ticks, at most 8. -/
def State.portRead (s : State) (e : Fin 128) (ea : Nat) : Nat × State :=
  let x := s.engines[e]
  match ea with
  | 0x10000 => (e.val + 0x10000 * s.rd pDevNumber, s)
  | 0x10004 => ((shortTick (s.now - BitVec.ofNat 64 ((Config.freeWord s.free).toNat % 9))).toNat, s.tickFree)
  | 0x10008 => ((s.visible e).length, s)
  | 0x1000C => (x.dropped, s.setEng e { x.setFlag 5 false with dropped := 0 })
  | 0x10010 => (Nat.min x.watchdog 0xFFFF, s)
  | 0x10020 => (x.accStart.toNat, s)
  | 0x10024 => (x.accLength.toNat, s)
  | 0x10028 => (x.accLaunch.toNat, s)
  | 0x1002C => (x.accGo.value, s)
  | 0x10030 => (x.pwAddr.toNat, s)
  | 0x10034 => (x.pwValue.toNat, s)
  | 0x10038 => (x.pwGo.value, s)
  | _ => (0, s)

/-- A station-mode accept is submitted (R107, R109, R163). -/
def State.submitAccept (s : State) (e : Fin 128) : State :=
  let x := s.engines[e]
  if x.accGo.pending then s.bump (pEngCntPortRefused e.val)
  else
    let s1 := s.setEng e { x with accGo := ⟨x.accGo.status, true⟩ }
    s1.receiveAccept ⟨0, s1.extend30 (x.accStart.setWidth 30), x.accLength, s1.extend30 (x.accLaunch.setWidth 30)⟩ (some e) 0

/-- A parameter write is submitted (R108, R109): it waits for a round of Aelko's, which it wakes (R357). -/
def State.submitWrite (s : State) (e : Fin 128) : State :=
  let x := s.engines[e]
  if x.pwGo.pending then s.bump (pEngCntPortRefused e.val)
  else
    let s1 := s.setEng e { x with pwGo := ⟨x.pwGo.status, true⟩ }
    ({ s1 with keeper := { s1.keeper with window := s1.keeper.window ++ [⟨e, x.pwAddr, x.pwValue⟩] } } : State).raiseSignal s.aelkoIsland

/-- A write of the port window (Table 5.4): read-only and unassigned registers discard it. -/
def State.portWrite (s : State) (e : Fin 128) (ea : Nat) (w : Word) : State :=
  let x := s.engines[e]
  match ea with
  | 0x10020 => s.setEng e { x with accStart := w &&& 0x3FFFFFFF#32 }
  | 0x10024 => s.setEng e { x with accLength := w }
  | 0x10028 => s.setEng e { x with accLaunch := w &&& 0x3FFFFFFF#32 }
  | 0x1002C => s.submitAccept e
  | 0x10030 => s.setEng e { x with pwAddr := w }
  | 0x10034 => s.setEng e { x with pwValue := w }
  | 0x10038 => s.submitWrite e
  | _ => s

/-- A load from table space. -/
def State.engTableLoad (s : State) (e : Fin 128) (w : Word) (d a : Fin 16) (imm : BitVec 18) (size : Nat) (lost : Bool) : State :=
  let ea := ((s.engines[e]).get a + sx18 imm).toNat
  s.engTable e w ea (s.tableTrap e ea size true false) 1 lost (fun t =>
    let r := if inPort ea then t.portRead e ea else ((t.tiles[tileOfEng e]).table.getLe ea size, t.correctTable (tileOfEng e) (ea / 4))
    r.2.modEng e (fun y => { y.put d (BitVec.ofNat 32 r.1) with loaded := .reg d }))

/-- A store to table space. -/
def State.engTableStore (s : State) (e : Fin 128) (w : Word) (d a : Fin 16) (imm : BitVec 18) (size : Nat) (lost : Bool) : State :=
  let x := s.engines[e]
  let ea := (x.get a + sx18 imm).toNat
  let fresh := fun (ks : List Nat) => if size = 4 then ks.filter (fun k => k ≠ ea / 4) else ks
  s.engTable e w ea (s.tableTrap e ea size (decide (size < 4)) true) (if size = 4 then 1 else 2) lost (fun t =>
    if inPort ea then t.portWrite e ea (x.get d)
    else (if size = 4 then t else t.correctTable (tileOfEng e) (ea / 4)).modTile (tileOfEng e) (fun y => { y with
      table := y.table.putLe ea size (x.get d).toNat, tableCe := fresh y.tableCe, tableBad := fresh y.tableBad }))

/-! ### Starting and stopping (R123, R125) -/

/-- An engine starts at ENG.ENTRY (R123). -/
def State.engBegin (s : State) (e : Fin 128) (restarts : Nat) : State :=
  s.modEng e (fun x => { x with
    state := .running, queue := [], late := [], v := Vector.replicate 16 0, h0 := 0, h1 := 0, flags := 0, watchdog := 0, restarts := restarts
    pc := BitVec.ofNat 11 (s.rd (pEngEntry e.val)), loaded := .none, ready := s.cycle })

/-- Whether an engine executes: RUNNING, SLEEPING or WAITING. -/
def EngState.executes : EngState → Bool
  | .running | .sleeping | .waiting => true
  | _ => false

/-- An engine stops (R123): no effect on one that does not execute. -/
def State.engEnd (s : State) (e : Fin 128) : State :=
  if (s.engines[e]).state.executes then s.modEng e (fun x => { x with state := .stopped, queue := [], late := [], loaded := .none }) else s

/-- Whether a short tick has been reached by NOW, which lags device time (R118, R144). -/
def State.reached (s : State) (t : BitVec 30) (lag : Fin 9) : Bool := decide ((t - shortTick (s.now - BitVec.ofNat 64 lag.val)).toInt ≤ 0)

end Sys2Proof.Machine
end

