-- ==== Sys2Proof/Machine/Binary32.lean ====
section
/-! DEFINITION. IEEE 754 binary32 with round-to-nearest-even, as R383 computes with it. -/

namespace Sys2Proof.Machine

open Sys2Proof

/-- A binary32 datum taken apart: not a number, an infinity, or (−1)^neg × m × 2^e. -/
inductive Real32 where
  | nan
  | inf (neg : Bool)
  | fin (neg : Bool) (m : Nat) (e : Int)
  deriving DecidableEq, Repr

/-- A quiet NaN; its sign and payload are the implementation's (log entry 23). -/
def quietNaN : Word := 0x7FC00000#32 ||| ((Config.nanBits.setWidth 32) &&& 0x003FFFFF#32) ||| ((Config.nanBits.setWidth 32 >>> 22) <<< 31)

/-- The datum a word encodes. -/
def unpack32 (w : Word) : Real32 :=
  let ex : Nat := w.toNat / 2 ^ 23 % 256
  let fr : Nat := w.toNat % 2 ^ 23
  if ex = 255 then (if fr = 0 then .inf w.msb else .nan)
  else if ex = 0 then .fin w.msb fr (-149) else .fin w.msb (fr + 2 ^ 23) ((ex : Int) - 150)

/-- A sign put on the low 31 bits of a word. -/
def sign32 (neg : Bool) (bits : Nat) : Word := BitVec.ofNat 32 ((if neg then 2 ^ 31 else 0) + bits)

/-- A quotient of naturals rounded to nearest, ties to even. -/
def roundEven (num den : Nat) : Nat :=
  let q := num / den
  let r := num % den
  if den < 2 * r ∨ (2 * r = den ∧ q % 2 = 1) then q + 1 else q

/-- (−1)^neg × m × 2^e rounded to binary32. -/
def pack32 (neg : Bool) (m : Nat) (e : Int) : Word :=
  if m = 0 then sign32 neg 0
  else
    let q := max (e + (Nat.log2 m : Int) - 23) (-149)
    let sig := if q ≤ e then m * 2 ^ (e - q).toNat else roundEven m (2 ^ (q - e).toNat)
    let bits := if sig < 2 ^ 23 then sig else (q + 149).toNat * 2 ^ 23 + sig
    sign32 neg (min bits 0x7F800000)

/-- A product in binary32. -/
def mul32 (a b : Word) : Word :=
  match unpack32 a, unpack32 b with
  | .nan, _ => quietNaN
  | _, .nan => quietNaN
  | .inf s, .inf t => sign32 (s != t) 0x7F800000
  | .inf s, .fin t m _ => if m = 0 then quietNaN else sign32 (s != t) 0x7F800000
  | .fin s m _, .inf t => if m = 0 then quietNaN else sign32 (s != t) 0x7F800000
  | .fin s m e, .fin t n f => pack32 (s != t) (m * n) (e + f)

/-- A sum in binary32; opposite zeros and exact cancellation give +0. -/
def add32 (a b : Word) : Word :=
  match unpack32 a, unpack32 b with
  | .nan, _ => quietNaN
  | _, .nan => quietNaN
  | .inf s, .inf t => if s = t then sign32 s 0x7F800000 else quietNaN
  | .inf s, .fin _ _ _ => sign32 s 0x7F800000
  | .fin _ _ _, .inf t => sign32 t 0x7F800000
  | .fin s m e, .fin t n f =>
    let g := min e f
    let x : Int := (if s then -1 else 1) * (m * 2 ^ (e - g).toNat : Nat) + (if t then -1 else 1) * (n * 2 ^ (f - g).toNat : Nat)
    if x = 0 then sign32 (s && t) 0 else pack32 (x < 0) x.natAbs g

/-- num × 2^e / 1 rounded to binary32, for an integer. -/
def ofInt32 (x : Int) (e : Int) : Word := pack32 (x < 0) x.natAbs e

/-- A finite datum as numerator and positive denominator; an infinity as ±2^128; none for a NaN. -/
def ratio32 (w : Word) : Option (Int × Int) :=
  match unpack32 w with
  | .nan => none
  | .inf s => some ((if s then -1 else 1) * 2 ^ 128, 1)
  | .fin s m e => some ((if s then -1 else 1) * (m * 2 ^ e.toNat : Nat), 2 ^ (-e).toNat)

/-- One of the three cubics of R383. -/
def cubic32 (c0 c1 c2 c3 x : Word) : Word := add32 (mul32 (add32 (mul32 (add32 (mul32 c3 x) c2) x) c1) x) c0

/-- The engineering value of R383 from the 12 coefficients, s and T. -/
def engineering (cs : List Word) (x t : Word) : Word :=
  let p := fun (j : Nat) => cubic32 (cs[4 * j]?.getD 0) (cs[4 * j + 1]?.getD 0) (cs[4 * j + 2]?.getD 0) (cs[4 * j + 3]?.getD 0) x
  add32 (mul32 (add32 (mul32 (p 2) t) (p 1)) t) (p 0)

end Sys2Proof.Machine
end

