-- ==== Sys2Proof/Machine/KeeperOps.lean ====
section
/-! DEFINITION. The shared operations on the management cores and MRAM (spec/13, 15, 16): batches, checkpoints, boots, failover and the
self-test of the spare. -/

namespace Sys2Proof.Machine

open Sys2Proof

/-- The state with the MRAM changed. -/
def State.modMram (s : State) (f : Mram → Mram) : State := { s with mram := f s.mram }

/-! ### Checkpoints (R337, R338) -/

/-- Aelko's own state as a checkpoint holds it (R337). -/
def State.takeCheckpoint (s : State) : Checkpoint :=
  { seq := s.mram.checkpointSeq, tick := s.now, ledger := s.mram.ledgerHead, bootCount := s.keeper.bootCount
    quarantined := ((List.finRange 4).filter (fun u => (s.comp.units[u]).state == .quarantined)).map (fun u => u.val)
    calNext := s.tiles.toList.map (fun (t : TileState) => t.calNext)
    dacCodes := (List.range 8).map (fun d => s.rd (pPfeDCode d))
    maint := s.fd.maint.toList.map (fun (m : Option Maint) => m.bind (fun x => x.ends)), valid := true }

/-- A checkpoint takes the place of what its slot of the ring of 16 held (R337). -/
def Mram.putCheckpoint (m : Mram) (c : Checkpoint) : Mram :=
  { m with checkpoints := { c with seq := m.checkpointSeq } :: m.checkpoints.filter (fun x => x.seq.toNat % 16 ≠ m.checkpointSeq.toNat % 16) }

/-- A checkpoint is written (R337). -/
def State.storeCheckpoint (s : State) (c : Checkpoint) : State :=
  let s1 := s.modMram (fun m => { m.putCheckpoint c with checkpointSeq := m.checkpointSeq + 1 })
  s1.modKeeper (fun k => { k with ckptCommitted := 0, ckptAt := s.time.clock })

/-- A checkpoint written at once: false when its hold-up check defers it (R334, R343). Its batch is counted as 8,192 words (log entry 25). -/
def State.checkpointNow (s : State) : Bool × State :=
  match s.tryBatch 8192 with
  | (true, s1) => (true, s1.storeCheckpoint s1.takeCheckpoint)
  | (false, s1) => (false, if s.cutAt 8192 = 0 then s1 else s1.modMram (fun m => m.putCheckpoint { s.takeCheckpoint with valid := false }))

/-- The 32-byte header of a checkpoint (Table 15.1) with a body, whose layout is not exposed (log entry 25): in slot `seq` mod 16, with the two CRC-32C values. -/
def Checkpoint.header (c : Checkpoint) (body : List Byte) : List Byte :=
  let head := natLe 2 0x434B ++ natLe 1 1 ++ natLe 1 (c.seq.toNat % 16) ++ natLe 4 c.seq.toNat ++ natLe 8 c.tick.toNat ++ natLe 4 c.ledger.toNat ++
    natLe 4 body.length ++ natLe 4 (crc32c body).toNat
  head ++ natLe 4 (crc32c head).toNat

/-- The latest valid checkpoint (R337). -/
def Mram.latest (m : Mram) : Option Checkpoint := m.checkpoints.find? (fun c => c.valid)

/-- The recalibration positions that a core takes over from the latest checkpoint at its boot (R337, R339). -/
def State.loadPositions (s : State) : State :=
  match s.mram.latest with
  | none => s
  | some c => { s with tiles := Vector.ofFn (fun (t : Fin 16) => { (s.tiles[t]) with calNext := (c.calNext[t.val]?).getD 0 }) }

/-- At a cold start Aelko takes the quarantines from the latest checkpoint, since the units have lost theirs (R210, R337, R354). -/
def State.loadQuarantines (s : State) : State :=
  match s.mram.latest with
  | none => s
  | some c =>
    { s with
      comp := { s.comp with units := Vector.ofFn (fun (u : Fin 4) =>
        if c.quarantined.contains u.val then { (s.comp.units[u]) with state := .quarantined } else s.comp.units[u]) } }

/-- The loops of the bias DACs go on from the codes of the latest checkpoint (R337, R385). -/
def State.loadDacs (s : State) : State :=
  match s.mram.latest with
  | none => s
  | some c => (List.range 8).foldl (fun t d => if t.on 32 ∧ t.rd (pPfeDMode d) = 2 then t.wr (pPfeDCode d) ((c.dacCodes[d]?).getD 0) else t) s

/-! ### Batches (R356, R369) -/

/-- The 64-bit words of a batch. -/
def Batch.words : Batch → Nat
  | .log _ => 4
  | .incarnation _ => 1
  | .checkpoint _ => 8192

/-- The next waiting batch: error log entries first, then arrival order (R369). -/
def Mram.nextBatch (m : Mram) : Option Batch :=
  (m.waiting.find? (fun b => match b with
    | .log _ => true
    | _ => false)).orElse (fun _ => m.waiting.head?)

/-- A batch has been written. -/
def State.batchDone (s : State) (b : Batch) : State :=
  match b with
  | .log e => s.modMram (fun m => { m with log := (e :: m.log).take 8192, logBuffer := m.logBuffer.erase e })
  | .incarnation n => s.incarnationWritten n
  | .checkpoint c => s.storeCheckpoint c

/-- The batch in progress is cut at a word boundary (R336, R356): the slot of a checkpoint of which a word was written fails its check, any other batch waits
again; BATCH_CUT gives the words written before the cut, which no rule fixes (log entry 26). -/
def State.cutBatch (s : State) : State :=
  match s.mram.running with
  | none => s
  | some b =>
    let k := (Config.freeWord s.free).toNat % b.words
    let s1 := s.tickFree.modMram (fun m => match b with
      | .checkpoint c => if k = 0 then { m with running := none } else { m.putCheckpoint { c with valid := false } with running := none }
      | _ => { m with running := none, waiting := b :: m.waiting })
    s1.post 492 1 k

/-! ### Boots (R310, R340, R354) -/

/-- Whether a boot image passes its check (R323). -/
def bootImageOk (img : List Byte) : Bool :=
  1024 ≤ img.length && img.length ≤ 196608 && img.length % 4 == 0 && (crc32c (img.take (img.length - 4))).toNat == leNat (img.drop (img.length - 4))

/-- The boot bank a core boots from: the one in use, or the other where its check fails; BOOT_FAIL names the banks that failed (R354, R339). -/
def State.bootFrom (s : State) (ok : Fin 2 → Bool) : Option Nat × State :=
  let first : Fin 2 := if s.mram.bootBank = 1 then 1 else 0
  let other : Fin 2 := if first = 0 then 1 else 0
  if ok first then (some first.val, s)
  else if ok other then (some other.val, s.postLedger 492 2 (first.val + 1))
  else (none, s.postLedger 492 2 3)

/-- The image of a boot bank runs: FD_REV gives its Aelko release, from the image's bytes 0x004–0x005 (R323). -/
def State.runImage (s : State) (bank : Nat) : State :=
  { s with fd := { s.fd with release := BitVec.ofNat 16 (imageAt s.mram.bootImages[if bank = 1 then (1 : Fin 2) else 0] 4 2) } }

/-- The entries of the ledger from the latest valid checkpoint's sequence to the head, and those not yet committed, are replayed into Aelko's own state: the boot
count is that of the latest START entry (R310, R337, R339). Entries that fail their CRC-16 are skipped. -/
def State.replay (s : State) : State :=
  let good := s.mram.ring.reverse.filter (fun e => e.crcOk && s.mram.latest.all (fun c => decide (0 ≤ (e.seq - c.ledger).toInt)))
  s.modKeeper (fun k => { k with
    bootCount := (good ++ s.mram.buffer).foldl (fun n e => if e.kind = 11 then e.object.toNat else n) ((s.mram.latest.map (fun c => c.bootCount)).getD k.bootCount) })

/-- Aelko starts for the first time since a cold start (R310, R354): it takes the ledger's head and queues START. -/
def State.startAelko (s : State) (bank : Nat) : State :=
  let good := s.mram.ledger.filter (fun e => e.crcOk)
  let last := good.head?.map (fun e => e.seq)
  let boots := Nat.max ((s.mram.latest.map (fun c => c.bootCount)).getD 0) (((good.find? (fun e => e.kind = 11)).map (fun e => e.object.toNat)).getD 0) + 1
  let s1 := s.modMram (fun m => { m with ledgerHead := match last with
    | some q => q + 1
    | none => 0 })
  let s2 := ((s1.runImage bank).modKeeper (fun k => { k with bootCount := boots })).modFd (fun f => { f with stage := 3 })
  s2.ledgerLater (s2.entry 1 11 0 boots ((last.map (fun q => q.toNat)).getD 0xFFFFFFFF) s.power.cause (bit last.isNone))

/-- A RED_SELFTEST whose run has not ended within the command's 200 ms completes TIMEOUT; the run goes on (R314, R344, Table 14.16; log entry 40). -/
def State.selftestTimeout (s : State) : State :=
  match s.keeper.selftestMb with
  | some mb =>
    if s.aelkoRuns && decide (204800000 < s.time.clock - s.keeper.selftestAsked) then
      match s.keeper.inFlight[mb] with
      | some f => (s.modKeeper (fun k => { k with selftestMb := none })).finish mb f .timeout 0 []
      | none => s
    else s
  | none => s

/-- Every mailbox that was BUSY completes RESTARTED, but for the one whose reply the new core owes; transfers are abandoned (R300, R319), and decompression jobs
end with their commands (log entry 41). -/
def State.restartBusy (s : State) : State :=
  let own := s.keeper.switching.map (fun (x : Fin 8 × InFlight) => x.1)
  let busy := (List.finRange 8).filter (fun mb => s.fd.mb[mb] == .busy && own != some mb)
  let s1 := busy.foldl (fun (t : State) mb => match t.keeper.inFlight[mb] with
    | some c => (t.modKeeper (fun k => { k with inFlight := vput k.inFlight mb none })).reply mb c.code c.tag .restarted 0 []
    | none => t) s
  let s2 : State := { s1.modKeeper (fun k => { k with transfers := Vector.replicate 8 none, selftestMb := none }) with
    comp := { s1.comp with jobs := Vector.replicate 2 none, waiting := [] } }
  if busy = [] then s2 else s2.post 505 3 (busy.foldl (fun n mb => n + 2 ^ mb.val) 0)

/-- The command that the core now running owes its reply to completes (R333, R343). -/
def State.replySwitch (s : State) (st : Status) : State :=
  match s.keeper.switching with
  | none => s
  | some (mb, c) => (s.modKeeper (fun k => { k with switching := none, inFlight := vput k.inFlight mb none })).reply mb c.code c.tag st 0 []

/-! ### Failover (R336, R339–R343) -/

/-- The recalibrations of channels and stampers that Aelko had in hand are abandoned (R45, R60, R340). -/
def State.abandonCals (s : State) : State :=
  (List.finRange 5).foldl State.abandonStamper (s.eachChan (fun t ch => if (t.chans[ch]).state = .calibrating then t.endCal ch 7 else t))

/-- The fence closes and the spare powers up (R336, Table 15.2 steps 2–3); a self-test of the spare is abandoned. -/
def State.fencePair (s : State) : State :=
  let s0 := s.cutBatch.abandonCals.modFd (fun f => { f with aelkoReady := false })
  let s1 : State := { s0 with power := { s0.power with pairTesting := false } }
  let s2 := s1.modKeeper (fun k => { k with
    bootFrom := k.spare, spare := .spareActive, fenced := true, cycled := false, selftestRunning := none, selftestWaits := none })
  (s2.switchOffAuto 3 [28]).switchOnAuto 0 [29]

/-- The self-test of the spare begins (R344): PD29 is powered. -/
def State.startSelftest (s : State) (byCommand : Bool) : State :=
  let s1 := s.modKeeper (fun k => { k with spare := .selftest, selftestRunning := some (byCommand, s.now), selftestWaits := none, selftestAt := s.time.clock })
  s1.switchOnAuto 0 [29]

/-- The spare is cold again: PD29 off. Table 16.7 has no cause for this switch-off, so OFF carries a free one (log entry 27). -/
def State.spareOff (s : State) : State := s.tickFree.switchOffAuto ((Config.freeWord s.free).toNat % 16) [29]

end Sys2Proof.Machine
end

