-- ==== Sys2Proof/Machine/Thermal.lean ====
section
/-! DEFINITION. Thermal management (spec/16): samples, broken sensors, the thermal state and temperature compensation. -/

namespace Sys2Proof.Machine

open Sys2Proof

/-- The state with thermal management changed. -/
def State.modTherm (s : State) (f : Thermal → Thermal) : State := { s with therm := f s.therm }

/-- The state with one sensor changed. -/
def State.modSensor (s : State) (n : Fin 17) (f : Sensor → Sensor) : State := s.modTherm (fun t => { t with sensors := vmod t.sensors n f })

/-! ### The thermal state (R363–R365) -/

/-- Entry into CRITICAL (R365): acquisition disarms at the next milestone as ACQ_DISARM does, and the domains switch off there; a pending arming or disarming
stands, as ACQ_DISARM would find it, and a disarming that is pending is the one waited for (R149, log entry 79). With the timebase off there is no milestone to
wait for. -/
def State.enterCritical (s : State) : State :=
  let next := milestoneAt (s.now + 1)
  let s1 : State := match s.acq.state with
    | .armed => { s with acq := { s.acq with state := .disarmPending, disarmTick := next, criticalOff := some next } }
    | .disarmPending => { s with acq := { s.acq with criticalOff := some s.acq.disarmTick } }
    | .armPending | .disarmed => { s with acq := { s.acq with criticalOff := some next } }
  if s1.on 30 then s1 else s1.criticalOffNow

/-- A change of the thermal state (R363): STATE posted and ledgered, entries into THROTTLE counted; a self-test of the spare that waits for the end of
throttling begins (R344). -/
def State.thermTo (s : State) (x : ThermState) : State :=
  let s1 := (s.modTherm (fun t => { t with state := x, calm := 0 })).postLedger 482 1 x.code
  match x with
  | .throttle => s1.bump pThermCntThrottle
  | .critical => s1.enterCritical
  | _ => match s1.keeper.selftestWaits with
    | some byCommand => if s1.keeper.spare = .pair then s1.startSelftest byCommand else s1
    | none => s1

/-- A thermal limit. -/
def State.limit (s : State) (a : Nat) : Int := signed 16 (s.rd a)

/-- The row of Table 16.6 for leaving a state that is calm, and whether its condition holds now. -/
def State.thermCalm (s : State) : Bool :=
  let t := s.hottest.1
  let r := s.fastest.1
  let hyst : Int := s.rd pThermHyst
  match s.therm.state with
  | .throttle => decide (t < s.limit pThermTThrottle - hyst) && !rateReached r (s.rd pThermRWarn)
  | .warn => decide (t < s.limit pThermTWarn - hyst) && !rateReached (2 * r) (s.rd pThermRWarn)
  | _ => false

/-- The thermal state after a 16 ms update: the first row of Table 16.6 that applies. A condition found at 64 updates in a row has held for 63 × 16 ms, the first
number that makes 1 s. -/
def State.thermNext (s : State) : ThermState :=
  let t := s.hottest.1
  let r := s.fastest.1
  let hot : Bool := decide (s.limit pThermTThrottle ≤ t) || rateReached r (s.rd pThermRThrottle)
  let warm : Bool := decide (s.limit pThermTWarn ≤ t) || rateReached r (s.rd pThermRWarn)
  let rested : Bool := decide (64 ≤ s.therm.calm)
  match s.therm.state with
  | .normal => if hot then .throttle else if warm then .warn else .normal
  | .warn => if hot then .throttle else if rested then .normal else .warn
  | .throttle => if rested then .warn else .throttle
  | .critical => if t < s.limit pThermTCrit - 160 then .throttle else .critical

/-! ### Samples (R44, R46, R361, R362) -/

/-- Whether a reading or rate asks for sampling at 16 kHz (R361); 4,096 samples at that rate make the 256 ms in which none must ask for it. -/
def State.wantsFast (s : State) (n : Fin 17) : Bool :=
  let x := s.therm.sensors[n]
  decide (s.limit pThermTWarn - 80 ≤ x.reading ∨ s.limit pThermTThrottle - 80 ≤ x.reading ∨ s.limit pThermTCrit - 80 ≤ x.reading) ||
    !rateReached (-x.rate) (-(s.rd pThermRWarn : Int))

/-- Whether a sensor differs from each of its neighbours by more than 8 °C (R362). -/
def State.deviates (s : State) (n : Fin 17) : Bool :=
  let x := (s.therm.sensors[n]).reading
  match s.neighbours n with
  | (some a, some b) => decide (128 < ((s.therm.sensors[a]).reading - x).natAbs ∧ 128 < ((s.therm.sensors[b]).reading - x).natAbs)
  | _ => false

/-- A sensor that has deviated on 16 consecutive samples is declared broken while at least 3 tile sensors are valid (R362). TEMP_SUBSTITUTED is posted then, and by
a tile that is off then never (log entry 74). -/
def State.checkBroken (s : State) (n : Fin 17) : State :=
  if !s.sensorValid n then s
  else if !s.deviates n then s.modSensor n (fun x => { x with deviating := 0 })
  else
    let run := (s.therm.sensors[n]).deviating + 1
    let valid := ((List.finRange 16).filter (fun k => s.sensorValid (ringSensor k.val))).length
    if run < 16 ∨ valid < 3 then s.modSensor n (fun x => { x with deviating := Nat.min run 16 })
    else
      let s1 := (s.modSensor n (fun x => { x with broken := true, deviating := 0 })).post (465 + n.val) 1 n.val
      if n.val < 16 ∧ s1.on n.val then s1.post (384 + n.val) 3 n.val else s1

/-- A write of 1 to THERM.S_READMIT (R362). -/
def State.sensorReadmit (s : State) (n : Fin 17) : State :=
  if s.sensorValid n then s else (s.modSensor n (fun x => { x with broken := false, deviating := 0 })).post (465 + n.val) 2 n.val

/-- A tile sets its TAC trim (R44, R55): at most one LSB towards its target, held within 0–1023, with TRIM_LIMIT at each sample whose target leaves that range. -/
def State.trimStep (s : State) (t : Fin 16) : State :=
  let temp := s.sensorTemp (ringSensor t.val)
  let s1 := s.wr (pTileTemp t.val) (unsigned 16 temp)
  if s1.rd (pTileTrimEn t.val) ≠ 1 then s1 else
  let target := trimTarget (s1.rd (pTileTacTrim0 t.val)) (signed 16 (s1.rd (pTileTacT0 t.val))) (signed 16 (s1.rd (pTileTacTc t.val))) temp
  let s2 := s1.wr (pTileTacTrim t.val) (trimNext (s1.rd (pTileTacTrim t.val)) target)
  if target < 0 ∨ 1023 < target then s2.post (384 + t.val) 1 (sat16 target) else s2

/-- The channels of a tile whose table was taken at a temperature too far from the tile's are due for recalibration, again after a run that failed, each posted once
while the difference stands and its table is the same (R46). A channel that is DISABLED or QUARANTINED is looked at once it has left that state. The argument of CAL_DUE is the size of the difference (log entry 74). -/
def State.calDueAll (s : State) (t : Fin 16) : State :=
  let temp := s.sensorTemp (ringSensor t.val)
  (List.finRange 16).foldl (fun u c =>
    let ch := chanOf t c
    let x := u.chans[ch]
    let diff := (temp - tableTemp ch.val x.table).natAbs
    if x.calStart.isSome ∨ x.state = .disabled ∨ x.state = .quarantined then u
    else if diff ≤ u.rd (pTileCalDt t.val) then u.modChan ch (fun y => { y with calDue := false, calPosted := false })
    else
      let v := u.modChan ch (fun y => { y with calDue := true, calPosted := true })
      if x.calPosted then v else v.post ch.val 7 (Nat.min diff 0xFFFF)) s

/-- The stampers' TAC current reference is trimmed as a tile's (R44, R59), from the precision front end's own sensor. -/
def State.stamperTrimStep (s : State) : State :=
  if !s.on 31 then s else
  let (trim0, t0, tc) := Config.stamperTac
  s.modRef (fun r => { r with trim := some (trimNext s.stamperTrim (trimTarget trim0 t0 tc (s.sensorTemp 16))) })

/-- The stampers whose table was taken more than 1 °C away are recalibrated unasked (R60). -/
def State.stampersDue (s : State) : State :=
  if !s.on 31 then s else
  let temp := s.sensorTemp 16
  (List.finRange 5).foldl (fun (u : State) (n : Fin 5) =>
    let x := u.ref.stampers[n]
    let diff : Nat := (temp - tableTemp (0x100 + n.val) x.table).natAbs
    if x.calibrating ∨ diff ≤ 16 then u
    else (u.post (stamperSource n) 6 (Nat.min diff 0xFFFF)).stamperCal n) s

/-- The run of samples of T at or above THERM.T_CRIT (R363); at 16 the state is CRITICAL. A sample of T is a round in which each sensor is sampled once, and a
sensor that is sampled again begins the next. -/
def State.critSample (s : State) (n : Fin 17) : State :=
  let one : BitVec 17 := 1#17 <<< n.val
  if s.hottest.1 < s.limit pThermTCrit then s.modTherm (fun x => { x with critRun := 0, critSeen := 0 })
  else if s.therm.critRun ≠ 0 ∧ !s.therm.critSeen.getLsbD n.val then s.modTherm (fun x => { x with critSeen := x.critSeen ||| one })
  else
    let run := Nat.min (s.therm.critRun + 1) 16
    let s1 := s.modTherm (fun x => { x with critRun := run, critSeen := one })
    if run = 16 ∧ s1.therm.state ≠ .critical then s1.thermTo .critical else s1

/-- SENSOR_SAMPLE (R44, R46, R59, R60, R361–R363): a sensor is sampled, in 1/16 °C. -/
def execSensorSample (sensor : Fin 17) (reading : Int) (s : State) : Out :=
  .next (if s.power.poreset ∨ s.fd.stage = 0 then s else
    let s1 := (s.modSensor sensor (fun x => { x with reading := reading, sum := x.sum + reading, samples := x.samples + 1 })).checkBroken sensor
    let s2 := s1.modSensor sensor (fun x => { x with fast := if s1.sensorValid sensor && s1.wantsFast sensor then 4096 else x.fast - 1 })
    let s3 := s2.critSample sensor
    if h : sensor.val < 16 then
      if s3.on sensor.val then (s3.trimStep ⟨sensor.val, h⟩).calDueAll ⟨sensor.val, h⟩ else s3
    else s3.stamperTrimStep.stampersDue)

/-! ### The 16 ms update (R361, R363, R366) -/

/-- The mean of the block that ends, in 1/4096 °C, and the rate over 256 ms. -/
def Sensor.update (x : Sensor) : Sensor :=
  if x.samples = 0 then x else
  let m := x.sum * 256 / x.samples
  let rate := match x.means[15]? with
    | some old => m - old
    | none => 0
  { x with sum := 0, samples := 0, means := (m :: x.means).take 16, rate := rate }

/-- The t of R366 in °C as a ratio; none where the source has no value. -/
def State.tbTemp (s : State) : Option (Int × Int) :=
  if s.rd pThermTbSource = 1 then
    let ok := (List.finRange 16).filter (fun k => s.sensorValid (ringSensor k.val))
    if ok = [] then none
    else some (ok.foldl (fun (x : Int) k => x + (s.therm.sensors[ringSensor k.val]).reading) 0, 16 * (ok.length : Int))
  else match idx? 32 (s.rd pThermTbInput) with
    | some i => ratio32 (s.pfe.inputs[i]).eng
    | none => none

/-- The rate correction of R366 in 10⁻¹⁵, which holds where t has no value. -/
def State.tbCorr (s : State) : Int :=
  if s.rd pThermTbSource = 0 then 0
  else match s.tbTemp with
    | none => s.therm.corr
    | some (num, den) =>
      let a := 16 * num - signed 16 (s.rd pThermTbT0) * den
      let b := 16 * den
      roundDiv (signed 32 (s.rd pThermTbC1) * a * b + signed 32 (s.rd pThermTbC2) * a * a) (b * b)

/-- RATE_HIGH where r first reaches THERM.R_WARN, and RATE_NORMAL where it has fallen below again (Table 16.7). -/
def State.rateEvents (s : State) : State :=
  let (r, k) := s.fastest
  let reached := rateReached r (s.rd pThermRWarn)
  match (List.finRange 17).find? (fun n => (s.therm.sensors[n]).high) with
  | none => if reached then (s.modSensor k (fun x => { x with high := true })).post 481 0x10 k.val else s
  | some n => if reached then s else (s.modSensor n (fun x => { x with high := false })).post 481 0x11 n.val

/-- RATE_UPDATE (R361, R363, R366): the rates, the thermal state and the timebase's correction. -/
def execRateUpdate (s : State) : Out :=
  .next (if s.power.poreset ∨ s.fd.stage = 0 then s else
    let s1 := (s.modTherm (fun t => { t with sensors := t.sensors.map Sensor.update })).rateEvents
    let s2 := s1.modTherm (fun t => { t with sensors := Vector.ofFn (fun (n : Fin 17) =>
      { (t.sensors[n]) with fast := if s1.sensorValid n && s1.wantsFast n then 4096 else (t.sensors[n]).fast }) })
    let s3 := s2.modTherm (fun t => { t with calm := if s2.thermCalm then t.calm + 1 else 0 })
    let next := s3.thermNext
    let s4 := if next = s3.therm.state then s3 else s3.thermTo next
    let corr := s4.tbCorr
    let s5 := s4.modTherm (fun t => { t with corr := corr })
    if s5.on 30 then (s5.setTime { s5.time with correction := corr }).rateLimit else s5)

end Sys2Proof.Machine
end

