-- ==== Sys2Proof/Machine/PfeOps.lean ====
section
/-! DEFINITION. The shared operations of the precision front end (spec/17): results, changes that unsettle them, conversions and scans. -/

namespace Sys2Proof.Machine

open Sys2Proof

/-- The state with the precision front end changed. -/
def State.modPfe (s : State) (f : Pfe → Pfe) : State := { s with pfe := f s.pfe }

/-- The state with one input changed. -/
def State.modInput (s : State) (n : Fin 32) (f : PfeInput → PfeInput) : State := s.modPfe (fun p => { p with inputs := vmod p.inputs n f })

/-- The input selected: PFE.SELECT (R372). -/
def State.pfeSelected (s : State) : Fin 32 := ⟨s.rd pPfeSelect % 32, Nat.mod_lt _ (by decide)⟩

/-- Whether an input names an excitation (R380). -/
def State.pfeUses (s : State) (n : Fin 32) (excB : Bool) : Bool := (s.rd (pPfeIExc n.val)).testBit (bit excB)

/-- Whether an excitation drives its pin: the selected input names it, and EXC_A is not off (R380). -/
def State.pfeDrives (s : State) (excB : Bool) : Bool := s.pfeUses s.pfeSelected excB && (excB || s.rd pPfeExcAMode != 0)

/-- Whether the results of an input carry OPEN (R381, R382). -/
def State.pfeOpen (s : State) (n : Fin 32) : Bool :=
  (s.pfe.tripA && s.pfeUses n false) || (s.pfe.tripB && s.pfeUses n true) || (s.rd (pPfeIExc n.val) == 0 && (s.pfe.inputs[n]).isOpen)

/-- The T of an input's linearisation as a binary32 number (R383). -/
def State.pfeTemp (s : State) (n : Fin 32) : Word :=
  let r := s.rd (pPfeITref n.val)
  match idx? 32 r with
  | some i => (s.pfe.inputs[i]).eng
  | none => if r = 0x20 then ofInt32 (s.sensorTemp 16) (-4) else 0

/-- A result's value before saturation (R372), from the input voltage in 10⁻¹² V: round(u × G × 2²³ / 2.5 V). -/
def pfeExact (u : Int) (gain : Nat) : Int := roundDiv (u * 2 ^ (gain + 23)) 2500000000000

/-- s of R383: value × 2.5 / (G × 2²³), rounded to binary32. -/
def pfeVolts (value : Int) (gain : Nat) : Word := ofInt32 (value * 5) (-(24 + (gain : Int)))

/-- How many results after a change are unsettled: k, and with interleaving 2k (R379). -/
def State.pfeUnsettle (s : State) : Nat := s.rd pPfeOrder * (1 + s.rd pPfeInterleave)

/-- A result is offered to the reduction unit (R171, R378): a sample if settled, closed and in range, otherwise its flags. -/
def State.reducePfe (s : State) (n : Fin 32) (value : Int) (settled isOpen ovr : Bool) : State :=
  if !s.streaming ∨ !s.on 34 then s else
  ([0, 1, 2] : List Nat).foldl (fun t d =>
    t.modAcc 1 n.val d (fun a =>
      if settled ∧ !isOpen ∧ !ovr then a.sample value
      else { a with unsettled := a.unsettled || !settled, isOpen := a.isOpen || isOpen, ovr := a.ovr || ovr })) s

/-- Whether an input is tested for wire breaks (R382). -/
def State.pfeTested (s : State) (n : Fin 32) : Bool := s.rd (pPfeIExc n.val) == 0 && s.rd (pPfeIBurnout n.val) != 0

/-- Whether a burnout test of an input has fallen due: PFE.I_BURNOUT results since the last (R382). -/
def State.pfeDue (s : State) (n : Fin 32) : Bool := s.pfeTested n && decide (s.rd (pPfeIBurnout n.val) ≤ (s.pfe.inputs[n]).count)

/-- A result is written (R372, R378, R383): flags, value, engineering value, OVERRUN, counters, and the reduction unit's sample; a result of a tested input counts
towards its next test (R382), and one that enters PFE.I_ENG is a new temperature for the DACs that take it (R385). -/
def State.pfeResult (s : State) (u : Int) (forced : Bool) : State :=
  let n := s.pfeSelected
  let gain := s.rd (pPfeIGain n.val)
  let exact := pfeExact u gain
  let value := clamp (-8388608) 8388607 exact
  let ovr : Bool := decide (exact ≠ value)
  let isOpen := s.pfeOpen n || decide (0 < s.pfe.openWords)
  let settled : Bool := s.pfe.unsettled = 0 && !s.pfe.delay && !forced && !isOpen
  let y := engineering (s.pfe.inputs[n]).coefs (pfeVolts value gain) (s.pfeTemp n)
  let enters : Bool := settled && !ovr
  let word := bit settled * 2 ^ 31 + bit isOpen * 2 ^ 30 + bit ovr * 2 ^ 29 + n.val * 2 ^ 24 + unsigned 24 value
  let s1 := s.modPfe (fun p => { p with
    result := BitVec.ofNat 32 word, eng := y, tick := s.now, overrun := p.overrun || p.unread, unread := true
    settled := p.settled + bit settled
    inputs := vmod p.inputs n (fun i => { i with ovr := ovr, eng := if enters then y else i.eng, count := i.count + bit (s.pfeTested n) })
    dacs := Vector.ofFn (fun (d : Fin 8) => { p.dacs[d] with due := (p.dacs[d]).due || (enters && s.rd (pPfeDTinput d.val) == n.val) }) })
  let s2 := s1.bump pPfeCntResults
  let s3 := if ovr then s2.bumpPost pPfeCntOvr 459 1 n.val else s2
  s3.reducePfe n value settled isOpen ovr

/-- Whether a filter word is in progress: the filter runs, and neither a test nor a delay without conversion stops it (R376, R379, R382). -/
def State.pfeWordRuns (s : State) : Bool := s.rd pPfeMode != 0 && !s.pfe.testing && !(s.pfe.delay && s.pfe.delayStops)

/-- A word in progress completes at once with SETTLED = 0 (R379); the spec does not say what the value of a word cut short is: it is free (log entry 24). With OPEN it
ends a SINGLE conversion (R376). -/
def State.pfeCutOne (s : State) : State :=
  if s.pfe.converting && s.pfeWordRuns then
    let s1 := (s.tickFree).pfeResult (Config.freeWord s.free).toInt true
    if s1.rd pPfeMode = 1 ∧ s1.pfe.result.getLsbD 30 = true then s1.modPfe (fun p => { p with converting := false }) else s1
  else s

/-- So many words in progress complete at once. -/
def State.pfeCutWords (s : State) : Nat → State
  | 0 => s.modPfe (fun p => { p with openWords := 0 })
  | k + 1 => s.pfeCutOne.pfeCutWords k

/-- The words in progress inside a word period: one of each modulator that converts (R374). -/
def State.pfeWords (s : State) : Nat := 1 + s.rd pPfeInterleave

/-- The words in progress complete at once (R379). -/
def State.pfeCutWord (s : State) : State := s.pfeCutWords s.pfeWords

/-- A change of Table 17.2 (R379): results become unsettled; a delay of non-zero length runs, without conversion if it stops it. -/
def State.pfeChange (s : State) (micros : Nat) (stops : Bool) : State :=
  s.modPfe (fun p => { p with
    unsettled := s.pfeUnsettle, delay := p.delay || micros != 0, delayStops := (p.delay && p.delayStops) || (stops && micros != 0), modulator := false })

/-- Whether a change of input switches an excitation: the two inputs name different ones. -/
def State.pfeSwitches (s : State) (a b : Fin 32) : Bool := s.rd (pPfeIExc a.val) != s.rd (pPfeIExc b.val)

/-- A change of input (R379): the words in progress, `words` of them, complete, the input is selected and settles; a visit of a scan begins its count (R376), and a burnout
test of the input before ends without a finding (log entry 84). -/
def State.pfeMove (s : State) (n : Fin 32) (words : Nat) : State :=
  let old := s.pfeSelected
  let s1 := (s.pfeCutWords words).wr pPfeSelect n.val
  let settle := s1.rd (pPfeISettle n.val)
  (s1.pfeChange (if s1.pfeSwitches old n then max settle (s1.rd pPfeExcSettle) else settle) true).modPfe (fun p => { p with
    settled := if s1.rd pPfeMode = 3 then 0 else p.settled, testing := false, testDue := false })

/-- The input that follows one in the scan: the next set in PFE.SCAN in ascending order, cyclically. -/
def State.scanNext (s : State) (n : Fin 32) : Option (Fin 32) :=
  (((List.range 32).map (fun k => (⟨(n.val + 1 + k) % 32, Nat.mod_lt _ (by decide)⟩ : Fin 32)))).find? (fun i => (s.rd pPfeScan).testBit i.val)

/-- The scan moves on (R376); with one input in PFE.SCAN there is no move, and the count of its results starts again. -/
def State.scanMove (s : State) (words : Nat) : State :=
  match s.scanNext s.pfeSelected with
  | some n => if n = s.pfeSelected then s.modPfe (fun p => { p with settled := 0 }) else s.pfeMove n words
  | none => s

/-- A conversion begins: PFE.SEQ increments (R377). -/
def State.pfeBegin (s : State) : State := s.modPfe (fun p => { p with converting := true, seq := p.seq + 1, settled := 0 })

/-- Whether the conversion or visit has what it stays for (Table 17.3). -/
def State.pfeVisitDone (s : State) : Bool := s.rd pPfeWords ≤ s.pfe.settled || s.pfe.result.getLsbD 30

/-- What follows a result of the conversion or visit (R376, Table 17.3): SINGLE ends, SCAN moves, with `words` words in progress: at the
end of a word only the other modulator has one. -/
def State.pfeAfter (s : State) (words : Nat) : State :=
  if !s.pfe.converting ∨ !s.pfeVisitDone then s
  else if s.rd pPfeMode = 1 then s.modPfe (fun p => { p with converting := false })
  else if s.rd pPfeMode = 3 then s.scanMove words else s

/-- A change of Table 17.2, `f`, that lets the words in progress complete while the input stays selected (R379, R382): a burnout test that falls due with them follows, and
a scan whose visit they complete moves. -/
def State.pfeCutChange (s : State) (f : State → State) (micros : Nat) (stops : Bool) : State :=
  let s1 := (f s.pfeCutWord).pfeChange micros stops
  if !(s.pfe.converting && s.pfeWordRuns) then s1
  else if s1.pfeDue s1.pfeSelected then s1.modPfe (fun p => { p with testing := true, testDue := false })
  else if s1.rd pPfeMode = 3 then s1.pfeAfter 0
  else s1

/-- A write to PFE.MODE (R376): the conversion in progress ends; 0 discards the word in progress; 2 and 3 begin one; leaving 0 settles the input. -/
def State.pfeModeWritten (s : State) (old new : Nat) : State :=
  let s1 := s.modPfe (fun p => { p with converting := false, testDue := p.testDue && new != 0, openWords := if new = 0 then 0 else p.openWords })
  let s2 := if old = 0 ∧ new ≠ 0 then s1.pfeChange (s1.rd (pPfeISettle s1.pfeSelected.val)) true else s1
  let s3 := if 2 ≤ new then s2.pfeBegin else s2
  if new = 3 ∧ !(s3.rd pPfeScan).testBit s3.pfeSelected.val then s3.scanMove (if old = 0 then 0 else s3.pfeWords) else s3

/-- What PFE_START does (R377, Table 17.4): the status of the command. -/
def State.pfeStart (s : State) (restart : Bool) : Status × State :=
  let mode := s.rd pPfeMode
  if mode = 0 then (.denied, s)
  else if !s.pfe.converting then (.ok, s.pfeBegin)
  else if !restart then (.denied, s.bumpPostCount pPfeCntStartLost 457 1)
  else if mode = 3 then
    match (List.finRange 32).find? (fun i => (s.rd pPfeScan).testBit i.val) with
    | some n => (.ok, s.pfeMove n s.pfeWords)
    | none => (.ok, s)
  else if mode = 1 then (.ok, s.pfeBegin)
  else (.ok, s.modPfe (fun p => { p with seq := p.seq + 1 }))

/-- An excitation of the selected input has been switched (R379): conversion goes on, and EXC_SETTLE runs. -/
def State.pfeExcChange (s : State) : State := s.pfeChange (s.rd pPfeExcSettle) false

/-- The result register is read (R378): it counts as read. -/
def State.pfeRead (s : State) : State := s.modPfe (fun p => { p with unread := false })

/-! ### Bias-trim DACs (R385) -/

/-- The state with one DAC changed. -/
def State.modDac (s : State) (d : Fin 8) (f : Dac → Dac) : State := s.modPfe (fun p => { p with dacs := vmod p.dacs d f })

/-- The temperature a DAC's loop takes, as a ratio; none where it has no value. -/
def State.dacTemp (s : State) (d : Fin 8) : Option (Int × Int) :=
  match idx? 32 (s.rd (pPfeDTinput d.val)) with
  | some i => ratio32 (s.pfe.inputs[i]).eng
  | none => some (s.sensorTemp 16, 16)

/-- Whether a new valid temperature has come for a DAC's loop (R385): a result of its input that entered PFE.I_ENG, or 1 ms of sensor 16. -/
def State.dacDue (s : State) (d : Fin 8) : Bool := match idx? 32 (s.rd (pPfeDTinput d.val)) with
  | some _ => (s.pfe.dacs[d]).due
  | none => decide ((s.pfe.dacs[d]).lastTemp + 1024000 ≤ s.time.clock)

/-- One update of the loop of R385 at the temperature num / den. -/
def State.dacStep (s : State) (d : Fin 8) (num den : Int) : State :=
  let code : Int := s.rd (pPfeDCode d.val)
  let step : Int := s.rd (pPfeDStep d.val)
  let lo : Int := s.rd (pPfeDMin d.val)
  let hi : Int := s.rd (pPfeDMax d.val)
  let tc := signed 16 (s.rd (pPfeDTc d.val))
  let t0 := signed 16 (s.rd (pPfeDT0 d.val))
  let target : Int := (s.rd (pPfeDCode0 d.val) : Int) + roundDiv (tc * (16 * num - t0 * den)) (256 * den)
  let free := code + max (min (target - code) step) (-step)
  let new := max (min free hi) lo
  let binds : Bool := decide (free ≠ new)
  let was := (s.pfe.dacs[d]).limit
  let held := (s.pfe.dacs[d]).hold
  let s1 := (s.wr (pPfeDCode d.val) new.toNat).modDac d (fun _ => ⟨binds, false, s.time.clock, false⟩)
  let arg := d.val + 256 * bit (decide (hi < free))
  let s2 := if binds ∧ !was then (s1.post 463 1 arg).ledgerEvent 1 463 1 arg else s1
  if held then s2.post 463 3 d.val else s2

end Sys2Proof.Machine
end

