-- ==== Sys2Proof/Machine/Views.lean ====
section
/-! DEFINITION. Reading parameters (R12, R13, R326): the items that show the machine's state, the snapshots that a read takes and what a read clears. -/

namespace Sys2Proof.Machine

open Sys2Proof

/-- The low 32 bits of a number, as an item ending _LO reads. -/
def lo32 (x : Nat) : Nat := x % 2 ^ 32
/-- The bits above the low 32, as an item ending _HI reads. -/
def hi32 (x : Nat) : Nat := x / 2 ^ 32 % 2 ^ 32

/-- The applied rate as TIME.RATE reads it: 64 bits, signed, 10⁻¹⁵. -/
def State.rate64 (s : State) : Nat := unsigned 64 s.appliedRate

/-- D_FLAGS of a domain (Table 4.12). -/
def State.domainFlags (s : State) (d : Fin 2) : Nat :=
  let x := s.time.domains[d]
  bit x.lost + 2 * bit x.masterJump + 4 * bit x.pathChanged + 8 * bit x.tracking + 16 * bit (s.healthy d) + 32 * bit (s.syntonised d) +
    64 * bit x.proposalValid + 128 * bit x.proposalHoldover

/-- TIME.STATE (Table 4.12). -/
def State.timeState (s : State) : Nat :=
  s.time.servo.code + 16 * s.time.active.val + 32 * bit (s.time.servo == .locked) + 64 * bit s.inHoldover + 128 * bit s.time.restep.isSome

/-- ACQ.STATE (Table 7.7). -/
def State.acqState (s : State) : Nat := s.acq.state.code + 256 * bit (s.acq.deadMask != 0) + 512 * s.acq.deadMask.toNat

/-- A duration in units of 1,024 ticks, saturating. -/
def kilo (x : Nat) : Nat := Nat.min (x / 1024) 0xFFFFFFFF

/-- Seconds since a count of the measurement clock. -/
def State.secondsSince (s : State) (clock : Nat) : Nat := (s.time.clock - clock) / secondTicks

/-- The rooms in some states. -/
def State.roomsIn (s : State) (f : Room → Bool) : Nat := (s.porter.rooms.filter (fun r => f r.2)).length

/-- The bookings READY or SENDING. -/
def State.roomsReady (s : State) : Nat := (s.porter.bookings.filter (fun b => b.2.state == .ready || b.2.state == .sending)).length

/-- SPARE.CKPT_AGE: seconds since the latest valid checkpoint, saturating (Table 15.9). -/
def State.ckptAge (s : State) : Nat :=
  match s.mram.latest with
  | some c => Nat.min ((s.now - c.tick).toNat / secondTicks) 0xFFFFFFFF
  | none => 0

/-- THERM.STATE (Table 16.9). -/
def State.thermState (s : State) : Nat := s.therm.state.code + 16 * bit (s.therm.sensors.any (fun x => decide (0 < x.fast)))

/-- The mask of broken sensors. -/
def State.brokenMask (s : State) : Nat := (List.finRange 17).foldl (fun n k => n + 2 ^ k.val * bit (s.therm.sensors[k]).broken) 0

/-- Items of classes CHAN and TILE (Tables 2.12, 2.13). -/
def State.viewChan (s : State) (item i : Nat) : Option Nat :=
  match idx? 256 i with
  | none => none
  | some ch =>
    let c := s.chans[ch]
    match item with
    | 0x00A => some c.state.code
    | 0x00B => some (match c.table with
      | some t => unsigned 16 t.calTemp
      | none => (Config.factoryTemp i).toNat)
    | 0x00C => let (lo, hi) := tableSpan i c.table; some (lo % 1024 + hi % 1024 * 0x10000)
    | 0x00D => some (match c.tableBuilt with
      | some b => Nat.min (s.secondsSince b) 0xFFFFFFFF
      | none => 0xFFFFFFFF)
    | _ => none

/-- TILE.CAL_CHANNEL. -/
def State.viewTile (s : State) (item i : Nat) : Option Nat :=
  match item, idx? 16 i with
  | 0x00A, some t => some (match s.calibrating t with
    | some ch => ch.val % 16
    | none => 0xFF)
  | _, _ => none

/-- Items of class REFIN (Table 3.5). PPSIN_OFFSET holds the low 32 bits of an offset that needs more (log entry 75). -/
def State.viewRefin (s : State) (item i : Nat) : Option Nat :=
  match item with
  | 0x116 => (idx? 4 i).map (fun u => bit (s.ref.units[u]).start.isSome + 2 * bit (s.ref.units[u]).sat)
  | 0x208 => (idx? 4 i).map (fun n => match (s.ref.calout[n]).train with
    | none => 0
    | some t => (if (s.ref.calout[n]).launched = 0 ∧ t.next = 0 then 1 else 2) + 256 * (t.count - t.next))
  | 0x410 => some (unsigned 32 s.ref.pps.inOffset)
  | 0x413 => some (bit s.ref.pps.inValid + 0x10000 * (match s.ref.pps.inLast with
    | some c => Nat.min (s.secondsSince c) 0xFFFF
    | none => 0))
  | _ => none

/-- Items of class TIME (Table 4.12). -/
def State.viewTime (s : State) (item i : Nat) : Option Nat :=
  match item with
  | 0x010 => some (lo32 s.now.toNat)
  | 0x013 => some s.timeState
  | 0x014 => some (lo32 s.rate64)
  | 0x016 => some (lo32 (unsigned 64 s.time.lastStep))
  | 0x110 => (idx? 2 i).map s.domainFlags
  | 0x111 => (idx? 2 i).map (fun d => unsigned 32 (clamp (-2147483648) 2147483647 (s.time.domains[d]).offset))
  | 0x112 => (idx? 2 i).map (fun d => lo32 (unsigned 64 (s.time.domains[d]).mpd))
  | 0x113 => (idx? 2 i).map (fun d => hi32 (unsigned 64 (s.time.domains[d]).mpd))
  | 0x114 => (idx? 2 i).map (fun d => unsigned 32 (s.time.domains[d]).proposal)
  | _ => none

/-- ENG.TRAP: cause and PC of the last trap, and the restarts used. -/
def Engine.trapWord (x : Engine) : Nat := x.trapCause % 16 + x.trapPc.toNat * 2 ^ 16 + Nat.min x.restarts 15 * 2 ^ 28

/-- Items of class ENG (Table 5.9). -/
def State.viewEng (s : State) (item i : Nat) : Option Nat :=
  match idx? 128 i with
  | none => none
  | some e => match item with
    | 0x010 => some (s.engines[e]).state.code
    | 0x011 => some (s.engines[e]).pc.toNat
    | 0x012 => some (s.engines[e]).trapWord
    | _ => none

/-- Items of class ACQ (Table 7.7). -/
def State.viewAcq (s : State) (item : Nat) : Option Nat :=
  match item with
  | 0x010 => some s.acqState
  | 0x011 => some (lo32 s.acq.armTick.toNat)
  | 0x013 => some (lo32 s.acq.armedTicks)
  | 0x015 => some (lo32 s.acq.deadTicks)
  | 0x017 => some (kilo s.acq.deadCond[0])
  | 0x018 => some (kilo s.acq.deadCond[1])
  | 0x019 => some (kilo s.acq.deadCond[2])
  | 0x01A => some (kilo s.acq.deadCond[3])
  | 0x01B => some s.porter.bookings.length
  | 0x01C => some s.acq.stationSeq.toNat
  | _ => none

/-- Items of class ROOMS (Table 8.7). -/
def State.viewRooms (s : State) (item i : Nat) : Option Nat :=
  match item with
  | 0x010 => some s.porter.total
  | 0x011 => some s.porter.freeCount
  | 0x013 => some (s.roomsIn (fun r => decide (0 < r.pins)))
  | 0x014 => some (s.roomsIn (fun r => r.state == .detached))
  | 0x015 => some (s.roomsIn (fun r => r.state == .fragment || r.state == .index))
  | 0x016 => some (s.roomsIn (fun r => r.state == .monitor))
  | 0x017 => some (2048 - s.roomsIn (fun r => r.spare.isSome))
  | 0x018 => some s.roomsReady
  | 0x020 => some s.mapSnapshot.1
  | 0x021 => some s.porter.mapSnapshot.1.toNat
  | 0x022 => some s.porter.mapSnapshot.2.1.toNat
  | 0x023 => some s.porter.mapSnapshot.2.2.toNat
  | 0x101 => (idx? 17 i).map (fun k => (s.porter.chains[k]).all.length +
      if k = 16 then (s.porter.monitor.map (fun m => m.rooms.length)).foldl (· + ·) 0 else 0)
  | 0x102 => (idx? 17 i).map (fun k => kilo (s.depth k).toNat)
  | 0x103 => (idx? 17 i).map (fun k => lo32 (s.porter.chains[k]).held.toNat)
  | _ => none

/-- Items of class CMP (Table 9.7). -/
def State.viewCmp (s : State) (item i : Nat) : Option Nat :=
  match item with
  | 0x010 => some ((List.finRange 4).foldl (fun n u => n + 2 ^ u.val * bit ((s.comp.units[u]).state != .quarantined)) 0)
  | 0x011 => some (lo32 s.comp.rawBytes.toNat)
  | 0x013 => some (lo32 s.comp.outBytes.toNat)
  | 0x101 => (idx? 4 i).map (fun u => (s.comp.units[u]).state.code + 16 * Nat.min (s.comp.units[u]).mismatches 3)
  | 0x201 => (idx? 2 i).map (fun k => bit (s.comp.jobs[k]).isSome + 256 * (s.comp.errors[k] % 16))
  | _ => none

/-- Items of class PORT (Table 10.21). -/
def State.viewPort (s : State) (item i : Nat) : Option Nat :=
  if item = 0x203 then some s.mram.incarnation.toNat else
  match idx? 18 i with
  | none => none
  | some p =>
    let x := s.ports[p]
    match item with
    | 0x010 => some x.state.code
    | 0x011 => some (x.partner.toNat + x.partnerArray.toNat * 2 ^ 16 + x.inc.toNat * 2 ^ 24)
    | 0x012 => some (match x.lastInc with
      | some b => b.toNat + 256
      | none => 0)
    | 0x013 => some (x.granted - x.consumed).toNat
    | 0x014 => some x.summary.toNat
    | 0x015 => some x.testTag.toNat
    | 0x016 => some x.testTick.toNat
    | _ => none

/-- Items of class LANE (Table 11.12). -/
def State.viewLane (s : State) (item i : Nat) : Option Nat :=
  match item with
  | 0x205 => some (bit s.lanes.eqDefault)
  | 0x208 => some ((s.lanes.basex[if s.lanes.basexLast = 20 then (1 : Fin 2) else 0]).status (s.lanes.basexLast == 20))
  | _ => match idx? 21 i with
    | none => none
    | some l =>
      let x := s.lanes.lanes[l]
      match item with
      | 0x010 => some (s.laneState l).code
      | 0x011 => some (match s.portOfLane l with
        | some p =>
          let b := s.lanes.ports[p]
          b.rung + 16 * b.width + 256 * bit x.inverted + 512 * bit (b.state == .basex)
        | none => 256 * bit x.inverted)
      | 0x012 => some x.eq.toNat
      | 0x013 => some (x.errors.toNat + 2 ^ 16 * x.partnerErrors.toNat)
      | 0x014 => some (x.skew % 32)
      | _ => none

/-- Items of class MEM (Table 12.10). -/
def State.viewMem (s : State) (item i : Nat) : Option Nat :=
  match item with
  | 0x010 => some s.roomsFit
  | 0x012 => some s.mram.logHead.toNat
  | 0x101 => (idx? 4 i).map (fun m => (s.mem.channels[m]).state.code + 16 * (s.mem.channels[m]).cause)
  | 0x108 => (idx? 4 i).map (fun m => (s.mem.channels[m]).scrub)
  | _ => none

/-- Items of classes EVQ, LEDGER and SPARE (Tables 13.14, 13.15, 15.9). -/
def State.viewDesk (s : State) (cls item : Nat) : Option Nat :=
  match cls, item with
  | 18, 0x010 => some s.fd.events.length
  | 19, 0x010 => some s.mram.ledgerHead.toNat
  | 19, 0x011 => some (match s.mram.ring.getLast? with
    | some e => e.seq.toNat
    | none => s.mram.ledgerHead.toNat)
  | 19, 0x012 => some s.mram.buffer.length
  | 17, 0x010 => some s.keeper.spare.code
  | 17, 0x011 => some (match s.mram.latest with
    | some c => c.seq.toNat
    | none => 0)
  | 17, 0x012 => some s.ckptAge
  | 17, 0x013 => some s.keeper.reportSeq.toNat
  | _, _ => none

/-- Items of class PWR (Table 16.8). -/
def State.viewPwr (s : State) (item : Nat) : Option Nat :=
  match item with
  | 0x010 => some (lo32 s.power.domains.toNat)
  | 0x012 => some s.power.hold
  | 0x013 => some (s.power.cMeas.getD 0)
  | 0x014 => some s.energyMicro
  | 0x015 => some s.power.cause
  | _ => none

/-- Items of class THERM (Table 16.9). -/
def State.viewTherm (s : State) (item i : Nat) : Option Nat :=
  match item with
  | 0x010 => some s.thermState
  | 0x011 => let (t, n) := s.hottest; some (unsigned 16 t + 2 ^ 16 * n.val)
  | 0x012 => let (r, n) := s.fastest; some (unsigned 16 (rateUnits r) + 2 ^ 16 * n.val)
  | 0x013 => some s.brokenMask
  | 0x014 => some (unsigned 32 s.therm.corr)
  | 0x101 => (idx? 17 i).map (fun n => unsigned 16 (s.sensorTemp n) + 2 ^ 16 * bit (s.therm.sensors[n]).broken)
  | _ => none

/-- PFE.STATUS (Table 17.8); its three bits of unsettled results hold at 7 (log entry 28). -/
def State.pfeStatus (s : State) : Nat :=
  bit s.pfe.converting + 2 * bit (s.pfe.delay || s.pfe.testing) + 4 * Nat.min s.pfe.unsettled 7 + 256 * s.pfeSelected.val + 2 ^ 16 * bit s.pfe.tripA + 2 ^ 17 * bit s.pfe.tripB

/-- Items of class PFE (Table 17.8). -/
def State.viewPfe (s : State) (item i : Nat) : Option Nat :=
  match item with
  | 0x010 => some s.pfe.result.toNat
  | 0x011 => some s.pfe.eng.toNat
  | 0x012 => some s.pfeStatus
  | 0x013 => some (bit s.pfe.overrun)
  | 0x014 => some s.pfe.seq.toNat
  | 0x015 => some (lo32 s.pfe.tick.toNat)
  | 0x106 => (idx? 32 i).map (fun n => bit (s.pfeOpen n) + 2 * bit (s.pfe.inputs[n]).ovr + 4 * bit (s.pfe.inputs[n]).valid)
  | 0x107 => (idx? 32 i).map (fun n => (s.pfe.inputs[n]).eng.toNat)
  | 0x20A => (idx? 8 i).map (fun d => bit (s.pfe.dacs[d]).limit + 2 * bit (s.pfe.dacs[d]).hold)
  | _ => none

/-- What an item that shows the machine's state reads; none for one that reads as stored. -/
def State.view (s : State) (a : Nat) : Option Nat :=
  let item := addrItem a
  let i := addrInst a
  match addrCls a with
  | 1 => s.viewChan item i
  | 2 => s.viewTile item i
  | 5 => s.viewEng item i
  | 6 => s.viewAcq item
  | 7 => s.viewRooms item i
  | 8 => s.viewCmp item i
  | 9 => s.viewMem item i
  | 10 => s.viewLane item i
  | 11 => s.viewPort item i
  | 12 => s.viewTime item i
  | 13 => s.viewRefin item i
  | 14 => s.viewPfe item i
  | 15 => s.viewTherm item i
  | 16 => s.viewPwr item
  | c => s.viewDesk c item

/-- The 64-bit quantity of which a read of an item ending _LO takes a snapshot. -/
def State.wide (s : State) (a : Nat) : Option Nat :=
  match addrCls a, addrItem a with
  | 12, 0x010 => some s.now.toNat
  | 12, 0x014 => some s.rate64
  | 12, 0x016 => some (unsigned 64 s.time.lastStep)
  | 6, 0x011 => some s.acq.armTick.toNat
  | 6, 0x013 => some s.acq.armedTicks
  | 6, 0x015 => some s.acq.deadTicks
  | 7, 0x103 => (idx? 17 (addrInst a)).map (fun k => (s.porter.chains[k]).held.toNat)
  | 8, 0x011 => some s.comp.rawBytes.toNat
  | 8, 0x013 => some s.comp.outBytes.toNat
  | 14, 0x015 => some s.pfe.tick.toNat
  | 16, 0x010 => some s.power.domains.toNat
  | _, _ => none

/-- The snapshot that a read takes before its value is formed (R62, R67, R99, R177, R196, R216, R371, R387): the upper half is held at the _HI item's
own address. -/
def State.snapshot (s : State) (a : Nat) : State :=
  match addrCls a, addrItem a with
  | 13, 0x010 => match idx? 4 (addrInst a) with
    | some n => s.freqSnapshot n
    | none => s
  | 13, 0x110 => match idx? 4 (addrInst a) with
    | some u => s.dmSnapshot u
    | none => s
  | 7, 0x020 => s.mapSnapshot.2
  | 12, 0x010 => (s.wr pTimeNowHi (hi32 s.now.toNat)).wr pTimeNowFine s.time.fine.toNat
  | _, _ => match s.wide a with
    | some x => s.wr (a + 1) (hi32 x)
    | none => s

/-- What a read leaves behind (Table 0.5, R12, R272, R378): an RC item is cleared to what the running tick has added to it, ROOMS.FREE_MIN restarts at the
present F, and a result counts as read. -/
def State.afterRead (s : State) (a : Nat) (acc : Acc) : State :=
  match addrCls a, addrItem a with
  | 7, 0x012 => s.wr a s.porter.freeCount
  | 14, 0x010 => s.pfeRead
  | 14, 0x013 => s.modPfe (fun p => { p with overrun := false })
  | 9, 0x107 => match idx? 4 (addrInst a) with
    | some m => (s.wr a 0).setChannel m { (s.mem.channels[m]) with overrun := false }
    | none => s
  | _, _ =>
    if acc = .rc then
      let n := (s.freshOf a (s.rd a)).2
      { s.wr a n with fresh := s.readFresh a n }
    else s

/-- Whether a parameter's power domain is on (R326). -/
def State.paramOn (s : State) (a : Nat) : Bool :=
  match paramDomain a with
  | some d => s.on d
  | none => true

/-- The value a parameter reads, without what the read leaves behind: the reset value while its domain is off, 0 for a WO item (R326), and of an RC item what it
held before the running tick (R12). -/
def State.peekParam (s : State) (a : Nat) : Nat :=
  match paramItem (addrCls a) (addrItem a) with
  | none => 0
  | some it =>
    if it.acc = .wo then 0
    else if !s.paramOn a then resetOf a
    else (s.view a).getD (if it.acc = .rc then (s.freshOf a (s.rd a)).1 else s.rd a)

/-- A read of an assigned parameter (R13, R326): its value and the state after it. -/
def State.readParam (s : State) (a : Nat) : Nat × State :=
  match paramItem (addrCls a) (addrItem a) with
  | none => (0, s)
  | some it =>
    if !s.paramOn a then (resetOf a, s)
    else
      let s1 := s.snapshot a
      (s1.peekParam a, s1.afterRead a it.acc)

/-- Whether an instance serves an item (Tables 7.7, 10.21; R248, R250, R266). -/
def State.serves (s : State) (a : Nat) : Bool :=
  let k := addrItem a
  let i := addrInst a
  match addrCls a with
  | 6 => k != 0x030 || decide (1 ≤ i)
  | 11 =>
    if 0x200 ≤ k then true
    else
      let own := if k = 0x002 then decide (i < 16) else if k = 0x003 then decide (16 ≤ i) else true
      own && (match idx? 18 i with
        | some p => s.inService p
        | none => false)
  | 10 =>
    if k = 0x030 ∨ k = 0x031 then
      (match idx? 21 i with
        | some l => (match s.lanePort l with
          | some p => decide (portLane p = i)
          | none => false)
        | none => false)
    else true
  | _ => true

/-- Whether an address names an assigned class, item and instance (R13). -/
def addrAssigned (a : Nat) : Bool :=
  match paramItem (addrCls a) (addrItem a) with
  | none => false
  | some it => decide (addrInst a < it.insts)

/-- Whether a parameter can be read (R13, R248): assigned, not instance 0xFFF, and of a port in service. -/
def State.readable (s : State) (a : Nat) : Bool := addrAssigned a && s.serves a

end Sys2Proof.Machine
end

