-- ==== Sys2Proof/Machine/ParamOps.lean ====
section
/-! DEFINITION. Writing parameters (R13, R292, R309, R326, R327): the six checks, the ledger entry and what a write does. -/

namespace Sys2Proof.Machine

open Sys2Proof

/-! ### Addresses and origins (checks 1–3) -/

/-- Whether a written address names the instance 0xFFF (R13). -/
def allInstances (a : Nat) : Bool := addrInst a = 0xFFF

/-- An address with another instance. -/
def withInst (a i : Nat) : Nat := pAddr (addrCls a) (addrItem a) i

/-- The address of the instance whose value before a write reports (R13): its own, or instance 0. -/
def reported (a : Nat) : Nat := if allInstances a then withInst a 0 else a

/-- The addresses a write names: its own, or every instance of the class in ascending order (R13). -/
def writeTargets (a : Nat) : List Nat :=
  if allInstances a then (List.range (((paramItem (addrCls a) (addrItem a)).map (fun it => it.insts)).getD 0)).map (withInst a) else [a]

/-- The items that only origins 2 and 3 may write (R292, R325). -/
def hostOnlyItem (a : Nat) : Bool :=
  match addrCls a, addrItem a with
  | 5, 0x006 | 8, 0x102 | 11, 0x201 | 17, 0x003 => true
  | _, _ => false

/-- The items a port-window write may name (R108). -/
def windowItem (a : Nat) : Bool :=
  addrCls a = 1 && (addrItem a = 1 || addrItem a = 2 || addrItem a = 6)

/-- Check 1: class, item and instance assigned, and the instance one that the item serves; 0xFFF names those it serves (R13). -/
def State.addressOk (s : State) (a : Nat) : Bool :=
  (paramItem (addrCls a) (addrItem a)).isSome && (allInstances a || (addrAssigned a && s.serves a))

/-- Whether the item's own rule allows the origin (check 2). -/
def originAllowed (o : Origin) (a : Nat) : Bool :=
  match o with
  | .enginePort => windowItem a && !allInstances a
  | _ => !hostOnlyItem a || hostOrigin o

/-! ### Values (check 4) -/

/-- Whether the item's own range allows a value; ranges leave reserved bits out. -/
def valueAllowed (a v : Nat) : Bool :=
  match paramItem (addrCls a) (addrItem a) with
  | none => false
  | some it => it.allowed.any (fun r => decide (r.1 ≤ v ∧ v ≤ r.2))

/-- The relations of an item with other items, and its other value rules, on a state that holds the value written (R70, R74, R187, R371, R376, R383,
Tables 10.21 and 16.8). -/
def State.relationOk (t : State) (a : Nat) : Bool :=
  let i := addrInst a
  let v := t.rd a
  match addrCls a, addrItem a with
  | 7, 0x002 | 7, 0x003 => decide (t.rd pRoomsReserve + 64 ≤ t.rd pRoomsLowWater)
  | 7, 0x004 | 7, 0x005 => decide (t.rd pRoomsWTrig ≠ 0 ∨ t.rd pRoomsWMon ≠ 0)
  | 11, 0x003 => decide (v % 4 = 0)
  | 13, 0x103 | 13, 0x104 => decide (t.rd (pRefinDmOpen i) < t.rd (pRefinDmClose i))
  | 13, 0x301 | 13, 0x302 =>
    let m := t.rd (pRefinCkM i)
    let d := t.rd (pRefinCkD i)
    decide (4096 * m ≤ 1000 * d ∧ d ≤ 1024000000 * m)
  | 15, 0x001 | 15, 0x002 | 15, 0x003 =>
    decide (t.limit pThermTWarn < t.limit pThermTThrottle ∧ t.limit pThermTThrottle < t.limit pThermTCrit)
  | 15, 0x005 | 15, 0x006 => decide (t.rd pThermRWarn < t.rd pThermRThrottle)
  | 16, 0x001 => v.testBit 28 && !v.testBit 29
  | 16, 0x002 => v.testBit 1
  | 14, 0x001 | 14, 0x007 => decide (t.rd pPfeMode ≠ 3 ∨ t.rd pPfeScan ≠ 0)
  | 14, 0x105 => decide (v = 0x20 ∨ v = 0x3F ∨ (v ≠ i ∧ (t.rd (pPfeITref v) = 0x20 ∨ t.rd (pPfeITref v) = 0x3F)))
  | 14, 0x208 | 14, 0x209 => decide (t.rd (pPfeDMin i) ≤ t.rd (pPfeDMax i))
  | _, _ => true

/-- The state with the instances of an item that are served holding a value: what the relations are judged on. -/
def State.stored (s : State) (a v : Nat) : State :=
  match paramItem (addrCls a) (addrItem a) with
  | some it => if it.acc = .rw then ((writeTargets a).filter s.serves).foldl (fun t b => t.wr b v) s else s
  | none => s

/-- Checks 1, 3 and 4 (R326), the relations judged on the state `final`. -/
def State.fixedCheck (s final : State) (a v : Nat) : Status :=
  match paramItem (addrCls a) (addrItem a) with
  | none => .badarg
  | some it =>
    if !s.addressOk a then .badarg
    else match it.acc with
      | .ro | .rc => .denied
      | _ => if valueAllowed a v ∧ (((writeTargets a).filter s.serves).all final.relationOk) then .ok else .badarg

/-! ### State (checks 5 and 6) -/

/-- An item's own rules on the device state (check 6: R53, R68, R123, R270, R376, R385). -/
def State.stateRuleOk (s : State) (a v : Nat) : Bool :=
  let i := addrInst a
  match addrCls a, addrItem a with
  | 1, 0x009 => v = 0 || (match idx? 256 i with
    | some ch => (s.chans[ch]).state == .quarantined
    | none => false)
  | 5, 0x001 => v ≠ 1 || (match idx? 128 i with
    | some e => !(s.engines[e]).state.executes
    | none => false)
  | 9, 0x007 => v = 0 || !s.streaming
  | 13, 0x207 => v = 0 || (match idx? 4 i with
    | some n => (s.ref.calout[n]).train.isNone
    | none => false)
  | 14, 0x002 => s.rd pPfeMode ≠ 3
  | 14, 0x202 => s.rd (pPfeDMode i) ≠ 2
  | _, _ => true

/-- The instances a write is made on: those served, with their domain on, whose state rules accept it (R13). -/
def State.writable (s : State) (a v : Nat) : List Nat :=
  (writeTargets a).filter (fun b => s.serves b && s.paramOn b && s.stateRuleOk b v)

/-- The status of a write of origin `o` that the origin rule allows: the first check of R326 that fails. -/
def State.writeStatus (s final : State) (a v : Nat) : Status :=
  match s.fixedCheck final a v with
  | .ok => if s.writable a v = [] then .denied else .ok
  | st => st

/-! ### What a write does -/

/-- A write to a CHAN item (R38, R49, R51, R53). -/
def State.writeChan (s : State) (ch : Fin 256) (item a v : Nat) : State :=
  match item with
  | 0x001 | 0x002 | 0x004 | 0x005 => (s.wr a v).configChan ch
  | 0x003 => if v = 0 then (s.wr a v).disableChan ch else (s.wr a v).enableChan ch
  | 0x009 => if v = 1 then s.readmit ch 2 else s
  | _ => s.wr a v

/-- A write to an ENG item (R123). -/
def State.writeEng (s : State) (e : Fin 128) (item a v : Nat) : State :=
  match item with
  | 0x001 => if v = 1 then s.engBegin e 0 else s.engEnd e
  | _ => s.wr a v

/-- A write to a REFIN item (R60, R61, R67–R71). -/
def State.writeRefin (s : State) (item a v : Nat) : State :=
  let i := addrInst a
  match item, idx? 4 i, idx? 2 i with
  | 0x001, some n, _ => s.refinSetting n .mode v
  | 0x002, some n, _ => s.refinSetting n .prescale v
  | 0x003, some n, _ => s.refinSetting n .edge v
  | 0x005, some n, _ => if v = 1 then s.stamperCal ⟨n.val, by omega⟩ else s
  | 0x105, some u, _ => if v = 1 then s.dmClear u else s
  | 0x207, some n, _ => if v = 1 then (s.coArm n).2 else s.coCancel n
  | 0x304, _, some m => s.ckEn m (v == 1)
  | 0x401, _, _ => s.ppsEn (v == 1)
  | _, _, _ => s.wr a v

/-- A write to a TIME item (R91, R93, R94). -/
def State.writeTime (s : State) (o : Origin) (item a v : Nat) : State :=
  match item, idx? 2 (addrInst a) with
  | 0x001, _ => (s.wr a v).sourceWritten (v == 1)
  | 0x103, some d => (s.wr a v).asymWritten d (signed 32 (s.rd a)) (signed 32 v) (hostOrigin o) 2
  | _, _ => s.wr a v

/-- A write to a PORT item (R237, R261, R346). -/
def State.writePort (s : State) (item a v : Nat) : State :=
  match item, idx? 18 (addrInst a) with
  | 0x001, some p => if v = 1 then s.enablePort p else if s.rd a = 1 then s.disablePort p else s
  | 0x201, _ => if s.rd a = v then s.sendRoles else s.moveDataPath v
  | _, _ => s.wr a v

/-- While LANE.MAC is 0 no MAC frame is sent, one that waits included (R264). -/
def State.macWritten (s : State) : State :=
  if s.rd pLaneMacLo = 0 ∧ s.rd pLaneMacHi = 0 then
    ([16, 17] : List (Fin 18)).foldl (fun t p => t.modPort p (fun x => { x with tx := x.tx.filter (fun f => match f.body with
      | .mac _ _ _ _ _ => false
      | _ => true) })) s
  else s

/-- A write to a LANE item (R252, R260, R261, R264). -/
def State.writeLane (s : State) (item a v : Nat) : State :=
  match item, (idx? 21 (addrInst a)).bind s.lanePort with
  | 0x030, some p =>
    let s1 := s.wr a v
    let b := s1.lanes.ports[p]
    let idle : Bool := b.state == .idle || b.state == .sleep || (b.state == .locking && (b.noWork || s1.rd (pPortPEnable p.val) == 0))
    if idle && !s1.basexPort p then s1.lowPower p else s1
  | 0x031, some p => if v = 1 then s.retrainPort p else s
  | 0x031, none => s
  | 0x206, _ | 0x207, _ => (s.wr a v).macWritten
  | _, _ => s.wr a v

/-- Whether a PFE item is an excitation of the selected input, or one that it uses (R379). -/
def State.excUsed (s : State) (item i : Nat) : Bool :=
  match item with
  | 0x008 | 0x009 => s.pfeUses s.pfeSelected false
  | 0x00A => s.pfeUses s.pfeSelected true
  | _ => decide (i = s.pfeSelected.val)

/-- A write to a PFE item (R376, R379, R385). -/
def State.writePfe (s : State) (item a v : Nat) : State :=
  let i := addrInst a
  let old := s.rd a
  match item with
  | 0x001 => (s.wr a v).pfeModeWritten old v
  | 0x002 => if v = old then s else s.pfeMove ⟨v % 32, Nat.mod_lt _ (by decide)⟩ s.pfeWords
  | 0x003 | 0x004 | 0x005 => s.pfeCutChange (fun t => t.wr a v) 0 false
  | 0x007 =>
    let s1 := s.wr a v
    if s1.rd pPfeMode = 3 ∧ !v.testBit s1.pfeSelected.val then s1.scanMove s1.pfeWords else s1
  | 0x008 | 0x009 | 0x00A | 0x103 => if v ≠ old ∧ (s.excUsed item i ∨ (s.wr a v).excUsed item i) then (s.wr a v).pfeExcChange else s.wr a v
  | 0x101 => if i = s.pfeSelected.val then s.pfeCutChange (fun t => t.wr a v) (s.rd (pPfeISettle i)) true else s.wr a v
  | 0x201 => match idx? 8 i with
    | some d => if v = 2 then (s.wr a v).modDac d (fun x => { x with lastTemp := s.time.clock, due := false }) else s.wr a v
    | none => s
  | 0x206 => match idx? 8 i with
    | some d => (s.wr a v).modDac d (fun x => { x with due := false })
    | none => s
  | _ => s.wr a v

/-- A write to one instance, checked and entered in the ledger, takes effect. -/
def State.applyWrite (s : State) (o : Origin) (a v : Nat) : State :=
  let item := addrItem a
  let i := addrInst a
  match addrCls a with
  | 1 => match idx? 256 i with
    | some ch => s.writeChan ch item a v
    | none => s
  | 5 => match idx? 128 i with
    | some e => s.writeEng e item a v
    | none => s
  | 6 => if item = 0x00C then (s.wr a v).limitMonitor else s.wr a v
  | 8 => match item, idx? 4 i with
    | 0x102, some u => if v = 1 then (s.unitReadmit u o).2 else s
    | _, _ => s.wr a v
  | 9 => if item = 0x007 then (if v = 1 then s.retrainMem.2 else s) else s.wr a v
  | 10 => s.writeLane item a v
  | 11 => s.writePort item a v
  | 12 => s.writeTime o item a v
  | 13 => s.writeRefin item a v
  | 14 => s.writePfe item a v
  | 15 => match item, idx? 17 i with
    | 0x102, some n => if v = 1 then s.sensorReadmit n else s
    | _, _ => s.wr a v
  | _ => s.wr a v

/-- A write is made on every instance it is made on, in ascending order. -/
def State.applyAll (s : State) (o : Origin) (a v : Nat) : State := (s.writable a v).foldl (fun t b => t.applyWrite o b v) s

/-! ### The ledger (R308, R309) -/

/-- The entries of one command are committed in one batch, before the change (R309): false when the hold-up check defers it (log entry 29). -/
def State.commitAll (s : State) (es : List LedgerEntry) : Bool × State :=
  match s.tryBatch (4 * es.length) with
  | (true, s1) => (true, es.foldl State.commitEntry s1)
  | (false, s1) => (false, s1.tornLedger (s.cutAt (4 * es.length)) es)

/-- The entry of a parameter write: PARAM, or PRIVILEGE for ENG.PRIV (Table 13.11). -/
def State.paramEntry (s : State) (o : Origin) (command tag a v : Nat) : LedgerEntry :=
  s.entry o.code (if addrCls a = 5 ∧ addrItem a = 6 then 8 else 1) command a (s.peekParam (reported a)) v tag

/-- PARAM_WRITE (R326): the status, the value before, and the state after. A port-window write to an address that R108 does not allow is DENIED whatever the
address (log entry 30). -/
def State.paramWrite (s : State) (o : Origin) (command tag a v : Nat) : Status × Nat × State :=
  let before := s.peekParam (reported a)
  let final := s.stored a v
  if !s.addressOk a ∧ o ≠ .enginePort then (.badarg, before, s)
  else if !originAllowed o a then 
    let (st, s1) := s.denied o command a tag
    (st, before, s1)
  else match s.writeStatus final a v with
    | .ok =>
      match s.commitAll [s.paramEntry o command tag a v] with
      | (true, s1) => (.ok, before, s1.applyAll o a v)
      | (false, s1) => (.deferred, before, s1)
    | st => (st, before, s)

/-- An entry of the configuration list acts as PARAM_WRITE with origin 1 and makes no entry of its own (R324). -/
def State.configWrite (s : State) (a v : Nat) : Status × State :=
  if !originAllowed .aelko a then (.denied, s)
  else match s.writeStatus (s.stored a v) a v with
    | .ok => (.ok, s.applyAll .aelko a v)
    | st => (st, s)

/-! ### Lists of writes (R327) -/

/-- The status of each pair on the state that the pairs before it leave, up to the first that fails: its index, its status and whether its origin
was refused. -/
def State.listStatus (s final : State) (o : Origin) : Nat → List (Nat × Nat) → Option (Nat × Status × Bool)
  | _, [] => none
  | k, (a, v) :: ps =>
    if !s.addressOk a then some (k, .badarg, false)
    else if !originAllowed o a then some (k, .denied, true)
    else match s.writeStatus final a v with
      | .ok => (s.applyAll o a v).listStatus final o (k + 1) ps
      | st => some (k, st, false)

/-- The entries of a list, each with the value that its pair finds. -/
def State.listEntries (s : State) (o : Origin) (command tag : Nat) : List (Nat × Nat) → List LedgerEntry
  | [] => []
  | (a, v) :: ps => s.paramEntry o command tag a v :: (s.applyAll o a v).listEntries o command tag ps

/-- The check of a whole list, relations judged on the values that all its pairs leave (R327): the first pair that fails. -/
def State.listCheck (s : State) (o : Origin) (ps : List (Nat × Nat)) : Option (Nat × Status × Bool) :=
  s.listStatus (ps.foldl (fun t p => t.stored p.1 p.2) s) o 0 ps

/-- PARAM_WRITE_LIST (R327) with what its check found: the status, the index of the first failure, and the state after. -/
def State.paramWriteList (s : State) (o : Origin) (command tag : Nat) (verdict : Option (Nat × Status × Bool)) (ps : List (Nat × Nat)) :
    Status × Nat × State :=
  match verdict with
  | some (k, st, refused) =>
    if refused then
      let (st1, s1) := s.denied o command ((ps[k]?).map (·.1) |>.getD 0) tag
      (st1, k, s1)
    else (st, k, s)
  | none =>
    match s.commitAll (s.listEntries o command tag ps) with
    | (true, s1) => (.ok, 0, ps.foldl (fun t p => t.applyAll o p.1 p.2) s1)
    | (false, s1) => (.deferred, 0, s1)

end Sys2Proof.Machine
end

