-- ==== Sys2Proof/Machine/StartOps.lean ====
section
/-! DEFINITION. The shared operations of resets and the cold start (spec/14, 16): images and banks, stages 1 to 4, the two kinds of reset. -/

namespace Sys2Proof.Machine

open Sys2Proof

/-! ### Images (Tables 11.7, 14.4, 14.6; R42, R262, R323) -/

/-- The entries of a configuration list. -/
def configPairs : Nat → List Byte → List (Nat × Nat)
  | 0, _ => []
  | n + 1, bs => (imageAt bs 0 4, imageAt bs 4 4) :: configPairs n (bs.drop 8)

/-- A configuration list (Table 14.4): its entries, or the number of the first check of R323 that fails. -/
def parseConfig (bs : List Byte) : Nat ⊕ List (Nat × Nat) :=
  let n := imageAt bs 4 4
  let ps := configPairs n (bs.drop 16)
  if imageAt bs 0 2 ≠ 0x4347 then .inl 1
  else if imageAt bs 2 1 ≠ 1 then .inl 2
  else if imageAt bs 12 4 ≠ (crc32c (bs.take 12 ++ bs.drop 16)).toNat then .inl 3
  else if 7934 < n ∨ bs.length ≠ 16 + 8 * n then .inl 4
  else if ps.any (fun p => hostOnlyItem p.1) then .inl 5
  else .inr ps

/-- A configuration list as SYS_CONFIG_SAVE writes it (Table 14.4). -/
def configImage (ps : List (Nat × Nat)) : List Byte :=
  let head := natLe 2 0x4347 ++ [1, 0] ++ natLe 4 ps.length ++ natLe 4 0
  let body := ps.flatMap (fun p => natLe 4 p.1 ++ natLe 4 p.2)
  head ++ natLe 4 (crc32c (head ++ body)).toNat ++ body

/-- The number of the first check of an equalisation image that fails, 0 for none: magic, version, CRC, reserved fields (R262; log entry 32). -/
def eqImageFail (bs : List Byte) : Nat :=
  if bs.length ≠ 268 ∨ imageAt bs 0 2 ≠ 0x4551 then 1
  else if imageAt bs 2 1 ≠ 1 then 2
  else if imageAt bs 12 4 ≠ (crc32c (bs.take 12 ++ bs.drop 16)).toNat then 3
  else if imageAt bs 3 1 ≠ 0 ∨ imageAt bs 8 4 ≠ 0 then 4
  else 0

/-- The number of the first check of a linearisation image that fails, 0 for none, in the order of R42 (log entry 32). -/
def linImageFail (bs : List Byte) : Nat :=
  let lo := imageAt bs 4 2
  let hi := imageAt bs 6 2
  let inc := nibbles ((bs.drop 0x18).take 512)
  if imageAt bs 0x14 4 ≠ (crc32c (bs.take 0x14 ++ bs.drop 0x18)).toNat then 1
  else if imageAt bs 2 1 ≠ 1 then 2
  else if hi ≤ lo then 3
  else if inc.zipIdx.any (fun p => p.1 ≠ 0 ∧ (p.2 < lo ∨ hi ≤ p.2)) then 4
  else 5

/-- The CRC-32C field of an image of a kind of Table 14.5. -/
def imageCrc (kind : Nat) (bs : List Byte) : Nat :=
  match kind with
  | 1 | 4 => imageAt bs 12 4
  | 2 => leNat (bs.drop (bs.length - 4))
  | _ => imageAt bs 0x14 4

/-- The configuration bank that a start takes: the one selected if it passes its check, else the other, else none (R324). -/
def Mram.configInUse (m : Mram) : Option (Nat × List (Nat × Nat)) :=
  let first : Fin 2 := if m.configBank = some 1 then 1 else 0
  let other : Fin 2 := if first = 0 then 1 else 0
  match parseConfig m.configBanks[first], parseConfig m.configBanks[other] with
  | .inr ps, _ => some (first.val, ps)
  | .inl _, .inr ps => some (other.val, ps)
  | .inl _, .inl _ => none

/-- A bank 0 or 1 by number, and the one that is not in use. -/
def bankIdx (b : Nat) : Fin 2 := if b = 1 then 1 else 0

/-- The configuration bank that a write goes to: the one not in use (R320, R324). -/
def State.otherConfig (s : State) : Fin 2 := if s.keeper.configBank = some 0 then 1 else 0

/-! ### Stages 1 to 3 (R293, R354, R368) -/

/-- MAINT is sampled (R293): on an unsealed part the strap grants maintenance to both origins, with origin 0. -/
def State.sampleMaint (s : State) (strap : Bool) : State :=
  let s1 := s.modFd (fun f => { f with strap := strap })
  if strap ∧ !s.fd.isSealed then
    ([false, true] : List Bool).foldl (fun t j =>
      let o := 4 + bit j
      ((t.setMaint j (some ⟨true, none, 0⟩)).post 506 1 (o + 16)).ledgerLater (t.entry 0 8 0 o 0 0xFFFFFFFF 0)) s1
  else s1

/-- The hold-up monitor reads its three board values from the configuration bank in use, or takes their reset values (R368); an entry
for every instance (Table 14.4) names instance 0. -/
def State.readBoard (s : State) : State :=
  let ps := (s.mram.configInUse.map (fun c => c.2)).getD []
  ([pPwrHoldCap, pPwrHoldVmin, pPwrHoldPower] : List Nat).foldl (fun t a =>
    t.wr a (((ps.filter (fun p => reported p.1 = a ∧ valueAllowed a p.2)).getLast?.map (fun p => p.2)).getD (resetOf a))) s

/-- Stage 2 of the cold start (R354): PD33 and PD28 on, board values, a new incarnation (R232), the boot image; the pair's self-test begins. A device whose
management cores are in NONE, or without a good boot bank, stays there. -/
def State.stage2 (s : State) : State :=
  let s1 := ((s.modFd (fun f => { f with stage := 2, aelkoReady := false })).switchOnAuto 0 [33, 28]).readBoard.takeIncarnation
  if s1.keeper.spare = .none then s1
  else
    let (bank, s2) := s1.bootFrom (fun b => bootImageOk s1.mram.bootImages[b])
    { s2 with power := { s2.power with pairTesting := bank.isSome } }

/-- The cold start of a reset with code 1 or 2: stage 1 and stage 2 (R354, R355). -/
def State.coldStart (s : State) (strap : Bool) : State :=
  let s1 : State := { s with power := { s.power with poreset := false, lowLong := false } }
  ((s1.modFd (fun f => { f with stage := 1 })).sampleMaint strap).stage2

/-- The MRAM through a loss of Aelko's own memory: what has been written stays, what waited is gone. -/
def Mram.kept (m : Mram) : Mram :=
  { m with buffer := [], gap := none, logBuffer := [], waiting := [], running := none
           logHead := match m.log.head? with
             | some e => e.seq + 1
             | none => 0 }

/-- The device in reset (R303, R355): every block and register at its reset value but what does not lose its content: MRAM, the fuses, external
memory, and the levels that other chips drive. -/
def State.inReset (s : State) (cause : Nat) (byPower : Bool) : State :=
  let r := State.reset
  let cut := s.cutBatch
  { r with
    mram := cut.mram.kept
    fd := { r.fd with uid := s.fd.uid, isSealed := s.fd.isSealed, strap := s.fd.strap }
    chans := s.chans.map (fun (c : Channel) => { Channel.reset with volts := c.volts })
    mem := { ExtMem.reset with poisoned := s.mem.poisoned, data := s.mem.data, check := s.mem.check }
    lanes := { Lanes.reset with lanes := s.lanes.lanes.map (fun (l : Lane) => { Lane.reset with signal := l.signal })
                                refclk128 := s.lanes.refclk128, refclk125 := s.lanes.refclk125 }
    power := { r.power with cause := cause, lowLong := byPower, pwrgood := s.power.pwrgood }
    free := cut.free, lastStatus := s.lastStatus, pending := s.pending }

/-! ### Stage 4 (R324, R354) -/

/-- The domains of PWR.BOOT_ON that stage 4 switches on: those whose needs are on or named too, the hardware's own left out (Table 16.1, R354). -/
def State.bootOn (s : State) : List Nat :=
  let mask := s.rd pPwrBootOnLo + 2 ^ 32 * s.rd pPwrBootOnHi
  let named := (bitsOf mask 36).filter (fun d => d ≠ 28 ∧ d ≠ 29 ∧ d ≠ 33)
  named.filter (fun d => match domainNeeds d with
    | none => true
    | some n => s.on n || named.contains n)

/-- The board's equalisation table is loaded, or the default taken with EQ_DEFAULT (R262). -/
def State.loadEqTable (s : State) : State :=
  let bs := s.mram.eqImage
  let why := eqImageFail bs
  if why = 0 then { s with lanes := { s.lanes with eqTable := some bs, eqDefault := false } }
  else ({ s with lanes := { s.lanes with eqTable := none, eqDefault := true } } : State).postLedger 432 0x07 (if why = 1 then 1 else if why = 3 then 2 else 3)

/-- The configuration list is applied in entry order with origin 1 (R324): entries that would not complete OK are skipped and counted. -/
def State.applyConfig (s : State) : State :=
  match s.mram.configInUse with
  | none => s.modKeeper (fun k => { k with skipped := 0, configBank := none })
  | some (b, ps) =>
    let s1 := s.modKeeper (fun k => { k with skipped := 0, configBank := some b })
    let s2 := ps.foldl (fun t p => match t.configWrite p.1 p.2 with
      | (.ok, u) => u
      | (_, u) => u.modKeeper (fun k => { k with skipped := k.skipped + 1 })) s1
    s2.ledgerLater (s2.entry 1 2 0 0x01000000 0 (imageCrc 1 s.mram.configBanks[bankIdx b]) 0)

/-- Stage 4 (R354): Aelko switches on the domains of PWR.BOOT_ON, applies the configuration list, takes its own state from the latest checkpoint
and is ready. The equalisation table and the quarantines are loaded first: the ports' bring-up and the switch-on of PD21 (R210) find them. -/
def State.stage4 (s : State) : State :=
  let s1 := s.loadEqTable.loadQuarantines
  let s2 := ((s1.switchOnAuto 0 s1.bootOn).applyConfig.loadPositions).loadDacs
  (s2.modFd (fun f => { f with stage := Nat.max f.stage 4, aelkoReady := true })).modKeeper (fun k => { k with ckptAt := s2.time.clock })

/-! ### SYS_RESET (R321) -/

/-- Every switched domain but PD33 is reset: it switches off, with its crossings reset, and its entry has origin 0 (R353, R360; log entry 51). -/
def State.resetDomains (s : State) : State := s.switchOffAuto 1 ((List.range 36).reverse.filter (fun d => d ≠ 33))

/-- SYS_RESET (R321, R325): the switched domains are reset, mailboxes are FREE, the items that only the array host may set take their reset values,
and the cold start runs from stage 2 with reset cause 3. The always-on domain goes on. -/
def State.sysReset (s : State) : State :=
  let s1 := (s.resetDomains.wr pPortDataPath 0).wr pSpareDpAuto 1
  let k := s1.keeper
  let s2 : State := { s1 with
    power := { s1.power with cause := 3, handshakes := [], pairTesting := false }
    acq := { s1.acq with criticalOff := none }
    keeper := { Keeper.reset with report := k.report, reportSeq := k.reportSeq, spareResets := k.spareResets, spare := if k.spare = .none then .none else .pair }
    mram := { s1.mram with waiting := s1.mram.waiting.filter (fun b => match b with
      | .checkpoint _ => false
      | _ => true) } }
  (s2.modFd (fun f => { f with mb := Vector.replicate 8 .free, mbDone := 0 })).ackAelko.stage2

end Sys2Proof.Machine
end

