-- ==== Sys2Proof/Machine/AelkoOps.lean ====
section
/-! DEFINITION. The shared operations of Aelko's commands (spec/13, 14): which command runs, how it completes, its ledger entries and the blocks of a
transfer. -/

namespace Sys2Proof.Machine

open Sys2Proof

/-- What a command answers: its status, its reply payload and the state after it. -/
abbrev Answer := Status × List Byte × State

/-! ### Which command runs (R296, R297, R299) -/

/-- Whether a mailbox's command has started and waits: for a decompressor, the self-test of the spare or the boot of the other core. -/
def State.cmdWaits (s : State) (mb : Fin 8) : Bool :=
  s.comp.jobs.toList.any (fun (j : Option Job) => j.any (fun x => x.mailbox == mb)) || s.comp.waiting.any (fun j => j.mailbox == mb) ||
    s.keeper.selftestMb == some mb || s.keeper.switching.any (fun x => x.1 == mb)

/-- Whether a mailbox holds a command that Aelko has taken and not started. -/
def State.unstarted (s : State) (mb : Fin 8) : Bool := (s.keeper.inFlight[mb]).isSome && !s.cmdWaits mb

/-- The read commands (Priv R of Tables 14.3–14.16). -/
def readCommand (code : Nat) : Bool :=
  ([0x0101, 0x0102, 0x0106, 0x0202, 0x0204, 0x0304, 0x0305, 0x0306, 0x0402, 0x0403, 0x0501, 0x0601, 0x0603, 0x0604, 0x0605, 0x0701, 0x0802,
    0x0803, 0x0901, 0x0902, 0x0A02, 0x0A04, 0x0B01] : List Nat).contains code

/-- Whether a command may write to MRAM: every command that is no read command, but PFE_START and RED_SELFTEST. -/
def batchCommand (code : Nat) : Bool := !readCommand code && code != 0x0A01 && code != 0x0B05

/-- The command that Aelko starts in a mailbox, if it is this one: the commands of a round start in ascending mailbox order (R299), and one
that needs a batch waits for the batch in progress (R369). -/
def State.starts (s : State) (mb : Fin 8) (c : AelkoCmd) : Option InFlight :=
  match s.keeper.inFlight[mb] with
  | some f =>
    if s.aelkoRuns && (s.mram.running.isNone || !batchCommand f.code.toNat) && decide (f.cmd = c) && !s.cmdWaits mb && !(List.finRange 8).any (fun k => decide (k < mb) && s.unstarted k) then some f else none
  | none => none

/-- A command runs and completes at once. -/
def State.runCmd (s : State) (mb : Fin 8) (c : AelkoCmd) (act : InFlight → Answer) : Out :=
  .next (match s.starts mb c with
    | none => s
    | some f => ((act f).2.2).finish mb f (act f).1 0 (act f).2.1)

/-- A command that fails: its status, no payload and nothing changed (R15, R315). -/
def failed (s : State) (st : Status) : Answer := (st, [], s)

/-- A BADARG reply with an error code and its detail (R315). -/
def badArg (s : State) (code detail : Nat) : Answer := (.badarg, natLe 2 code ++ natLe 2 detail, s)

/-! ### The ledger (R308, R309) -/

/-- An entry of a command: its origin, code and tag with kind, object, old and new. -/
def State.cmdEntry (s : State) (f : InFlight) (kind object old new : Nat) : LedgerEntry :=
  s.entry f.origin.code kind f.code.toNat object old new f.tag.toNat

/-- An entry whose change is scheduled to a tick (Table 13.10). -/
def LedgerEntry.at (e : LedgerEntry) (t : DWord) : LedgerEntry := { e with tick := t }

/-- The entries are committed before the change; short of hold-up energy the command completes DEFERRED and nothing changes (R309). -/
def State.committed (s : State) (es : List LedgerEntry) (ok : State → Answer) : Answer :=
  match es with
  | [] => ok s
  | _ => match s.commitAll es with
    | (true, s1) => ok s1
    | (false, s1) => failed s1 .deferred

/-- A command that writes a batch of `n` words of its own to MRAM beside its entries; `part` is what the first words of a cut batch leave there (R356). -/
def State.withBatch (s : State) (n : Nat) (part : Nat → State → State) (es : List LedgerEntry) (ok : State → Answer) : Answer :=
  match s.tryBatch n with
  | (true, s1) => s1.committed es ok
  | (false, s1) => failed (if s.cutAt n = 0 then s1 else part (s.cutAt n) s1) .deferred

/-! ### Lists -/

/-- A number with its place put into a list that rises by number; equal numbers keep their order. -/
def insertKey (x : Nat × Nat) : List (Nat × Nat) → List (Nat × Nat)
  | [] => [x]
  | y :: ys => if x.1 < y.1 then x :: y :: ys else y :: insertKey x ys

/-- Numbers with their places in ascending order of the numbers. -/
def sortKeys (l : List (Nat × Nat)) : List (Nat × Nat) := l.foldl (fun acc x => insertKey x acc) []

/-- Of a ring whose newest entry comes first and whose next sequence is `head`: the entries from a sequence on, at most `n`, oldest first, and the sequence
they start at (R310, R331). -/
def ringFrom {α : Type} (newest : List α) (head first : Word) (n : Nat) : Word × List α :=
  let oldest := newest.reverse
  let len := oldest.length
  let age := (head - first).toInt
  if age ≤ 0 then (first, [])
  else if (len : Int) < age then (head - BitVec.ofNat 32 len, oldest.take n)
  else (first, (oldest.drop (len - age.toNat)).take n)

/-! ### Transfers (R318–R320) -/

/-- The outcome of a transfer block: it failed, it leaves bytes outstanding, or it makes the image whole; the bytes received with it. -/
inductive BlockResult where
  | error (code detail : Nat)
  | more (data : List Byte)
  | whole (data : List Byte)
  deriving DecidableEq, Repr

/-- A block is checked against Table 14.2, codes 1 to 3 in order, and added to what its mailbox has received. `limit` is the limit of the kind and `sizeOk`
its exact sizes. -/
def State.takeBlock (s : State) (mb : Fin 8) (f : InFlight) (b : TransferBlock) (limit : Nat) (sizeOk : Nat → Bool) : BlockResult :=
  let total := b.total.toNat
  let held : Option (List Byte × Nat) :=
    if b.cont then
      match s.keeper.transfers[mb] with
      | some t => if t.command = f.code ∧ t.tag = f.tag ∧ t.selector = b.selector then some (t.data, t.total) else none
      | none => none
    else some ([], total)
  match held with
  | none => .error 1 0
  | some (old, was) =>
    if b.offset.toNat ≠ old.length then .error 2 (old.length % 0x10000)
    else if was ≠ total ∨ limit < total ∨ !sizeOk total ∨ total < old.length + b.data.length then .error 3 (limit % 0x10000)
    else if old.length + b.data.length = total then .whole (old ++ b.data) else .more (old ++ b.data)

/-- Aelko's unit 4 runs over a block of a long image, from the running value parked with its mailbox (R226; log entry 80). -/
def State.blockUnit (s : State) (mb : Fin 8) (b : TransferBlock) : State :=
  s.aelkoUnit 4 (if b.cont then ((s.keeper.transfers[mb]).map (fun t => t.check)).getD crc32cSeed else crc32cSeed) b.data

/-- A block is kept as the transfer of its mailbox, and the running value of its check parked with it. -/
def State.keepBlock (s : State) (mb : Fin 8) (f : InFlight) (b : TransferBlock) (data : List Byte) : State :=
  let s1 := s.blockUnit mb b
  s1.setTransfer mb (some ⟨f.code, f.tag, b.selector, b.total.toNat, data, s1.checks.running[(4 : Fin 6)], s.time.clock⟩)

/-- A transfer's command runs; its OK replies carry the request's CONT (R318). -/
def State.runTransfer (s : State) (mb : Fin 8) (c : AelkoCmd) (act : InFlight → Answer) : Out :=
  .next (match s.starts mb c with
    | none => s
    | some f =>
      let a := act f
      a.2.2.finish mb f a.1 (if a.1 = .ok ∧ f.cont then 2 else 0) a.2.1)

/-! ### Memory -/

/-- The accesses that go ahead of Aelko's read of a word: those of levels 1 to 4 of Table 12.4 that wait for its port, each level in order (R273); `n` bounds their
number. -/
def State.goAhead (s : State) (w : Nat) : Nat → State
  | 0 => s
  | n + 1 =>
    let m := channelOf w
    let c := s.mem.channels[m]
    let ahead := c.general.filter (fun a => (w / 4 + a.word / 4) % 2 = 0 ∧ a.level < 5)
    match firstAccess ahead with
    | none => s
    | some a => ((s.setChannel m { c with general := c.general.erase a }).serve a).goAhead w n

/-- Aelko reads one word: a merge-buffer entry of it leaves first, and what waits for its port ahead of level 5 is performed; each of those accesses queues at most one
rewrite, which goes ahead too (R273, R276, R277, R282). The slots pass within the command (log entry 34). -/
def State.aelkoWord (s : State) (w : Nat) : ReadResult × State :=
  let s1 := match (s.mem.channels[channelOf w]).merge.find? (fun e => e.word = w) with
    | some e => s.leaveMerge e
    | none => s
  (s1.goAhead w (2 * (s1.mem.channels[channelOf w]).general.length)).readWord w 5 2 2 true

/-- Bytes of external memory read by Aelko from a data address on (R268, Table 12.5): none when an uncorrectable or poison word lies among them. -/
def State.readBytes (s : State) (addr n : Nat) : Option (List Byte) × State :=
  let first := addr / 8
  let last := (addr + n + 7) / 8
  let r := (List.range (last - first)).foldl (fun (acc : Option (List Byte) × State) i =>
    let x := acc.2.aelkoWord (first + i)
    (match acc.1, x.1 with
      | some bs, .data d => some (bs ++ natLe 8 d.toNat)
      | _, _ => none, x.2)) (some [], s)
  (r.1.map (fun bs => (bs.drop (addr - 8 * first)).take n), r.2)

/-- Whether every channel that holds a word of the range is READY; Aelko has no other way to the memory (log entry 34). -/
def State.memReaches (s : State) (addr n : Nat) : Bool :=
  ((List.range ((addr + n + 7) / 8 - addr / 8)).take 4).all (fun i => s.memServes (channelOf (addr / 8 + i)))

end Sys2Proof.Machine
end

