-- ==== Sys2Proof/Machine/Round.lean ====
section
/-! DEFINITION. A round of mailboxes (R296, R299, R314–R317, Tables 13.4 and 14.3–14.16): the request checks, the fields of each payload, the objects of a
command and BUSY. -/

namespace Sys2Proof.Machine

open Sys2Proof

/-! ### Command codes -/

/-- The payload lengths of a command (Tables 14.3–14.16): least, greatest, and the number it must divide by. None for an unassigned code. -/
def cmdLength (code : Nat) : Option (Nat × Nat × Nat) :=
  match code with
  | 0x0101 => some (0, 0, 1) | 0x0102 => some (4, 4, 1) | 0x0103 => some (8, 8, 1) | 0x0104 => some (4, 4, 1)
  | 0x0105 => some (13, 496, 1) | 0x0106 => some (12, 12, 1) | 0x0107 => some (4, 4, 1) | 0x0108 => some (0, 0, 1)
  | 0x0110 => some (8, 8, 1) | 0x0111 => some (4, 4, 1) | 0x0112 => some (4, 4, 1)
  | 0x0201 => some (8, 8, 1) | 0x0202 => some (4, 4, 1) | 0x0203 => some (8, 496, 8) | 0x0204 => some (4, 496, 4)
  | 0x0301 => some (8, 8, 1) | 0x0302 => some (8, 8, 1) | 0x0303 => some (16, 496, 1) | 0x0304 => some (0, 0, 1)
  | 0x0305 => some (4, 4, 1) | 0x0306 => some (8, 8, 1)
  | 0x0401 => some (13, 496, 1) | 0x0402 => some (12, 12, 1) | 0x0403 => some (4, 4, 1)
  | 0x0501 => some (0, 0, 1) | 0x0502 => some (4, 4, 1) | 0x0503 => some (20, 20, 1) | 0x0504 => some (4, 4, 1) | 0x0505 => some (0, 0, 1)
  | 0x0601 => some (8, 8, 1) | 0x0602 => some (4, 480, 4) | 0x0603 => some (8, 8, 1) | 0x0604 => some (8, 8, 1) | 0x0605 => some (24, 24, 1)
  | 0x0701 => some (8, 8, 1) | 0x0702 => some (12, 12, 1)
  | 0x0801 => some (12, 12, 1) | 0x0802 => some (0, 0, 1) | 0x0803 => some (0, 0, 1)
  | 0x0901 => some (4, 4, 1) | 0x0902 => some (4, 4, 1)
  | 0x0A01 => some (4, 4, 1) | 0x0A02 => some (0, 0, 1) | 0x0A03 => some (52, 52, 1) | 0x0A04 => some (4, 4, 1)
  | 0x0B01 => some (0, 0, 1) | 0x0B02 => some (0, 0, 1) | 0x0B03 => some (0, 0, 1) | 0x0B04 => some (4, 4, 1) | 0x0B05 => some (0, 0, 1)
  | _ => none

/-- The payload bytes of a command that its table does not name (R314): they are reserved. -/
def cmdReserved (code : Nat) : List Nat :=
  match code with
  | 0x0103 => [2, 3]
  | 0x0106 => [10, 11]
  | 0x0107 | 0x0110 | 0x0111 | 0x0403 | 0x0502 | 0x0504 | 0x0901 | 0x0902 | 0x0A01 | 0x0A03 | 0x0A04 => [1, 2, 3]
  | 0x0303 => [2, 3]
  | 0x0305 => [2, 3]
  | 0x0306 => [6, 7]
  | 0x0402 => [2, 3, 10, 11]
  | 0x0503 => [10, 11]
  | 0x0601 | 0x0603 | 0x0701 => [5, 6, 7]
  | 0x0604 => [6, 7]
  | 0x0605 => [9, 10, 11, 0x16, 0x17]
  | 0x0801 => [9, 10, 11]
  | _ => []

/-- The host-only commands (Priv H); SYS_IMAGE_WRITE is one for kind 2. -/
def hostCommand (code : Nat) (payload : List Byte) : Bool :=
  ([0x0104, 0x0107, 0x0110, 0x0111, 0x0112, 0x0502, 0x0503, 0x0504, 0x0505, 0x0B03, 0x0B04] : List Nat).contains code ||
    (code == 0x0105 && payload.head? == some 2)

/-- Whether an origin may issue a command (R292, Table 13.2). -/
def State.mayIssue (s : State) (o : Origin) (code : Nat) (payload : List Byte) : Bool :=
  readCommand code || (if hostCommand code payload then hostOrigin o else s.mayWrite o)

/-- The origin of a mailbox (Table 13.1). -/
def mbOrigin (mb : Fin 8) : Origin := if mb.val < 4 then .parent else if mb.val = 4 then .spareLane else if mb.val < 7 then .spi else .jtag

/-! ### Payload fields (R314) -/

/-- The byte at an offset of a payload. -/
def pl8 (bs : List Byte) (o : Nat) : Byte := bs[o]?.getD 0
/-- The 16-bit field at an offset. -/
def pl16 (bs : List Byte) (o : Nat) : Half := BitVec.ofNat 16 (imageAt bs o 2)
/-- The 32-bit field at an offset. -/
def pl32 (bs : List Byte) (o : Nat) : Word := BitVec.ofNat 32 (imageAt bs o 4)
/-- The 64-bit field at an offset. -/
def pl64 (bs : List Byte) (o : Nat) : DWord := BitVec.ofNat 64 (imageAt bs o 8)

/-- The 32-bit words of a list payload. -/
def plWords (bs : List Byte) : List Word := (List.range (bs.length / 4)).map (fun i => pl32 bs (4 * i))

/-- The pairs of a list payload. -/
def plPairs (bs : List Byte) : List (Word × Word) := (List.range (bs.length / 8)).map (fun i => (pl32 bs (8 * i), pl32 bs (8 * i + 4)))

/-- The block of a transfer (Table 14.1). -/
def plBlock (cont : Bool) (bs : List Byte) : TransferBlock := ⟨cont, pl32 bs 0, pl32 bs 4, pl32 bs 8, bs.drop 12⟩

/-- What an ACQ_LAUNCH queues (Table 14.9); none where its length or a reserved byte does not fit its kind. -/
def plLaunch (bs : List Byte) : Option LaunchBody :=
  match (pl8 bs 1).toNat with
  | 1 => if bs.length = 28 then some (.accept (pl32 bs 12) (pl64 bs 16) (pl32 bs 24)) else none
  | 2 => if bs.length = 16 then some (.test (pl32 bs 12)) else none
  | 3 => if 36 ≤ bs.length ∧ imageAt bs 14 2 = 0 then some (.ctrl (pl8 bs 12) (pl8 bs 13) (pl32 bs 16) (bs.drop 20)) else none
  | _ => some (.badKind (pl8 bs 1))

/-- The fields of a payload of the right length (Tables 14.3–14.16). -/
def cmdFields (code : Nat) (cont : Bool) (bs : List Byte) : Option AelkoCmd :=
  match code with
  | 0x0101 => some .sysIdentify
  | 0x0102 => some (.sysFdRead (pl16 bs 0) (pl16 bs 2))
  | 0x0103 => some (.sysFdWrite (pl16 bs 0) (pl32 bs 4))
  | 0x0104 => some (.sysReset (pl32 bs 0))
  | 0x0105 => some (.sysImageWrite (plBlock cont bs))
  | 0x0106 => some (.sysImageRead (pl8 bs 0) (pl8 bs 1) (pl16 bs 2) (pl32 bs 4) (pl16 bs 8))
  | 0x0107 => some (.sysBootSelect (pl8 bs 0))
  | 0x0108 => some .sysConfigSave
  | 0x0110 => some (.maintGrant (pl8 bs 0) (pl32 bs 4))
  | 0x0111 => some (.maintRevoke (pl8 bs 0))
  | 0x0112 => some (.sealPart (pl32 bs 0))
  | 0x0201 => some (.paramWrite (pl32 bs 0) (pl32 bs 4))
  | 0x0202 => some (.paramRead (pl32 bs 0))
  | 0x0203 => some (.paramWriteList (plPairs bs))
  | 0x0204 => some (.paramReadList (plWords bs))
  | 0x0301 => some (.acqArm (pl64 bs 0))
  | 0x0302 => some (.acqDisarm (pl64 bs 0))
  | 0x0303 => (plLaunch bs).map (fun b => .acqLaunch (pl8 bs 0) (pl64 bs 4) b)
  | 0x0304 => some .acqStatus
  | 0x0305 => some (.acqBookingRead (pl16 bs 0))
  | 0x0306 => some (.acqRoomRead (pl32 bs 0) (pl8 bs 4) (pl8 bs 5))
  | 0x0401 => some (.engLoad (plBlock cont bs))
  | 0x0402 => some (.engRead (pl8 bs 0) (pl8 bs 1) (pl32 bs 4) (pl16 bs 8))
  | 0x0403 => some (.engStatus (pl8 bs 0))
  | 0x0501 => some .timeStatus
  | 0x0502 => some (.timeSwitch (pl8 bs 0))
  | 0x0503 => some (.timeRestep (pl64 bs 0) (pl8 bs 8) (pl8 bs 9) (pl64 bs 12))
  | 0x0504 => some (.timeAsymConfirm (pl8 bs 0))
  | 0x0505 => some .timeRestepCancel
  | 0x0601 => some (.memLogRead (pl32 bs 0) (pl8 bs 4))
  | 0x0602 => some (.memRetire (plWords bs))
  | 0x0603 => some (.memRetireRead (pl32 bs 0) (pl8 bs 4))
  | 0x0604 => some (.memRead (pl32 bs 0) (pl16 bs 4))
  | 0x0605 => some (.memInflate (pl32 bs 0) (pl32 bs 4) (pl8 bs 8) (pl32 bs 12) (pl32 bs 16) (pl16 bs 20))
  | 0x0701 => some (.ledgerRead (pl32 bs 0) (pl8 bs 4))
  | 0x0702 => some (.ledgerNote (pl32 bs 0) (pl32 bs 4) (pl32 bs 8))
  | 0x0801 => some (.pwrDomain (pl64 bs 0) (pl8 bs 8))
  | 0x0802 => some .pwrStatus
  | 0x0803 => some .thermStatus
  | 0x0901 => some (.laneStatus (pl8 bs 0))
  | 0x0902 => some (.portStatus (pl8 bs 0))
  | 0x0A01 => some (.pfeStart (pl8 bs 0))
  | 0x0A02 => some .pfeResult
  | 0x0A03 => some (.pfeCoefWrite (pl8 bs 0) ((plWords bs).drop 1))
  | 0x0A04 => some (.pfeCoefRead (pl8 bs 0))
  | 0x0B01 => some .redStatus
  | 0x0B02 => some .redCheckpoint
  | 0x0B03 => some .redReadmit
  | 0x0B04 => some (.redSwitch (pl32 bs 0))
  | 0x0B05 => some .redSelftest
  | _ => none

/-- A payload's command: none where its length is not the command's or a reserved byte is not 0 (R11, R314). -/
def parseCmd (code : Nat) (cont : Bool) (bs : List Byte) : Option AelkoCmd :=
  match cmdLength code with
  | none => none
  | some (lo, hi, step) =>
    if lo ≤ bs.length ∧ bs.length ≤ hi ∧ bs.length % step = 0 ∧ (cmdReserved code).all (fun o => pl8 bs o == 0) then cmdFields code cont bs else none

/-! ### Objects (R299, R317) -/

/-- The first milestone at least 1,024 ticks ahead, or the milestone named, if it may be (R148). -/
def State.armMilestone (s : State) (m : DWord) : Option DWord :=
  if m = 0 then some (milestoneAt (s.now + 1024))
  else if isMilestone m && decide (1024 ≤ (m - s.now).toInt) then some m else none

/-- Bits [51:20] of a milestone, as objects give them. -/
def milestoneObject (m : DWord) : Nat := m.toNat / 2 ^ 20 % 2 ^ 32

/-- The object of an image of a kind of Table 14.5 (Table 13.11). -/
def imageObject (selector : Word) : Nat :=
  let kind := selector.toNat % 256
  (if kind = 2 then 5 else kind) * 2 ^ 24 + (if kind = 3 then selector.toNat / 2 ^ 16 else 0)

/-- The objects of an engine load (Table 14.10). -/
def engObjects (selector : Word) : List Nat :=
  let tile := selector.toNat % 256
  let mask := selector.toNat / 256 % 256
  if mask = 0 then [2 * 2 ^ 24 + 0x80 + tile] else (bitsOf mask 8).map (fun i => 2 * 2 ^ 24 + 8 * tile + i)

/-- The objects a command names, each with the ledger kind under which it is numbered: an object of kind COMMAND is the number that the Ledger column gives,
whatever the command, and every block of a transfer names the object of its image (R317; log entries 35 and 36). -/
def State.objects (s : State) (c : AelkoCmd) : List (Nat × Nat) :=
  match c with
  | .sysFdWrite a _ => [(10, a.toNat / 4 * 4)]
  | .sysReset _ => [(10, 0)]
  | .sysImageWrite b => [(2, imageObject b.selector)]
  | .sysBootSelect _ => [(10, 0x300000)]
  | .sysConfigSave => [(2, 2 ^ 24)]
  | .maintGrant m _ | .maintRevoke m => (bitsOf m.toNat 2).map (fun i => (8, 4 + i))
  | .sealPart _ => [(8, 0xFF)]
  | .paramWrite a _ => [(1, a.toNat)]
  | .paramWriteList ps => ps.map (fun p => (1, p.1.toNat))
  | .acqArm m | .acqDisarm m => ((s.armMilestone m).map (fun t => (10, milestoneObject t))).toList
  | .acqLaunch p _ body =>
    let kind := match body with
      | .accept _ _ _ => 1
      | .test _ => 2
      | .ctrl _ _ _ _ => 3
      | .badKind k => k.toNat
    [(10, kind * 256 + p.toNat)]
  | .engLoad b => (engObjects b.selector).map (fun o => (2, o))
  | .timeSwitch _ => [(5, 0)]
  | .timeRestep m _ _ _ => [(10, milestoneObject m)]
  | .timeAsymConfirm d => [(1, pTimeDAsym d.toNat)]
  | .timeRestepCancel => (s.time.restep.map (fun r => (10, milestoneObject r.milestone))).toList
  | .memRetire es => es.map (fun e => (7, e.toNat))
  | .ledgerNote o _ _ => [(10, o.toNat)]
  | .pwrDomain m _ => (bitsOf m.toNat 36).map (fun d => (3, d))
  | .pfeCoefWrite i _ => [(10, i.toNat)]
  | .redCheckpoint => [(10, 0x200000)]
  | .redReadmit => [(6, 3)]
  | .redSwitch _ => [(6, 1)]
  | .sysIdentify | .sysFdRead _ _ | .sysImageRead _ _ _ _ _ | .paramRead _ | .paramReadList _ | .acqStatus | .acqBookingRead _ | .acqRoomRead _ _ _
  | .engRead _ _ _ _ | .engStatus _ | .timeStatus | .memLogRead _ _ | .memRetireRead _ _ | .memRead _ _ | .memInflate _ _ _ _ _ _ | .ledgerRead _ _
  | .pwrStatus | .thermStatus | .laneStatus _ | .portStatus _ | .pfeStart _ | .pfeResult | .pfeCoefRead _ | .redStatus | .redSelftest => []

/-- Whether two objects are one: instance 0xFFF overlaps every instance of its class and item (R299). -/
def sameObject (x y : Nat × Nat) : Bool :=
  x == y || (x.1 == 1 && y.1 == 1 && addrCls x.2 == addrCls y.2 && addrItem x.2 == addrItem y.2 && (allInstances x.2 || allInstances y.2))

/-- Whether two lists of objects have one in common. -/
def clash (xs ys : List (Nat × Nat)) : Bool := xs.any (fun x => ys.any (fun y => sameObject x y))

/-! ### The request checks (R296) -/

/-- A request that fails a check completes at once. -/
def State.refuse (s : State) (mb : Fin 8) (code tag : Half) (st : Status) (flags : Nat) : State := s.reply mb code tag st flags []

/-- A block of a running transfer that has not the length of a block fails, and its transfer is abandoned: the reply's code and detail (R319, Table 14.2; log
entry 61). -/
def State.shortBlock (s : State) (mb : Fin 8) (code tag : Half) : State :=
  let why := if (s.keeper.transfers[mb]).any (fun t => t.command = code ∧ t.tag = tag) then 3 else 1
  (s.setTransfer mb none).reply mb code tag .badarg 0 (natLe 2 why ++ natLe 2 0)

/-- A posted mailbox becomes BUSY and its request goes through the checks of Table 13.4, up to the length of its payload and its reserved bytes: what is left
of the command, or the state with its reply. A request with CONT = 0 abandons the transfer of its mailbox (R319). -/
def State.checkRequest (s : State) (mb : Fin 8) : Option InFlight × State :=
  let checked := s.mbBytes mb 0 12 ++ s.mbBytes mb 16 (Nat.min (leNat (s.mbBytes mb 4 4) % 512) 496)
  let s0 := (s.setMb mb .busy).aelkoUnit 5 crc32cSeed checked
  let code := pl16 (s.mbBytes mb 0 2) 0
  let tag := pl16 (s.mbBytes mb 2 2) 0
  let len := leNat (s.mbBytes mb 4 4)
  let flags := leNat (s.mbBytes mb 10 2)
  let l := Nat.min (len % 512) 496
  let payload := s.mbBytes mb 16 l
  let cont := flags.testBit 1
  let o := mbOrigin mb
  if (crc32c checked).toNat ≠ leNat (s.mbBytes mb 12 4) then (none, (s0.post 505 1 mb.val).refuse mb code tag .badarg 4)
  else if 496 < len % 512 ∨ len / 512 ≠ 0 ∨ flags.testBit 0 ∨ flags / 8 ≠ 0 then (none, s0.refuse mb code tag .badarg 4)
  else
    let s1 := if cont then s0 else s0.setTransfer mb none
    match cmdLength code.toNat with
    | none => (none, s1.refuse mb code tag .unknown 0)
    | some _ =>
      let cmd := parseCmd code.toNat cont payload
      if !s.mayIssue o code.toNat payload then
        let object := ((cmd.map (fun c => s.objects c)).getD []).head?.map (fun x => x.2)
        let d := s1.denied o code.toNat (object.getD 0) tag.toNat
        (none, d.2.refuse mb code tag d.1 0)
      else match cmd with
        | none => (none, if cont ∧ (code = 0x0105 ∨ code = 0x0401) then s1.shortBlock mb code tag else s1.refuse mb code tag .badarg 0)
        | some c => (some ⟨tag, code, cont, o, c, none⟩, s1)

/-! ### The round (R299) -/

/-- The posted mailboxes go through their checks in ascending order: the commands left. -/
def State.checkAll (s : State) : List (Fin 8 × InFlight) × State :=
  ((List.finRange 8).filter (fun mb => s.fd.mb[mb] == .posted)).foldl (fun (acc : List (Fin 8 × InFlight) × State) mb =>
    match acc.2.checkRequest mb with
    | (some f, t) => (acc.1 ++ [(mb, f)], t)
    | (none, t) => (acc.1, t)) ([], s)

/-- What the check of a list of writes finds at the start of its round (R327). -/
def State.listVerdict (s : State) (f : InFlight) : Option (Nat × Status × Bool) :=
  match f.cmd with
  | .paramWriteList pairs => s.listCheck f.origin (pairs.map (fun p => (p.1.toNat, p.2.toNat)))
  | _ => none

/-- The commands that no other of the round is served ahead of are taken; the others complete BUSY. Mailboxes rise with their origins, so ascending order is
that of R299. Also the objects served. -/
def State.serveAll (s : State) (cs : List (Fin 8 × InFlight)) : List (Nat × Nat) × State :=
  cs.foldl (fun (acc : List (Nat × Nat) × State) x =>
    let os := s.objects x.2.cmd
    if clash os acc.1 then (acc.1, acc.2.refuse x.1 x.2.code x.2.tag .busy 0)
    else (acc.1 ++ os, acc.2.modKeeper (fun k => { k with inFlight := vput k.inFlight x.1 (some { x.2 with verdict := s.listVerdict x.2 }) }))) ([], s)

/-- Whether a port-window write names a parameter that its engine may write: CHAN.THRESH, HYST or OFFSET of its own tile (R108). -/
def WindowWrite.allowed (w : WindowWrite) : Bool := windowItem w.addr.toNat && decide (addrInst w.addr.toNat / 16 = w.engine.val / 8)

/-- A port-window write completes (R106): its status, and PENDING clears. -/
def State.windowDone (s : State) (e : Fin 128) (st : Status) : State := s.modEng e (fun x => { x with pwGo := ⟨st.code, false⟩ })

/-- One port-window write of the round (R108, R299). -/
def State.windowWrite (s : State) (served : List (Nat × Nat)) (w : WindowWrite) : List (Nat × Nat) × State :=
  let a := w.addr.toNat
  if !w.allowed then 
    let d := s.denied .enginePort 0 a 0
    (served, d.2.windowDone w.engine d.1)
  else if clash [(1, a)] served then (served, s.windowDone w.engine .busy)
  else
    let r := s.paramWrite .enginePort 0 0 a w.value.toNat
    (served ++ [(1, a)], r.2.2.windowDone w.engine r.1)

/-- MAILBOX_ROUND (R296, R299): Aelko takes every posted mailbox and every port-window write since the last round, and so acknowledges what woke it (R357). The
next round starts once the commands of this one have started and no batch is in progress (R369). -/
def execMailboxRound (s : State) : Out :=
  .next (if !s.aelkoFree ∨ (List.finRange 8).any s.unstarted then s
    else
      let r := s.ackAelko.checkAll
      let t := r.2.serveAll r.1
      let s1 := t.2.modKeeper (fun k => { k with window := [] })
      (s.keeper.window.foldl (fun (acc : List (Nat × Nat) × State) w => acc.2.windowWrite acc.1 w) (t.1, s1)).2)

end Sys2Proof.Machine
end

