-- ==== Sys2Proof/Machine/SysCmds.lean ====
section
/-! DEFINITION. The system commands (spec/14, Tables 14.1–14.6; R293, R294, R318–R325). -/

namespace Sys2Proof.Machine

open Sys2Proof

/-! ### Identity and front-desk registers -/

/-- SYS_IDENTIFY (0x0101). -/
def execSysIdentify (mb : Fin 8) (s : State) : Out :=
  s.runCmd mb .sysIdentify (fun _ =>
    (.ok, ([0x00, 0x04, 0x08, 0x0C, 0x10, 0x20] : List Nat).flatMap (fun a => natLe 4 (s.fdRead a).1) ++ natLe 1 s.mram.bootBank ++
      natLe 1 (s.keeper.configBank.getD 0xFF) ++ natLe 2 s.keeper.skipped ++ natLe 4 0, s))

/-- SYS_FD_READ (0x0102): the registers in ascending order, each read as SPI reads it. -/
def execSysFdRead (mb : Fin 8) (addr words : Half) (s : State) : Out :=
  s.runCmd mb (.sysFdRead addr words) (fun _ =>
    let a := addr.toNat
    let n := words.toNat
    if a % 4 ≠ 0 ∨ n = 0 ∨ 64 < n ∨ 0x1000 < a + 4 * n then failed s .badarg
    else
      let r := (List.range n).foldl (fun (acc : List Byte × State) i =>
        let x := acc.2.fdRead (a + 4 * i)
        (acc.1 ++ natLe 4 x.1, x.2)) ([], s)
      (.ok, r.1, r.2))

/-- SYS_FD_WRITE (0x0103, R322): DENIED for FD_DOORBELL and FD_MB_DONE; otherwise a write as SPI makes it. -/
def execSysFdWrite (mb : Fin 8) (addr : Half) (value : Word) (s : State) : Out :=
  s.runCmd mb (.sysFdWrite addr value) (fun f =>
    let a := addr.toNat / 4 * 4
    if a = 0x30 ∨ a = 0x38 then failed s .denied
    else s.committed [s.cmdEntry f 10 a (s.fdPeek a) value.toNat] (fun t =>
      let u := if a < 0x1000 then t.fdWrite f.origin a value f.code.toNat f.tag.toNat
        else match idx? 8 ((a - 0x1000) / 0x200) with
          | some m => t.mbWordWrite .spi m ((a - 0x1000) % 0x200) value
          | none => t
      (.ok, natLe 4 (u.fdPeek a), u)))

/-- SYS_RESET (0x0104, R321): the reset comes 10 ms after the reply (row SYS_RESET_EXPIRY). -/
def execSysReset (mb : Fin 8) (key : Word) (s : State) : Out :=
  s.runCmd mb (.sysReset key) (fun f =>
    if key ≠ 0x52535430#32 then failed s .badarg
    else s.committed [s.cmdEntry f 10 0 0 1] (fun t => (.ok, [], t.modKeeper (fun k => { k with sysReset := some t.time.clock }))))

/-! ### Images (R318–R320, R323) -/

/-- The size limit of an image kind and whether a size is one of its sizes (Table 14.5). -/
def imageLimit (kind : Nat) : Nat := if kind = 1 then 63488 else if kind = 2 then 196608 else if kind = 3 then 536 else 268

/-- Whether a size is one of the kind's (Table 14.5). -/
def imageSizeOk (kind n : Nat) : Bool :=
  match kind with
  | 1 => decide (16 ≤ n)
  | 2 => decide (1024 ≤ n) && n % 4 == 0
  | 3 => n == 536
  | _ => n == 268

/-- Whether a selector is one of Table 14.5, with its reserved bits 0. -/
def imageSelectorOk (selector : Word) : Bool :=
  let x := selector.toNat
  let kind := x % 256
  let inst := x / 2 ^ 16
  x / 256 % 256 == 0 && ((kind == 1 || kind == 2 || kind == 4) && inst == 0 || kind == 3 && decide (inst ≤ 0x104))

/-- The boot bank not in use. -/
def Mram.otherBoot (m : Mram) : Fin 2 := if m.bootBank = 0 then 1 else 0

/-- The bytes of a configuration list or a boot image received so far stand in the bank not in use, ahead of what stays of its old content (R320). -/
def State.fillBank (s : State) (kind : Nat) (data : List Byte) : State :=
  s.modMram (fun m => if kind = 1 then { m with configBanks := vmod m.configBanks s.otherConfig (fun old => data ++ old.drop data.length) }
    else if kind = 2 then { m with bootImages := vmod m.bootImages m.otherBoot (fun old => data ++ old.drop data.length) } else m)

/-- A whole configuration list or boot image stands in the bank not in use. -/
def State.writeBank (s : State) (kind : Nat) (data : List Byte) : State :=
  s.modMram (fun m => if kind = 1 then { m with configBanks := vput m.configBanks s.otherConfig data }
    else if kind = 2 then { m with bootImages := vput m.bootImages m.otherBoot data } else m)

/-- The last `words` words of the bytes received so far are a block's batch, cut after the first `k` of them (R356). -/
def State.tornBank (s : State) (kind : Nat) (data : List Byte) (words k : Nat) : State :=
  if k = 0 then s else s.fillBank kind (data.take (data.length - 8 * (words - k)))

/-- Whether a transfer of a kind of image that is written straight into its bank runs in another mailbox (R320). -/
def State.bankHeld (s : State) (mb : Option (Fin 8)) (kind : Nat) : Bool :=
  (List.finRange 8).any (fun k => some k != mb && (match s.keeper.transfers[k] with
    | some t => t.command == 0x0105 && t.selector.toNat % 256 == kind
    | none => false))

/-- A block that fails: BADARG with a code of Table 14.2, and the transfer is abandoned (R319). -/
def State.blockFails (s : State) (mb : Fin 8) (code detail : Nat) : Answer := badArg (s.endTransfer mb) code detail

/-- The check of its own that an image fails, if it fails one: its number (R323; log entry 32). -/
def imageFail (kind : Nat) (data : List Byte) : Option Nat :=
  match kind with
  | 1 => match parseConfig data with
    | .inl n => some n
    | .inr _ => none
  | 2 => if bootImageOk data then none else some 1
  | 3 => if (parseImage data).isSome then none else some (linImageFail data)
  | _ => if eqImageFail data = 0 then none else some (eqImageFail data)

/-- A linearisation image takes its place (R323): its MRAM slot, and the table of its channel or stamper at the next milestone. -/
def State.applyLin (s : State) (inst : Nat) (data : List Byte) : State :=
  let s1 := s.modMram (fun m => { m with linImages := sset inst data m.linImages })
  match idx? 256 inst, idx? 5 (inst - 256) with
  | some ch, _ => if s.on (tileOf ch).val then s1.modChan ch (fun c => { c with stagedTable := parseImage data }) else s1
  | none, some n =>
    if s.on 31 then { s1 with ref := { s1.ref with stampers := vmod s1.ref.stampers n (fun (x : Stamper) => { x with staged := parseImage data }) } } else s1
  | none, none => s1

/-- An image that passes its checks takes effect (R323). -/
def State.applyImage (s : State) (kind inst : Nat) (data : List Byte) : State :=
  match kind with
  | 1 =>
    let b := s.otherConfig.val
    (s.modMram (fun m => { m with configBank := some b })).modKeeper (fun k => { k with configBank := some b })
  | 2 => s
  | 3 => s.applyLin inst data
  | _ => let s1 := s.modMram (fun m => { m with eqImage := data })
         { s1 with lanes := { s1.lanes with eqTable := some data, eqDefault := false } }

/-- Whether an image names a channel that is CALIBRATING (R323). -/
def State.imageBlocked (s : State) (kind inst : Nat) : Bool :=
  kind == 3 && (match idx? 256 inst with
    | some ch => (s.chans[ch]).state == .calibrating
    | none => false)

/-- What the first words of a linearisation or equalisation image leave in its place (R356). -/
def State.tornImage (kind inst : Nat) (data : List Byte) (k : Nat) (s : State) : State :=
  if kind = 3 then s.tornLin k inst data
  else s.modMram (fun m => { m with eqImage := patch k (if m.eqImage = [] then (List.range 268).map (fun i => Config.mramByte (0x360000 + i)) else m.eqImage) data })

/-- The final block of a SYS_IMAGE_WRITE (R323): `words` are those of its own MRAM batch; the selection of a configuration bank is one word more (R311). -/
def State.imageFinal (s : State) (mb : Fin 8) (f : InFlight) (selector : Word) (words : Nat) (data : List Byte) : Answer :=
  let kind := selector.toNat % 256
  let inst := selector.toNat / 2 ^ 16
  let done (t : State) : Answer := (.ok, natLe 4 data.length, (t.applyImage kind inst data).endTransfer mb)
  let entry := s.cmdEntry f 2 (imageObject selector) 0 (imageCrc kind data)
  if kind = 1 ∨ kind = 2 then
    match s.tryBatch words with
    | (false, t) => failed (t.tornBank kind data words (s.cutAt words)) .deferred
    | (true, t) =>
      let u := t.writeBank kind data
      match imageFail kind data with
      | some n => u.blockFails mb 5 n
      | none => if kind = 1 then u.withBatch 1 (fun _ v => v) [entry] done else u.committed [entry] done
  else match imageFail kind data with
    | some n => s.blockFails mb 5 n
    | none =>
      if kind = 3 ∧ imageAt data 0 2 ≠ inst then s.blockFails mb 6 0
      else if s.imageBlocked kind inst then failed (s.endTransfer mb) .denied
      else s.withBatch ((data.length + 7) / 8) (State.tornImage kind inst data) [entry] done

/-- One block of a SYS_IMAGE_WRITE (R318–R320): each block of a configuration list or boot image is an MRAM batch; one that completes DEFERRED is not taken.
A further block with a selector other than the transfer's fails with code 1 whatever it names (Table 14.2). -/
def State.imageBlock (s : State) (mb : Fin 8) (f : InFlight) (b : TransferBlock) : Answer :=
  let kind := b.selector.toNat % 256
  let words := (b.data.length + 7) / 8
  if !imageSelectorOk b.selector ∧ !b.cont then failed (s.endTransfer mb) .badarg
  else match s.takeBlock mb f b (imageLimit kind) (imageSizeOk kind) with
    | .error c d => s.blockFails mb c d
    | .more data =>
      if kind = 3 ∨ kind = 4 then (.ok, natLe 4 data.length, s.keepBlock mb f b data)
      else if s.bankHeld (some mb) kind then s.blockFails mb 4 0
      else match s.tryBatch words with
        | (true, t) => (.ok, natLe 4 data.length, (t.fillBank kind data).keepBlock mb f b data)
        | (false, t) => failed (t.tornBank kind data words (s.cutAt words)) .deferred
    | .whole data =>
      if (kind = 1 ∨ kind = 2) ∧ s.bankHeld (some mb) kind then s.blockFails mb 4 0
      else (s.blockUnit mb b).imageFinal mb f b.selector words data

/-- SYS_IMAGE_WRITE (0x0105). -/
def execSysImageWrite (mb : Fin 8) (block : TransferBlock) (s : State) : Out :=
  s.runTransfer mb (.sysImageWrite block) (fun f => s.imageBlock mb f block)

/-- TRANSFER_TIMEOUT (R319): 10 s pass without a block, and the transfer is abandoned. -/
def execTransferTimeout (mb : Fin 8) (s : State) : Out :=
  .next (match s.keeper.transfers[mb] with
    | some t => if t.at_ + 10 * secondTicks ≤ s.time.clock ∧ s.aelkoRuns then s.endTransfer mb else s
    | none => s)

/-- The bytes of an image as SYS_IMAGE_READ finds them, if the kind, bank and instance name one. MRAM that nothing has written reads as the factory left it. -/
def State.imageBytes (s : State) (kind bank inst : Nat) : Option (List Byte) :=
  match kind with
  | 1 => (idx? 2 bank).map (fun b => s.mram.configBanks[b])
  | 2 => (idx? 2 bank).map (fun b => s.mram.bootImages[b])
  | 3 =>
    if inst ≤ 0x104 then
      some (s.mram.linSlot inst)
    else none
  | 4 => some (if s.mram.eqImage = [] then (List.range 268).map (fun i => Config.mramByte (0x360000 + i)) else s.mram.eqImage)
  | _ => none

/-- SYS_IMAGE_READ (0x0106). -/
def execSysImageRead (mb : Fin 8) (kind bank : Byte) (inst : Half) (offset : Word) (length : Half) (s : State) : Out :=
  s.runCmd mb (.sysImageRead kind bank inst offset length) (fun _ =>
    match s.imageBytes kind.toNat bank.toNat inst.toNat with
    | none => failed s .badarg
    | some bs =>
      if length = 0 ∨ 480 < length.toNat ∨ bs.length < offset.toNat + length.toNat then failed s .badarg
      else (.ok, (bs.drop offset.toNat).take length.toNat, s))

/-- SYS_BOOT_SELECT (0x0107, R311): the bank that the next boot takes; its number is a word of MRAM. -/
def execSysBootSelect (mb : Fin 8) (bank : Byte) (s : State) : Out :=
  s.runCmd mb (.sysBootSelect bank) (fun f =>
    match idx? 2 bank.toNat with
    | none => failed s .badarg
    | some b =>
      let img := s.mram.bootImages[b]
      if !bootImageOk img then failed s .denied
      else s.withBatch 1 (fun _ u => u) [s.cmdEntry f 10 0x300000 s.mram.bootBank b.val] (fun t =>
        (.ok, natLe 4 (imageCrc 2 img), t.modMram (fun m => { m with bootBank := b.val }))))

/-- The parameters that SYS_CONFIG_SAVE writes (R324, R325): every RW parameter that differs from its reset value, in ascending address order, but those of domains
that are off and the host-only ones. -/
def State.savedParams (s : State) : List (Nat × Nat) :=
  s.params.filter (fun p => (match paramItem (addrCls p.1) (addrItem p.1) with
    | some it => decide (it.acc = .rw)
    | none => false) && s.readable p.1 && s.paramOn p.1 && !hostOnlyItem p.1)

/-- SYS_CONFIG_SAVE (0x0108). -/
def execSysConfigSave (mb : Fin 8) (s : State) : Out :=
  s.runCmd mb .sysConfigSave (fun f =>
    let ps := s.savedParams
    let img := configImage ps
    if 7934 < ps.length then badArg s 3 63488
    else if s.bankHeld none 1 then failed s .denied
    else s.withBatch ((img.length + 7) / 8 + 1) (fun k u => u.fillBank 1 (img.take (8 * k))) [s.cmdEntry f 2 (2 ^ 24) 0 (imageCrc 1 img)] (fun t =>
      (.ok, natLe 4 ps.length, (t.writeBank 1 img).applyImage 1 0 img)))

/-! ### Maintenance and the seal (R293, R294) -/

/-- Whether the maintenance of an origin comes from the strap: it ends only at PORESET_N. -/
def State.strapHeld (s : State) (j : Bool) : Bool := (s.fd.maint[maintIdx j]).any (fun m => m.strap)

/-- The origins of a mask, 4 and 5 in that order: whether each is JTAG's. -/
def maskOrigins (m : Nat) : List Bool := (bitsOf m 2).map (fun i => i == 1)

/-- MAINT_GRANT (0x0110, R293). -/
def execMaintGrant (mb : Fin 8) (origins : Byte) (seconds : Word) (s : State) : Out :=
  s.runCmd mb (.maintGrant origins seconds) (fun f =>
    let js := maskOrigins origins.toNat
    let n := seconds.toNat
    if origins = 0 ∨ 4 ≤ origins.toNat ∨ 86400 < n then failed s .badarg
    else
      let entry (j : Bool) := s.cmdEntry f 8 (4 + bit j) (Maint.ledgerSeconds s.fd.maint[maintIdx j]) (if n = 0 then 0xFFFFFFFF else n)
      s.committed (js.map entry) (fun t =>
        (.ok, [], js.foldl (fun (u : State) j =>
          let u1 := if u.strapHeld j then u
            else u.setMaint j (some ⟨false, if n = 0 then none else some (u.time.clock + n * secondTicks), n⟩)
          u1.post 506 1 (4 + bit j)) t)))

/-- MAINT_REVOKE (0x0111, R293): it ends what was granted. -/
def execMaintRevoke (mb : Fin 8) (origins : Byte) (s : State) : Out :=
  s.runCmd mb (.maintRevoke origins) (fun f =>
    let js := (maskOrigins origins.toNat).filter (fun j => (s.fd.maint[maintIdx j]).isSome && !s.strapHeld j)
    if 4 ≤ origins.toNat then failed s .badarg
    else s.committed (js.map (fun j => s.cmdEntry f 8 (4 + bit j) (Maint.ledgerSeconds s.fd.maint[maintIdx j]) 0)) (fun t =>
      (.ok, [], js.foldl (fun (u : State) j => (u.setMaint j none).post 506 2 (4 + bit j + 16)) t)))

/-- SEAL (0x0112, R294): the part is sealed for life; maintenance that origin 5 holds ends at once. -/
def execSealPart (mb : Fin 8) (key : Word) (s : State) : Out :=
  s.runCmd mb (.sealPart key) (fun f =>
    let held := (s.fd.maint[maintIdx true]).isSome
    if key ≠ 0x5EA15EA1#32 then failed s .badarg
    else if s.fd.isSealed then failed s .denied
    else
      let es := s.cmdEntry f 8 0xFF 0 0xFFFFFFFF :: (if held then [s.cmdEntry f 8 5 (Maint.ledgerSeconds s.fd.maint[maintIdx true]) 0] else [])
      s.committed es (fun t =>
        let u := (t.modFd (fun d => { d with isSealed := true })).post 506 4 0
        (.ok, [], if held then (u.setMaint true none).post 506 2 (5 + 16 * 3) else u)))

end Sys2Proof.Machine
end

