-- ==== Sys2Proof/Machine/ParamCmds.lean ====
section
/-! DEFINITION. The parameter and acquisition commands (spec/14, Tables 14.7–14.9; R326–R328, R148, R149). -/

namespace Sys2Proof.Machine

open Sys2Proof

/-! ### Parameters -/

/-- PARAM_WRITE (0x0201, R326): the reply gives the value before and the tick at which the new one was stored. -/
def execParamWrite (mb : Fin 8) (addr value : Word) (s : State) : Out :=
  s.runCmd mb (.paramWrite addr value) (fun f =>
    let r := s.paramWrite f.origin f.code.toNat f.tag.toNat addr.toNat value.toNat
    (r.1, if r.1 = .ok then natLe 4 r.2.1 ++ natLe 8 s.now.toNat else [], r.2.2))

/-- PARAM_READ (0x0202, R13, R326). -/
def execParamRead (mb : Fin 8) (addr : Word) (s : State) : Out :=
  s.runCmd mb (.paramRead addr) (fun _ =>
    if !s.readable addr.toNat then failed s .badarg
    else
      let r := s.readParam addr.toNat
      (.ok, natLe 4 r.1, r.2))

/-- PARAM_WRITE_LIST (0x0203, R327): its pairs were checked at the start of its round; a BADARG reply carries the index of the first failing pair (R315; log entry 37). -/
def execParamWriteList (mb : Fin 8) (pairs : List (Word × Word)) (s : State) : Out :=
  s.runCmd mb (.paramWriteList pairs) (fun f =>
    let ps := pairs.map (fun p => (p.1.toNat, p.2.toNat))
    let r := s.paramWriteList f.origin f.code.toNat f.tag.toNat f.verdict ps
    (r.1, if r.1 = .ok then natLe 4 ps.length else if r.1 = .badarg then natLe 2 r.2.1 else [], r.2.2))

/-- Parameters read in address order: the value of each place of the list. -/
def State.readOrdered (s : State) (keys : List (Nat × Nat)) : List (Nat × Nat) × State :=
  keys.foldl (fun (acc : List (Nat × Nat) × State) k =>
    let r := acc.2.readParam k.1
    (acc.1 ++ [(k.2, r.1)], r.2)) ([], s)

/-- PARAM_READ_LIST (0x0204, R327): reads in address order, and replies in the order of the list. -/
def execParamReadList (mb : Fin 8) (addrs : List Word) (s : State) : Out :=
  s.runCmd mb (.paramReadList addrs) (fun _ =>
    let as_ := addrs.map (fun a => a.toNat)
    match as_.findIdx? (fun a => !s.readable a) with
    | some i => (.badarg, natLe 2 i, s)
    | none =>
      let r := s.readOrdered (sortKeys as_.zipIdx)
      (.ok, (List.range as_.length).flatMap (fun i => natLe 4 (((r.1.find? (fun x => x.1 = i)).map (fun x => x.2)).getD 0)), r.2))

/-! ### Acquisition -/

/-- Whether the state lets acquisition be armed (R149, R270). -/
def State.mayArm (s : State) : Bool :=
  s.rd pDevNumber != 0xFFFF && s.acq.state == .disarmed && s.on 20 && s.on 16 && s.on 17 && s.on 18 && s.on 19 &&
    !((s.time.servo == .freerun || s.time.servo == .acquire) && s.rd pAcqArmUnlocked == 0) && s.memReady

/-- ACQ_ARM (0x0301, R148, R149). -/
def execAcqArm (mb : Fin 8) (milestone : DWord) (s : State) : Out :=
  s.runCmd mb (.acqArm milestone) (fun f =>
    match s.armMilestone milestone with
    | none => failed s .badarg
    | some a =>
      if !s.mayArm then failed s .denied
      else s.committed [(s.cmdEntry f 10 (milestoneObject a) 0 1).at a] (fun t =>
        (.ok, natLe 8 a.toNat, { t with acq := { t.acq with state := .armPending, armTick := a } })))

/-- ACQ_DISARM (0x0302, R148, R149). -/
def execAcqDisarm (mb : Fin 8) (milestone : DWord) (s : State) : Out :=
  s.runCmd mb (.acqDisarm milestone) (fun f =>
    match s.armMilestone milestone with
    | none => failed s .badarg
    | some d =>
      if s.acq.state ≠ .armed then failed s .denied
      else s.committed [(s.cmdEntry f 10 (milestoneObject d) 1 0).at d] (fun t =>
        (.ok, natLe 8 d.toNat, { t with acq := { t.acq with state := .disarmPending, disarmTick := d } })))

/-- The frame an ACQ_LAUNCH queues with its kind (Table 14.9); none where a field is out of range. -/
def launchFields (body : LaunchBody) : Option (Nat × LaunchFrame) :=
  match body with
  | .accept e st len => if e.msb then none else some (1, .accept ⟨e, st, len, 0⟩)
  | .test tag => some (2, .test tag)
  | .ctrl mb hops route block =>
    if 4 < mb.toNat ∨ 8 < hops.toNat ∨ block.length < 16 ∨ 476 < block.length then none
    else some (3, .ctrl (mb.setWidth 3) (hops.setWidth 4) route block)
  | .badKind _ => none

/-- An ACCEPT to be launched carries its launch tick (Table 10.11). -/
def LaunchFrame.withTick (f : LaunchFrame) (tick : DWord) : LaunchFrame :=
  match f with
  | .accept a => .accept { a with launch := tick }
  | x => x

/-- ACQ_LAUNCH (0x0303, R97, R328). -/
def execAcqLaunch (mb : Fin 8) (port : Byte) (tick : DWord) (body : LaunchBody) (s : State) : Out :=
  s.runCmd mb (.acqLaunch port tick body) (fun f =>
    match idx? 16 port.toNat, launchFields body with
    | some p, some (kind, fr) =>
      let st := (s.ports[downPort p]).state
      if !s.inService (downPort p) then failed s .badarg
      else if st ≠ .admitted ∧ (kind ≠ 3 ∨ st ≠ .standby) then failed s .denied
      else if 256 ≤ s.time.queue.length then failed (s.queueFull 2) .denied
      else if (tick - s.now).toInt < 256 then failed (s.launchMissed 2 f.tag.toNat) .timeout
      else s.committed [(s.cmdEntry f 10 (kind * 256 + p.val) (tick.toNat % 2 ^ 32) (tick.toNat / 2 ^ 32)).at tick] (fun t =>
        let u := t.setTime { t.time with queue := t.time.queue ++ [.frame tick p (fr.withTick tick) f.tag] }
        (.ok, natLe 4 (u.time.queue.length % 256), u))
    | _, _ => failed s .badarg)

/-- ACQ_STATUS (0x0304). -/
def execAcqStatus (mb : Fin 8) (s : State) : Out :=
  s.runCmd mb .acqStatus (fun _ =>
    (.ok, natLe 4 s.acqState ++ natLe 8 s.acq.armTick.toNat ++ natLe 8 s.acq.armedTicks ++ natLe 8 s.acq.deadTicks ++
      natLe 4 s.porter.bookings.length ++ natLe 4 s.porter.freeCount ++ natLe 4 s.roomsReady, s))

/-- A read of external memory by a command: MEMERR on an uncorrectable word, DENIED while a channel it needs is not READY (Table 12.5; log entry 34). -/
def State.memReply (s : State) (addr n : Nat) : Answer :=
  if !s.memReaches addr n then failed s .denied
  else match s.readBytes addr n with
    | (some bs, t) => (.ok, bs, t)
    | (none, t) => failed t .memerr

/-- ACQ_BOOKING_READ (0x0305): the record as the cache holds it, or from the booking region. -/
def execAcqBookingRead (mb : Fin 8) (slot : Half) (s : State) : Out :=
  s.runCmd mb (.acqBookingRead slot) (fun _ =>
    let k := slot.toNat
    match s.booking k with
    | some b => if s.porter.cached.contains k then (.ok, b.bytes, s) else s.memReply (64 * k) 64
    | none => if s.porter.heldSlots.contains k then s.memReply (64 * k) 64 else failed s .denied)

/-- ACQ_ROOM_READ (0x0306): the words of a room as stored. -/
def execAcqRoomRead (mb : Fin 8) (room : Word) (first words : Byte) (s : State) : Out :=
  s.runCmd mb (.acqRoomRead room first words) (fun _ =>
    let r := room.toNat
    let i := first.toNat
    let n := words.toNat
    if s.roomsFit ≤ r ∨ (s.room r).state = .out ∨ n = 0 ∨ 32 < i + n then failed s .badarg
    else s.memReply (s.roomAddr r + 8 * i) (8 * n))

end Sys2Proof.Machine
end

