-- ==== Sys2Proof/Machine/EngCmds.lean ====
section
/-! DEFINITION. The engine commands and the decompression jobs (spec/14, Table 14.10; R146, R147, R212–R214, R318–R320, R329, R331). -/

namespace Sys2Proof.Machine

open Sys2Proof

/-! ### Engine images (R146, R147) -/

/-- The number of the first check of R147 that an engine image fails, 0 for none. -/
def engImageFail (bs : List Byte) : Nat :=
  let kind := imageAt bs 3 1
  let addr := imageAt bs 4 4
  let len := imageAt bs 8 4
  if imageAt bs 0 2 ≠ 0x454E then 1
  else if imageAt bs 2 1 ≠ 1 then 2
  else if bs.length < 20 ∨ imageAt bs 16 4 ≠ (crc32c (bs.take 16 ++ bs.drop 20)).toNat then 3
  else if kind = 0 ∨ 3 < kind then 4
  else if imageAt bs 12 4 ≠ 0 then 5
  else if kind ≠ 1 ∧ addr % 4 ≠ 0 then 6
  else if len = 0 ∨ len % 4 ≠ 0 then 7
  else if len + 20 ≠ bs.length then 8
  else if (kind = 1 ∧ 2048 < addr + len / 4) ∨ (kind = 2 ∧ 0x2000 < addr + len) ∨ (kind = 3 ∧ 0x10000 < addr + len) then 9
  else 0

/-- The engines a selector names, ascending (Table 14.10). -/
def selectedEngines (selector : Word) : List (Fin 128) :=
  (bitsOf (selector.toNat / 256 % 256) 8).filterMap (fun i => idx? 128 (8 * (selector.toNat % 256) + i))

/-- An image's body is written from its load address upwards with fresh check bits (R147). -/
def State.writeEngine (s : State) (bs : List Byte) (e : Fin 128) : State :=
  let addr := imageAt bs 4 4
  let body := bs.drop 20
  if imageAt bs 3 1 = 1 then
    (s.modEng e (fun x => { x with
      imem := x.imem.putBytes (4 * addr) body, imemCe := x.imemCe.filter (fun k => k < addr ∨ addr + body.length / 4 ≤ k)
      imemBad := x.imemBad.filter (fun k => k < addr ∨ addr + body.length / 4 ≤ k) })).wr
      (pEngImageCrc e.val) (imageAt bs 16 4)
  else s.modEng e (fun x => { x with
    dmem := x.dmem.putBytes addr body, dmemCe := x.dmemCe.filter (fun k => k < addr / 4 ∨ (addr + body.length) / 4 ≤ k)
    dmemBad := x.dmemBad.filter (fun k => k < addr / 4 ∨ (addr + body.length) / 4 ≤ k) })

/-- A table image is written once into the tile's table memory (R105, R329). -/
def State.writeTable (s : State) (bs : List Byte) (t : Fin 16) : State :=
  let addr := imageAt bs 4 4
  let body := bs.drop 20
  s.modTile t (fun x => { x with
    table := x.table.putBytes addr body, tableCe := x.tableCe.filter (fun k => k < addr / 4 ∨ (addr + body.length) / 4 ≤ k)
    tableBad := x.tableBad.filter (fun k => k < addr / 4 ∨ (addr + body.length) / 4 ≤ k) })

/-- Whether a load is forbidden by the state (R122): an engine it names is not STOPPED, HALTED or TRAPPED, or the tile has no power (log entry 39). -/
def State.engBlocked (s : State) (kind : Nat) (selector : Word) : Bool :=
  !s.on (selector.toNat % 256) || (kind != 3 && (selectedEngines selector).any (fun e => (s.engines[e]).state.executes))

/-- The whole image of an engine load is checked and written (R147, R329); the transfer ends. -/
def State.engFinal (s : State) (mb : Fin 8) (f : InFlight) (selector : Word) (bs : List Byte) : Answer :=
  let kind := imageAt bs 3 1
  let mask := selector.toNat / 256 % 256
  if engImageFail bs ≠ 0 then s.blockFails mb 5 (engImageFail bs)
  else if (kind = 3 ∧ mask ≠ 0) ∨ (kind ≠ 3 ∧ mask = 0) then s.blockFails mb 6 0
  else if s.engBlocked kind selector then failed (s.endTransfer mb) .denied
  else s.committed ((engObjects selector).map (fun o => s.cmdEntry f 2 o 0 (imageAt bs 16 4))) (fun t =>
    let u := if kind = 3 then (match idx? 16 (selector.toNat % 256) with
        | some k => t.writeTable bs k
        | none => t)
      else (selectedEngines selector).foldl (fun v e => v.writeEngine bs e) t
    (.ok, natLe 4 (imageAt bs 16 4), u.endTransfer mb))

/-! ### Decompression jobs (R212–R214) -/

/-- The state with the compression island changed. -/
def State.modComp (s : State) (g : Compression → Compression) : State := { s with comp := g s.comp }

/-- Whether a job may start: BADARG for its limit, DENIED while PD21 is off (R212). -/
def State.jobStatus (s : State) (limit : Nat) : Status :=
  if limit = 0 ∨ s.rd pCmpDLimitMax < limit then .badarg else if !s.on 21 then .denied else .ok

/-- A job goes to decompressor 0 if it is idle and otherwise to decompressor 1; one that finds both busy waits (R212). -/
def State.startJob (s : State) (j : Job) : State :=
  s.modComp (fun c =>
    if (c.jobs[(0 : Fin 2)]).isNone then { c with jobs := vput c.jobs 0 (some j) }
    else if (c.jobs[(1 : Fin 2)]).isNone then { c with jobs := vput c.jobs 1 (some j) }
    else { c with waiting := c.waiting ++ [j] })

/-- A decompressor is idle again: the job that has waited longest goes to it. -/
def State.freeDecompressor (s : State) (k : Fin 2) : State :=
  s.modComp (fun c => match c.waiting with
    | j :: js => { c with jobs := vput c.jobs k (some j), waiting := js }
    | [] => { c with jobs := vput c.jobs k none })

/-- A job that ends in an error of Table 9.5 (R214, R215): counted and posted. -/
def State.jobAborted (s : State) (k : Fin 2) (j : Job) (n : Nat) : State :=
  ((s.modComp (fun c => { c with errors := vput c.errors k n })).bump (pCmpDCntAborts k.val)).post (408 + k.val) 1 (n + 16 * (j.tag.toNat % 4096))

/-- What the command of a job answers when the job has ended. -/
def State.jobAnswer (s : State) (k : Fin 2) (j : Job) (f : InFlight) : Answer :=
  let r := expand j.format j.limit j.source
  let err (t : State) (n : Nat) : Answer := badArg t (16 + n) (j.tag.toNat % 4096)
  if j.memErr then failed (s.endTransfer j.mailbox) .memerr
  else match j.window, f.cmd with
    | some (off, len), _ =>
      if off + len ≤ r.1.length then (.ok, (r.1.drop off).take len, s)
      else match r.2 with
        | some n => err (s.jobAborted k j n) n
        | none => if r.1.length ≤ off then err s 6 else (.ok, r.1.drop off, s)
    | none, .engLoad b =>
      (match r.2 with
        | some n => err ((s.jobAborted k j n).endTransfer j.mailbox) n
        | none => s.engFinal j.mailbox f b.selector r.1)
    | none, _ => failed s .badarg

/-- DECOMPRESSION_JOB_END (R212–R214, R329, R331): the job of a decompressor ends and completes its command. -/
def execDecompressionJobEnd (k : Fin 2) (s : State) : Out :=
  .next (match s.comp.jobs[k] with
    | none => s
    | some j =>
      if !s.aelkoRuns then s else
      let s1 := (s.freeDecompressor k).bump (pCmpDCntJobs k.val)
      match s1.keeper.inFlight[j.mailbox] with
      | none => s1
      | some f =>
        let a := s1.jobAnswer k j f
        a.2.2.finish j.mailbox f a.1 (if a.1 = .ok ∧ f.cont then 2 else 0) a.2.1)

/-- DECOMPRESSION_WAIT_TIMEOUT (R212): a job has waited 100 ms for a decompressor; its command completes TIMEOUT. -/
def execDecompressionWaitTimeout (s : State) : Out :=
  .next (match s.comp.waiting with
    | [] => s
    | j :: js =>
      if !s.aelkoRuns then s else
      let s1 := (s.modComp (fun c => { c with waiting := js })).endTransfer j.mailbox
      match s1.keeper.inFlight[j.mailbox] with
      | none => s1
      | some f => s1.finish j.mailbox f .timeout 0 [])

/-! ### ENG_LOAD (R329) -/

/-- Whether both staging areas are taken by loads of other mailboxes (R320). -/
def State.stagingFull (s : State) (mb : Fin 8) : Bool :=
  decide (2 ≤ ((List.finRange 8).filter (fun k => k != mb && ((match s.keeper.transfers[k] with
    | some t => t.command == 0x0401
    | none => false) || (s.comp.jobs.toList.any (fun (j : Option Job) => j.any (fun x => x.mailbox == k && x.window.isNone)) ||
      s.comp.waiting.any (fun x => x.mailbox == k && x.window.isNone))))).length)

/-- The selector of an engine load (Table 14.10): tile 0–15, bits [31:17] 0. -/
def engSelectorOk (selector : Word) : Bool := decide (selector.toNat % 256 < 16) && decide (selector.toNat < 2 ^ 17)

/-- One block of an engine load: what it answers, or the job that its whole DEFLATE stream starts. -/
def State.engBlock (s : State) (mb : Fin 8) (f : InFlight) (b : TransferBlock) : Answer ⊕ State :=
  if !engSelectorOk b.selector then .inl (failed (s.endTransfer mb) .badarg)
  else match s.takeBlock mb f b 65556 (fun _ => true) with
    | .error c d => .inl (s.blockFails mb c d)
    | .more data =>
      if s.stagingFull mb then .inl (s.blockFails mb 4 0) else .inl (.ok, natLe 4 data.length, s.keepBlock mb f b data)
    | .whole data =>
      let s := s.blockUnit mb b
      if s.stagingFull mb then .inl (s.blockFails mb 4 0)
      else if b.selector.getLsbD 16 then
        match s.jobStatus 65556 with
        | .ok => .inr (s.startJob ⟨f.tag, data, false, 0, 65556, mb, none⟩)
        | st => .inl (failed (s.endTransfer mb) st)
      else .inl (s.engFinal mb f b.selector data)

/-- ENG_LOAD (0x0401). -/
def execEngLoad (mb : Fin 8) (block : TransferBlock) (s : State) : Out :=
  .next (match s.starts mb (.engLoad block) with
    | none => s
    | some f => match s.engBlock mb f block with
      | .inl a => a.2.2.finish mb f a.1 (if a.1 = .ok ∧ f.cont then 2 else 0) a.2.1
      | .inr t => t)

/-! ### Reading engines -/

/-- What ENG_READ answers from a memory of an engine's tile (R110, R288): words with one flipped bit are corrected and counted; an uncorrectable word on the command's
path is counted, logged and posted, and the command completes MEMERR. -/
def State.readOnchip (s : State) (memory first words : Nat) (bytes : List Byte) (ce bad : List Nat) (fix : State → State) : Answer :=
  let inside := fun (k : Nat) => decide (first ≤ k ∧ k < first + words)
  match bad.find? inside with
  | some k => failed (s.onchipUe memory k) .memerr
  | none => let n := (ce.filter inside).length
    (.ok, bytes, if n = 0 then s else (fix s).bumpBy pMemCntOnchipCe n)

/-- ENG_READ (0x0402): kind 1 counts instructions, kinds 2 and 3 bytes (Table 6.8). -/
def execEngRead (mb : Fin 8) (engine kind : Byte) (addr : Word) (length : Half) (s : State) : Out :=
  s.runCmd mb (.engRead engine kind addr length) (fun _ =>
    let n := length.toNat
    let a := addr.toNat
    match idx? 128 engine.toNat with
    | none => failed s .badarg
    | some e =>
      let x := s.engines[e]
      let y := s.tiles[tileOfEng e]
      let keep := fun (first : Nat) (ks : List Nat) => ks.filter (fun k => k < first ∨ first + (n + 3) / 4 ≤ k)
      if n = 0 ∨ 480 < n ∨ n % 4 ≠ 0 then failed s .badarg
      else match kind.toNat with
        | 1 =>
          if 2048 < a + n / 4 then failed s .badarg
          else if !s.on (tileOfEng e).val then failed s .denied
          else s.readOnchip e.val a (n / 4) (x.imem.bytes (4 * a) n) x.imemCe x.imemBad (fun t => t.setEng e { x with imemCe := keep a x.imemCe })
        | 2 =>
          if 0x2000 < a + n then failed s .badarg
          else if !s.on (tileOfEng e).val then failed s .denied
          else s.readOnchip (128 + e.val) (a / 4) ((a % 4 + n + 3) / 4) (x.dmem.bytes a n) x.dmemCe x.dmemBad (fun t =>
            t.setEng e { x with dmemCe := keep (a / 4) x.dmemCe })
        | 3 =>
          if 0x10000 < a + n then failed s .badarg
          else if !s.on (tileOfEng e).val then failed s .denied
          else s.readOnchip (256 + (tileOfEng e).val) (a / 4) ((a % 4 + n + 3) / 4) (y.table.bytes a n) y.tableCe y.tableBad (fun t =>
            t.setTile (tileOfEng e) { y with tableCe := keep (a / 4) y.tableCe })
        | _ => failed s .badarg)

/-- ENG_STATUS (0x0403). -/
def execEngStatus (mb : Fin 8) (tile : Byte) (s : State) : Out :=
  s.runCmd mb (.engStatus tile) (fun _ =>
    match idx? 16 tile.toNat with
    | none => failed s .badarg
    | some t =>
      (.ok, (List.range 8).flatMap (fun i => match idx? 128 (8 * t.val + i) with
        | some e =>
          let x := s.engines[e]
          natLe 1 x.state.code ++ natLe 1 x.restarts ++ natLe 2 x.pc.toNat ++ natLe 4 x.trapWord
        | none => []), s))

/-! ### MEM_INFLATE (R331) -/

/-- MEM_INFLATE (0x0605): the bytes of its source are read and a job decodes them; the reply follows at the job's end. -/
def execMemInflate (mb : Fin 8) (addr bytes : Word) (format : Byte) (limit offset : Word) (length : Half) (s : State) : Out :=
  .next (match s.starts mb (.memInflate addr bytes format limit offset length) with
    | none => s
    | some f =>
      let n := length.toNat
      let src := bytes.toNat
      if 1 < format.toNat ∨ n = 0 ∨ 480 < n ∨ 0x4000000 < addr.toNat + src ∨ s.dataFit < addr.toNat + src then s.finish mb f .badarg 0 []
      else match s.jobStatus limit.toNat with
        | .ok =>
          if !s.memReaches addr.toNat src then s.finish mb f .denied 0 []
          else
            let r := s.readBytes addr.toNat src
            r.2.startJob ⟨f.tag, r.1.getD [], r.1.isNone, format.toNat, limit.toNat, mb, some (offset.toNat, n)⟩
        | st => s.finish mb f st 0 [])

end Sys2Proof.Machine
end

