-- ==== Sys2Proof/Machine/FrontDesk.lean ====
section
/-! DEFINITION. The commands of the front desk, the event queue and the ledger buffer (spec/13). -/

namespace Sys2Proof.Machine

open Sys2Proof

/-- MAILBOX_WRITE (R297, R301, R302): one word of mailbox memory. -/
def execMailboxWrite (o : Origin) (mb : Fin 8) (index : Fin 128) (value : Word) (s : State) : Out :=
  .next (if s.fdOpen o then s.mbWordWrite o mb (4 * index.val) value else s)

/-- DOORBELL (R297): a write to FD_DOORBELL. -/
def execDoorbell (o : Origin) (value : Word) (s : State) : Out :=
  .next (if s.fdOpen o then s.doorbells o value else s)

/-- MB_DONE_CLEAR (R297): a write of 1 to bits of FD_MB_DONE. -/
def execMbDoneClear (o : Origin) (value : Word) (s : State) : Out :=
  .next (if s.fdOpen o then s.clearDone value else s)

/-- EVQ_TAKE (R305): the front desk takes one record from the source buffers. -/
def execEvqTake (s : State) : Out := .next (if s.power.poreset then s else s.takeRecord)

/-- EVQ_READ (R306): a read of FD_EVQ_LO. -/
def execEvqRead (s : State) : Out := .next (if s.power.poreset then s else s.readEvent.2)

/-- EVQ_FLUSH (R306): a write of 1 to FD_EVQ_CTRL.FLUSH. -/
def execEvqFlush (o : Origin) (s : State) : Out := .next (if s.fdOpen o then s.flushEvents o 0 0 else s)

/-- FD_NOW_SNAPSHOT (R303): a read of FD_NOW_LO. -/
def execFdNowSnapshot (s : State) : Out := .next (if s.power.poreset then s else (s.fdRead 0x28).2)

/-- FD_REGISTER_WRITE (R301–R303): a word written to a front-desk address; address bits [1:0] are ignored. -/
def execFdRegisterWrite (o : Origin) (addr : Half) (value : Word) (s : State) : Out :=
  .next (if s.fdOpen o then s.fdStoreWord o addr.toNat value else s)

/-- LEDGER_COMMIT (R309): Aelko commits the oldest buffered entry, hold-up allowing, and then the GAP entry of entries lost; batches run one at a time (R369). -/
def execLedgerCommit (s : State) : Out :=
  .next (if !s.aelkoRuns ∨ s.mram.running.isSome then s else s.ledgerCommit)

/-- MAINT_EXPIRY (R293): a granted maintenance reaches the end of its duration. -/
def execMaintExpiry (jtag : Bool) (s : State) : Out :=
  .next (match s.fd.maint[maintIdx jtag] with
    | some m =>
      match m.ends with
      | some t =>
        if m.strap ∨ s.time.clock < t then s
        else
          let o := if jtag then 5 else 4
          (((s.setMaint jtag none).post 506 2 (o + 16 * 2)).ledgerLater (s.entry 1 8 0 o m.seconds 0 0))
      | none => s
    | none => s)

end Sys2Proof.Machine
end

