-- ==== Sys2Proof/Machine/Hits.lean ====
section
/-! DEFINITION. The commands of the hit channels and tiles (spec/01, 02), parameter writes apart. -/

namespace Sys2Proof.Machine

open Sys2Proof

/-- A channel's tile is powered. -/
def State.chanOn (s : State) (ch : Fin 256) : Bool := s.on (tileOf ch).val

/-- A leading edge is accepted (R30, R32, R36): a derandomiser entry is taken, the oldest being lost when all 8 are. -/
def State.leadingEdge (s : State) (ch : Fin 256) (raw : BitVec 10) : State :=
  let c := s.chans[ch]
  let full := 8 ≤ c.entries.length
  let h : HitEntry :=
    { lead := ⟨s.now, s.time.fine, s.time.epoch, raw⟩, trail := none, leadFine := none, trailFine := none, status := .openHit, pileup := false,
      offset := c.offset }
  let s1 := s.setChan ch { c with entries := (if full then c.entries.tail else c.entries) ++ [h], blind := some ⟨true, false, false⟩,
                                  stuckFrom := some s.time.clock }
  if full then s1.bumpPostCount (pChanCntLost ch.val) ch.val 1 else s1

/-- A trailing edge is accepted (R30, R32). -/
def State.trailingEdge (s : State) (ch : Fin 256) (raw : BitVec 10) : State :=
  s.modChan ch (fun c => { c.modOpen (fun h => { h with trail := some ⟨s.now, s.time.fine, s.time.epoch, raw⟩, trailFine := none }) with
    blind := some ⟨false, false, false⟩ })

/-- A change of level in a blank (R49): a leading edge is discarded and counted while armed. -/
def State.blankedEdge (s : State) (ch : Fin 256) (level : Bool) : State :=
  if level && s.streaming then
    (s.modChan ch (fun x => { x with blank := x.blank.map (fun b => { b with discarded := b.discarded + 1 }) })).bump (pChanCntBlanked ch.val)
  else s

/-- What a change of the discriminator's level does in each state (Table 2.10, R32, R50, R53). -/
def State.levelChange (s : State) (ch : Fin 256) (level : Bool) (raw : BitVec 10) : State :=
  let c := s.chans[ch]
  match c.state with
  | .disabled => s
  | .waitInactive => if level then s else s.waitInactive ch
  | .running =>
    if !s.streaming then s
    else match c.blind with
      | some b => s.modChan ch (fun x => { x with blind := some { b with transition := true } })
      | none => if level then s.leadingEdge ch raw else if c.hasOpen then s.trailingEdge ch raw else s
  | .blanked | .calibrating => s.blankedEdge ch level
  | .quarantined => s.modChan ch (fun x => { x with inactiveFrom := if level then none else some s.time.clock })

/-- DISCRIMINATOR_EDGE (R28–R32, R36, R49, R50): the input of a channel takes the differential voltage `v` (1/128 mV); when the discriminator changes its
output, the edge is taken with the raw code of its charge, or handled as the channel's state says. -/
def execDiscriminatorEdge (ch : Fin 256) (v : Int) (raw : BitVec 10) (s : State) : Out :=
  .next (let c := s.chans[ch]
    let s0 := s.modChan ch (fun x => { x with volts := v })
    if !s.chanOn ch || c.state = .disabled then s0
    else
      let level := c.front.level v c.level
      if level = c.level then s0 else (s0.modChan ch (fun x => { x with level := level })).levelChange ch level raw)

/-- BLIND_INTERVAL_END (Table 2.3, R33): the level is sampled 1.6 ns after an accepted edge; `tacReady` says that the TAC of the next edge is free, or the
interval is extended. -/
def execBlindIntervalEnd (ch : Fin 256) (tacReady : Bool) (s : State) : Out :=
  .next (let c := s.chans[ch]
    match c.blind with
    | none => s
    | some b =>
      if b.extended then s else
      let s0 := s.modChan ch (fun x => { x with blind := none })
      let wait : State → State := fun t => if tacReady then t else t.modChan ch (fun x => { x with blind := some ⟨b.leading, false, true⟩ })
      match b.leading, c.level with
      | true, true => if b.transition then s0.modChan ch (fun x => x.modOpen (fun h => { h with pileup := true })) else s0
      | true, false => wait (s0.closeHit ch .totZero true)
      | false, false => s0.closeHit ch .normal b.transition
      | false, true => wait (s0.modChan ch (fun x => x.modOpen (fun h => { h with trail := none, trailFine := none, pileup := true }))))

/-- BLIND_EXTENSION_END (R33): the level is sampled again at the end of an extension. -/
def execBlindExtensionEnd (ch : Fin 256) (s : State) : Out :=
  .next (let c := s.chans[ch]
    match c.blind with
    | none => s
    | some b =>
      if !b.extended then s else
      let s0 := s.modChan ch (fun x => { x with blind := none })
      match b.leading, c.level with
      | true, false => s0
      | true, true => (s0.bump (pChanCntPileup ch.val)).waitInactive ch
      | false, true => s0
      | false, false => s0.closeHit ch .totZero true)

/-- A raw code is linearised (R41): a code outside the span is counted, and posted at the first since the count was read. -/
def State.linearise (s : State) (ch : Fin 256) (raw : BitVec 10) : BitVec 10 × State :=
  let (f, out) := codeFine ch.val (s.chans[ch]).table raw.toNat
  (BitVec.ofNat 10 f, if out then s.bumpPost (pChanCntOutrange ch.val) ch.val 6 raw.toNat else s)

/-- The conversion of a channel's oldest waiting hold cell (R34): within a hit the leading cell first. -/
def convertOldest (conv : BitVec 10 → BitVec 10 × State) : List HitEntry → Option (List HitEntry × State)
  | [] => none
  | h :: hs =>
    match h.leadFine, h.trail, h.trailFine with
    | none, _, _ => let (f, t) := conv h.lead.raw; some ({ h with leadFine := some f } :: hs, t)
    | some _, some e, none => let (f, t) := conv e.raw; some ({ h with trailFine := some f } :: hs, t)
    | _, _, _ => (convertOldest conv hs).map (fun p => (h :: p.1, p.2))

/-- SAR_SLOT (R34–R41): a channel's slot converts its oldest waiting cell, and complete hit words are offered to the merger. -/
def execSarSlot (ch : Fin 256) (s : State) : Out :=
  .next (if !s.chanOn ch then s else
    match convertOldest (fun raw => s.linearise ch raw) (s.chans[ch]).entries with
    | some (es, t) => (t.modChan ch (fun x => { x with entries := es })).offer ch 8
    | none => s.offer ch 8)

/-- REORDER_HOLD_END (R19, R80, R111–R113, R181): the hold of the word that has waited longest ends after 80 ticks; earlier words and then that word leave. A
word behind a STEP word, and that word, wait until the closed hits stamped before the step have come. -/
def execReorderHoldEnd (tile : Fin 16) (s : State) : Out :=
  .next (match (s.tiles[tile]).held.find? (fun h => decide (h.since + 80 ≤ s.time.clock) && !s.barred tile h) with
    | none => s
    | some h => if !s.on tile.val then s else (s.releaseUpTo tile h).drainOutput tile)

/-- STUCK_LIMIT_EXPIRY (R52): the stuck timer reaches CHAN.STUCK_LIMIT; a hit whose trailing edge has come is not stuck. -/
def execStuckLimitExpiry (ch : Fin 256) (s : State) : Out :=
  .next (let c := s.chans[ch]
    match c.stuckFrom with
    | none => s
    | some f =>
      if s.time.clock < f + s.rd (pChanStuckLimit ch.val) ∨ !s.streaming ∨ !s.chanOn ch then s
      else match c.state with
        | .running => if c.entries.any (fun h => h.status == .openHit && h.trail.isNone) then (s.closeHit ch .stuck false).quarantine ch 1 else s
        | .waitInactive => s.quarantine ch 2
        | _ => s)

/-- AUTOMATIC_READMISSION (R53): with CHAN.AUTOREADMIT at 1 the input has read inactive for 1,024 ticks in a row. -/
def execAutomaticReadmission (ch : Fin 256) (s : State) : Out :=
  .next (let c := s.chans[ch]
    match c.inactiveFrom with
    | some f =>
      if c.state = .quarantined ∧ s.streaming ∧ s.rd (pChanAutoreadmit ch.val) = 1 ∧ f + 1024 ≤ s.time.clock then s.readmit ch 1 else s
    | none => s)

/-- BLANK_END (R45, R49, R50): a blank's 2,048 ticks expire; a calibration's outcome is posted, and a channel whose turn came meanwhile is taken. -/
def execBlankEnd (ch : Fin 256) (s : State) : Out :=
  .next (let c := s.chans[ch]
    match c.blank with
    | none => s
    | some b =>
      if c.state ≠ .blanked ∨ s.time.clock < b.ends then s
      else
        let s1 := (s.endBlankWord ch).waitInactive ch
        let s2 : State := match c.calOutcome with
          | some 0 =>
            let (lo, hi) := tableSpan ch.val (s.chans[ch]).table
            s1.post ch.val 4 (hi - lo + 1)
          | some k => s1.post ch.val 5 k
          | none => s1
        let s3 : State := s2.modChan ch (fun x => { x with calOutcome := none })
        if c.calWaiting && s3.aelkoRuns && (s3.calibrating (tileOf ch)).isNone then s3.startCal ch else s3)

/-- The next channel of a tile's round (R45, R46): one whose turn has come and that waits for its blank, else one that is due, whatever the period, else
the next in ascending order that is neither DISABLED nor QUARANTINED. A due channel is taken at once, and each start begins the period anew (log entry 74). -/
def State.nextCal (s : State) (t : Fin 16) : Option (Fin 256) :=
  let all := (List.finRange 16).map (chanOf t)
  let fit := fun ch => (s.chans[ch]).state != .disabled && (s.chans[ch]).state != .quarantined
  match all.find? (fun ch => (s.chans[ch]).calWaiting && fit ch), all.find? (fun ch => (s.chans[ch]).calDue && fit ch) with
  | some ch, _ => some ch
  | none, some ch => some ch
  | none, none =>
    let period := s.rd (pTileCalPeriod t.val)
    if period = 0 ∨ s.time.clock < (s.tiles[t]).calLast + period * secondTicks then none
    else
      let n := (s.tiles[t]).calNext
      ((all.drop n) ++ (all.take n)).find? fit

/-- RECALIBRATION_START (R45, R46): the next channel of the tile is blanked with cause 2 and connected to the calibration source; a BLANKED one waits for
its blank, and no other is taken meanwhile. -/
def execRecalibrationStart (tile : Fin 16) (s : State) : Out :=
  .next (if !s.on tile.val || !s.aelkoRuns || (s.calibrating tile).isSome then s else
    match s.nextCal tile with
    | none => s
    | some ch =>
      let c := s.chans[ch]
      let s1 := if c.calDue ∨ c.calWaiting then s else s.modTile tile (fun x => { x with calNext := (ch.val % 16 + 1) % 16 })
      if c.state = .blanked then s1.modChan ch (fun x => { x with calWaiting := true })
      else s1.startCal ch)

/-- HISTOGRAM_COMPLETE (R42, R43, R45, R51, R369): the histogram is complete; Aelko builds and checks the table, writes it with its image in a batch of 67
words, and the input is reconnected. While the hold-up check defers the batch, step 4 of Table 2.8 is not done and the run goes on. CALSRC_FAULT is posted where check 6 is the
first that fails (log entry 74). `moved` is the change of tile temperature in 1/16 °C and `source` the source frequency in 100 kHz. -/
def execHistogramComplete (ch : Fin 256) (hist : List Nat) (moved : Int) (source : Nat) (s : State) : Out :=
  .next (if (s.chans[ch]).state ≠ .calibrating ∨ !s.aelkoFree ∨ !s.chanOn ch then s else
    let t := (tileOf ch).val
    match buildTable hist (2 ^ s.rd (pTileCalEdges t)) moved source 60 100 ch.val (signed 16 (s.rd (pTileTemp t))) (s.rd (pTileTacTrim t)) with
    | .inl k => (if k = 6 then s.post (384 + t) 2 source else s).endCal ch k
    | .inr tab => match s.tryBatch 67 with
      | (false, u) => u.tornLin (s.cutAt 67) ch.val tab.image
      | (true, u) =>
        let u1 : State := { u with mram := { u.mram with linImages := sset ch.val tab.image u.mram.linImages } }
        (u1.modChan ch (fun x => { x with table := some tab, tableBuilt := some s.time.clock, calPosted := false })).endCal ch 0)

/-- RECALIBRATION_ABANDON (R45, R60): a run of a channel, or of stamper n for 256 + n, not finished within 1 s is abandoned with check 7. -/
def execRecalibrationAbandon (k : Fin 261) (s : State) : Out :=
  .next (match idx? 256 k.val with
    | some ch => match (s.chans[ch]).calStart with
      | some f => if (s.chans[ch]).state = .calibrating ∧ f + secondTicks ≤ s.time.clock then s.endCal ch 7 else s
      | none => s
    | none =>
      let n : Fin 5 := ⟨(k.val - 256) % 5, by omega⟩
      if (s.ref.stampers[n]).calibrating ∧ (s.ref.stampers[n]).calStart + secondTicks ≤ s.time.clock then s.abandonStamper n else s)

end Sys2Proof.Machine
end

