-- ==== Sys2Proof/Machine/Isa.lean ====
section
/-! DEFINITION. The engine instructions (spec/06): each executes on an engine that is RUNNING with that word at its PC. -/

namespace Sys2Proof.Machine

open Sys2Proof

/-- ADD (R134). -/
def execAdd (e : Fin 128) (d a b : Fin 16) (s : State) : Out :=
  .next (s.engAlu e (engWord3 0x00 d a b 0) (fun x => x.add d (x.get a) (x.get b)))

/-- SUB (R134). -/
def execSub (e : Fin 128) (d a b : Fin 16) (s : State) : Out :=
  .next (s.engAlu e (engWord3 0x01 d a b 0) (fun x => x.sub d (x.get a) (x.get b)))

/-- AND. -/
def execAnd (e : Fin 128) (d a b : Fin 16) (s : State) : Out :=
  .next (s.engAlu e (engWord3 0x02 d a b 0) (fun x => x.result d (x.get a &&& x.get b)))

/-- ORR. -/
def execOrr (e : Fin 128) (d a b : Fin 16) (s : State) : Out :=
  .next (s.engAlu e (engWord3 0x03 d a b 0) (fun x => x.result d (x.get a ||| x.get b)))

/-- XOR. -/
def execXor (e : Fin 128) (d a b : Fin 16) (s : State) : Out :=
  .next (s.engAlu e (engWord3 0x04 d a b 0) (fun x => x.result d (x.get a ^^^ x.get b)))

/-- MIN (R134): signed. -/
def execMin (e : Fin 128) (d a b : Fin 16) (s : State) : Out :=
  .next (s.engAlu e (engWord3 0x05 d a b 0) (fun x => x.result d (if (x.get a).sle (x.get b) then x.get a else x.get b)))

/-- MAX (R134): signed. -/
def execMax (e : Fin 128) (d a b : Fin 16) (s : State) : Out :=
  .next (s.engAlu e (engWord3 0x06 d a b 0) (fun x => x.result d (if (x.get a).sle (x.get b) then x.get b else x.get a)))

/-- SHL (R135). -/
def execShl (e : Fin 128) (d a b : Fin 16) (s : State) : Out :=
  .next (s.engAlu e (engWord3 0x08 d a b 0) (fun x => x.result d (x.get a <<< ((x.get b).toNat % 32))))

/-- SHR (R135). -/
def execShr (e : Fin 128) (d a b : Fin 16) (s : State) : Out :=
  .next (s.engAlu e (engWord3 0x09 d a b 0) (fun x => x.result d (x.get a >>> ((x.get b).toNat % 32))))

/-- SAR (R135). -/
def execSar (e : Fin 128) (d a b : Fin 16) (s : State) : Out :=
  .next (s.engAlu e (engWord3 0x0A d a b 0) (fun x => x.result d ((x.get a).sshiftRight ((x.get b).toNat % 32))))

/-- POPC. -/
def execPopc (e : Fin 128) (d a : Fin 16) (s : State) : Out :=
  .next (s.engAlu e (engWord 0x0C d a 0) (fun x => x.result d (BitVec.ofNat 32 (popCount (x.get a)))))

/-- CLZ. -/
def execClz (e : Fin 128) (d a : Fin 16) (s : State) : Out :=
  .next (s.engAlu e (engWord 0x0D d a 0) (fun x => x.result d (BitVec.ofNat 32 (leadingZeros (x.get a)))))

/-- ADDI (R134). -/
def execAddi (e : Fin 128) (d a : Fin 16) (imm : BitVec 18) (s : State) : Out :=
  .next (s.engAlu e (engWord 0x10 d a imm.toNat) (fun x => x.add d (x.get a) (sx18 imm)))

/-- ANDI. -/
def execAndi (e : Fin 128) (d a : Fin 16) (imm : BitVec 18) (s : State) : Out :=
  .next (s.engAlu e (engWord 0x11 d a imm.toNat) (fun x => x.result d (x.get a &&& zx18 imm)))

/-- ORRI. -/
def execOrri (e : Fin 128) (d a : Fin 16) (imm : BitVec 18) (s : State) : Out :=
  .next (s.engAlu e (engWord 0x12 d a imm.toNat) (fun x => x.result d (x.get a ||| zx18 imm)))

/-- XORI. -/
def execXori (e : Fin 128) (d a : Fin 16) (imm : BitVec 18) (s : State) : Out :=
  .next (s.engAlu e (engWord 0x13 d a imm.toNat) (fun x => x.result d (x.get a ^^^ zx18 imm)))

/-- SHLI (R135). -/
def execShli (e : Fin 128) (d a : Fin 16) (imm : BitVec 5) (s : State) : Out :=
  .next (s.engAlu e (engWord 0x14 d a imm.toNat) (fun x => x.result d (x.get a <<< imm.toNat)))

/-- SHRI (R135). -/
def execShri (e : Fin 128) (d a : Fin 16) (imm : BitVec 5) (s : State) : Out :=
  .next (s.engAlu e (engWord 0x15 d a imm.toNat) (fun x => x.result d (x.get a >>> imm.toNat)))

/-- SARI (R135). -/
def execSari (e : Fin 128) (d a : Fin 16) (imm : BitVec 5) (s : State) : Out :=
  .next (s.engAlu e (engWord 0x16 d a imm.toNat) (fun x => x.result d ((x.get a).sshiftRight imm.toNat)))

/-- LUI (R134). -/
def execLui (e : Fin 128) (d : Fin 16) (imm : BitVec 18) (s : State) : Out :=
  .next (s.engAlu e (engWord 0x17 d 0 imm.toNat) (fun x => x.result d (zx18 imm <<< 14)))

/-- EXT (R135). -/
def execExt (e : Fin 128) (d a : Fin 16) (pos width1 : BitVec 5) (s : State) : Out :=
  .next (s.engAlu e (engWord 0x18 d a (pos.toNat + 32 * width1.toNat)) (fun x => x.result d (takeField (x.get a) pos width1)))

/-- INS (R135): d is read too. -/
def execIns (e : Fin 128) (d a : Fin 16) (pos width1 : BitVec 5) (s : State) : Out :=
  .next (s.engAlu e (engWord 0x19 d a (pos.toNat + 32 * width1.toNat)) (fun x => x.result d (putField (x.get d) (x.get a) pos width1)))

/-- EXTH (R135): a field of h0 or h1. -/
def execExth (e : Fin 128) (d : Fin 16) (high : Bool) (pos width1 : BitVec 5) (s : State) : Out :=
  .next (s.engGo e (engWord 0x1A d (if high then 1 else 0) (pos.toNat + 32 * width1.toNat)) none (s.seq e) (fun t =>
    t.modEng e (fun x => x.result d (takeField (if high then x.h1 else x.h0) pos width1))))

/-- BEQ. -/
def execBeq (e : Fin 128) (a b : Fin 16) (disp : BitVec 14) (s : State) : Out :=
  .next (s.engBranch e 0x20 0 a b disp)

/-- BNE. -/
def execBne (e : Fin 128) (a b : Fin 16) (disp : BitVec 14) (s : State) : Out :=
  .next (s.engBranch e 0x21 0 a b disp)

/-- BLT: signed. -/
def execBlt (e : Fin 128) (a b : Fin 16) (disp : BitVec 14) (s : State) : Out :=
  .next (s.engBranch e 0x22 0 a b disp)

/-- BGE: signed. -/
def execBge (e : Fin 128) (a b : Fin 16) (disp : BitVec 14) (s : State) : Out :=
  .next (s.engBranch e 0x23 0 a b disp)

/-- BLTU. -/
def execBltu (e : Fin 128) (a b : Fin 16) (disp : BitVec 14) (s : State) : Out :=
  .next (s.engBranch e 0x24 0 a b disp)

/-- BGEU. -/
def execBgeu (e : Fin 128) (a b : Fin 16) (disp : BitVec 14) (s : State) : Out :=
  .next (s.engBranch e 0x25 0 a b disp)

/-- BFS: branch if the flag is 1. -/
def execBfs (e : Fin 128) (flag : Fin 7) (disp : BitVec 14) (s : State) : Out :=
  .next (s.engBranch e 0x26 ⟨flag.val, by omega⟩ 0 0 disp)

/-- BFC: branch if the flag is 0. -/
def execBfc (e : Fin 128) (flag : Fin 7) (disp : BitVec 14) (s : State) : Out :=
  .next (s.engBranch e 0x27 ⟨flag.val, by omega⟩ 0 0 disp)

/-- LDD. -/
def execLdd (e : Fin 128) (d a : Fin 16) (imm : BitVec 18) (s : State) : Out :=
  .next (s.engLoad e (engWord 0x28 d a imm.toNat) d a imm 4)

/-- LDDH. -/
def execLddh (e : Fin 128) (d a : Fin 16) (imm : BitVec 18) (s : State) : Out :=
  .next (s.engLoad e (engWord 0x29 d a imm.toNat) d a imm 2)

/-- LDDB. -/
def execLddb (e : Fin 128) (d a : Fin 16) (imm : BitVec 18) (s : State) : Out :=
  .next (s.engLoad e (engWord 0x2A d a imm.toNat) d a imm 1)

/-- STD. -/
def execStd (e : Fin 128) (d a : Fin 16) (imm : BitVec 18) (s : State) : Out :=
  .next (s.engStore e (engWord 0x2B d a imm.toNat) d a imm 4)

/-- STDH. -/
def execStdh (e : Fin 128) (d a : Fin 16) (imm : BitVec 18) (s : State) : Out :=
  .next (s.engStore e (engWord 0x2C d a imm.toNat) d a imm 2)

/-- STDB. -/
def execStdb (e : Fin 128) (d a : Fin 16) (imm : BitVec 18) (s : State) : Out :=
  .next (s.engStore e (engWord 0x2D d a imm.toNat) d a imm 1)

/-- LDT. -/
def execLdt (e : Fin 128) (d a : Fin 16) (imm : BitVec 18) (lost : Bool) (s : State) : Out :=
  .next (s.engTableLoad e (engWord 0x2E d a imm.toNat) d a imm 4 lost)

/-- STT. -/
def execStt (e : Fin 128) (d a : Fin 16) (imm : BitVec 18) (lost : Bool) (s : State) : Out :=
  .next (s.engTableStore e (engWord 0x2F d a imm.toNat) d a imm 4 lost)

/-- LDTH. -/
def execLdth (e : Fin 128) (d a : Fin 16) (imm : BitVec 18) (lost : Bool) (s : State) : Out :=
  .next (s.engTableLoad e (engWord 0x30 d a imm.toNat) d a imm 2 lost)

/-- STTH (R139). -/
def execStth (e : Fin 128) (d a : Fin 16) (imm : BitVec 18) (lost : Bool) (s : State) : Out :=
  .next (s.engTableStore e (engWord 0x31 d a imm.toNat) d a imm 2 lost)

/-- CALL (R136). -/
def execCall (e : Fin 128) (disp : BitVec 14) (s : State) : Out :=
  .next (let pc := (s.engines[e]).pc.toNat
    s.engGo e (engWord3 0x32 0 0 0 disp.toNat) none ((pc : Int) + disp.toInt) (fun t =>
      (t.modEng e (fun x => x.put 15 (BitVec.ofNat 32 (pc + 1)))).spend e 2))

/-- RET (R136). -/
def execRet (e : Fin 128) (s : State) : Out :=
  .next (s.engGo e (engWord 0x33 0 0 0) none (((s.engines[e]).get 15).toNat : Int) (fun t => t.spend e 2))

/-- TDIFF (R140). -/
def execTdiff (e : Fin 128) (d a b : Fin 16) (s : State) : Out :=
  .next (s.engAlu e (engWord3 0x34 d a b 0) (fun x =>
    x.result d (((x.get a).setWidth 30 - (x.get b).setWidth 30 : BitVec 30).signExtend 32)))

/-- WAITT (R118, R144). -/
def execWaitt (e : Fin 128) (a : Fin 16) (imm : BitVec 18) (lag : Fin 9) (s : State) : Out :=
  .next (let t30 : BitVec 30 := ((s.engines[e]).get a + sx18 imm).setWidth 30
    s.engGo e (engWord 0x36 0 a imm.toNat) none (s.seq e) (fun t =>
      if t.reached t30 lag then t.modEng e (fun x => x.setFlag 6 true)
      else t.modEng e (fun x => { x.setFlag 6 false with state := .waiting, waitTarget := t30, watchdog := 0 })))

/-- POPH (R113, R114, R124): the place it frees takes a copy that its cycle brought to a full queue. -/
def execPoph (e : Fin 128) (s : State) : Out :=
  .next (s.engGo e (engWord 0x38 0 0 0) none (s.seq e) (fun t =>
      let word : Option DWord := ((t.visible e).head?).map (fun (q : QueueWord) => q.word)
      t.modEng e (fun x => match word with
        | some (w : DWord) => { x.setFlag 4 false with
            h0 := w.setWidth 32, h1 := (w >>> 32).setWidth 32, queue := x.queue.tail ++ x.late.take 1, late := x.late.drop 1, watchdog := 0, loaded := .hitRegs }
        | none => { x.setFlag 4 true with loaded := .hitRegs })))

/-- PEEKH (R114, R124). -/
def execPeekh (e : Fin 128) (s : State) : Out :=
  .next (s.engGo e (engWord 0x39 0 0 0) none (s.seq e) (fun t =>
      let word : Option DWord := ((t.visible e).head?).map (fun (q : QueueWord) => q.word)
      t.modEng e (fun x => match word with
        | some (w : DWord) => { x.setFlag 4 false with h0 := w.setWidth 32, h1 := (w >>> 32).setWidth 32, watchdog := 0, loaded := .hitRegs }
        | none => { x.setFlag 4 true with loaded := .hitRegs })))

/-- Whether an engine of the tile with a lower number has the same emitting instruction in X: the queue takes those of a cycle in ascending order (R142), so this one
waits for it (log entry 17). -/
def State.emitsFirst (s : State) (e : Fin 128) (op : Nat) : Bool :=
  (List.finRange 128).any (fun f => tileOfEng f == tileOfEng e && decide (f < e) && (s.engines[f]).word.toNat / 2 ^ 26 == op && (s.engines[f]).inX s.cycle)

/-- EMITP (R115, R142). -/
def execEmitp (e : Fin 128) (a b : Fin 16) (s : State) : Out :=
  .next (let x := s.engines[e]
    let body : DWord := x.get b ++ x.get a
    if s.emitsFirst e 0x3A then s else
    s.engGo e (engWord3 0x3A 0 a b 0) none (s.seq e) (fun t =>
      if 4 ≤ (t.tiles[tileOfEng e]).prims.length then t.bumpPostCount (pEngCntPrimLost e.val) (256 + e.val) 4
      else (t.modTile (tileOfEng e) (fun y => { y with prims := y.prims ++ [
        ⟨BitVec.ofNat 16 (t.rd pDevNumber), BitVec.ofNat 7 e.val, BitVec.ofNat 4 (t.rd pDevArray), t.now, body⟩] })).bump (pEngCntPrim e.val)))

/-- EMITS (R116, R142): it stalls a cycle while the queue of 8 is full, unless it traps (R124). -/
def execEmits (e : Fin 128) (a b : Fin 16) (s : State) : Out :=
  .next (let x := s.engines[e]
    let w := engWord3 0x3B 0 a b 0
    if s.emitsFirst e 0x3B then s
    else if s.atWord e w && decide (8 ≤ (s.tiles[tileOfEng e]).records.length) && (s.firstTrap e none (s.seq e)).isNone then (s.correctFetch e).engStall e
    else s.engGo e w none (s.seq e) (fun t =>
      let n := t.red.engineSeq[e]
      let t1 := t.modTile (tileOfEng e) (fun y => { y with records := y.records ++ [⟨e.val, x.get b ++ x.get a, shortTick t.now, n⟩] })
      ({ t1 with red := { t1.red with engineSeq := vput t1.red.engineSeq e (n + 1) } } : State).bump (pEngCntEmits e.val)))

/-- RAISE (R117, R143). -/
def execRaise (e : Fin 128) (a : Fin 16) (imm : BitVec 6) (s : State) : Out :=
  .next (let arg := ((s.engines[e]).get a).toNat % 2 ^ 16
    s.engGo e (engWord 0x3C 0 a imm.toNat) none (s.seq e) (fun t =>
      let t1 := if t.hasRoom (256 + e.val) then t else t.bump (pEngCntRaiseLost e.val)
      t1.post (256 + e.val) (0x40 + imm.toNat) arg))

/-- YIELD (R119). -/
def execYield (e : Fin 128) (s : State) : Out :=
  .next (s.engGo e (engWord 0x3E 0 0 0) none (s.seq e) (fun t =>
      if t.visible e = [] then t.modEng e (fun x => { x with state := .sleeping, watchdog := 0 }) else t))

/-- HALT (R123, R144). -/
def execHalt (e : Fin 128) (s : State) : Out :=
  .next (let pc := (s.engines[e]).pc.toNat
    s.engGo e (engWord 0x3F 0 0 0) none pc (fun t =>
      (t.modEng e (fun x => { x with state := .halted })).post (256 + e.val) 2 pc))

/-- ILLEGAL_INSTRUCTION (R130): the word in X of a running engine is no instruction; it traps with ILLEGAL, after an uncorrectable fetch's ECC. -/
def execIllegalInstruction (e : Fin 128) (s : State) : Out :=
  .next (let x := s.engines[e]
    if !s.atWord e x.word || legalWord x.word then s
    else
      let s1 := s.correctFetch e
      match s1.firstTrap e (some (.inl 2)) 0 with
      | some c => s1.takeTrap e c
      | none => s1)

/-! ### Events of an engine (R118, R119, R124, R125) -/

/-- WATCHDOG_EXPIRY (R124): the count reaches ENG.BUDGET in the next cycle of a running engine: in a load-use stall, or in X, where another cause that the instruction
meets is recorded in its place, unless it does not get that far: it loses a table bank, or stalls on a full queue. -/
def execWatchdogExpiry (e : Fin 128) (s : State) : Out :=
  .next (let x := s.engines[e]
    let stall := x.loadUse
    let own : Option (Nat ⊕ (Nat × Nat)) := if legalWord x.word then s.ownTrap e else some (.inl 2)
    if !s.on (tileOfEng e).val || x.state != .running || decide (s.cycle < x.ready) then s
    else if stall ≠ 0 ∧ s.budgetReached e stall then s.spend e stall
    else if !x.inX s.cycle || !s.budgetReached e (1 + stall) then s
    else
      let s1 := s.correctFetch e
      if s.stalls e then (s1.bump (pEngCntStall e.val)).engStall e
      else match s1.firstTrap e own x.target with
        | some c => s1.takeTrap e c
        | none => s1.spend e (1 + stall))

/-- AUTOMATIC_RESTART (R120, R125): 16 cycles of the engine clock after a trap, while restarts are left. -/
def execAutomaticRestart (e : Fin 128) (s : State) : Out :=
  .next (let x := s.engines[e]
    if s.on (tileOfEng e).val ∧ x.state = .trapped ∧ x.restarts < s.rd (pEngAutorestart e.val) ∧ x.trapCycle + 16 ≤ s.cycle then
      (s.engBegin e (x.restarts + 1)).postLedger (256 + e.val) 5 (x.restarts + 1)
    else s)

/-- WAITT_WAKE (R118): NOW reaches the target of a waiting engine. -/
def execWaittWake (e : Fin 128) (lag : Fin 9) (s : State) : Out :=
  .next (let x := s.engines[e]
    if s.on (tileOfEng e).val ∧ x.state = .waiting ∧ s.reached x.waitTarget lag then s.setEng e { x with state := .running } else s)

/-- YIELD_WAKE (R101, R119): a word is visible in the queue of a sleeping engine, whose next instruction enters X 2 cycles later. -/
def execYieldWake (e : Fin 128) (s : State) : Out :=
  .next (let x := s.engines[e]
    if s.on (tileOfEng e).val ∧ x.state = .sleeping ∧ s.visible e ≠ [] then s.setEng e { x with state := .running, ready := s.cycle + 2 } else s)

end Sys2Proof.Machine
end

