-- ==== Sys2Proof/Machine/Memory.lean ====
section
/-! DEFINITION. The commands of the memory channels (spec/12), parameter writes apart. -/

namespace Sys2Proof.Machine

open Sys2Proof

/-- HIT_WRITE_SLOT (R271, R272, R274, R181): an H slot writes the oldest word of its port's hit write queue, or carries G traffic. -/
def execHitWriteSlot (m : Fin 4) (p : MemPort) (s : State) : Out :=
  .next (if !s.memServes m then s else
    match s.frontHit m p with
    | some h => s.writeHit m h
    | none => s.slotG m p 0)

/-- G_SLOT (R273–R280): a general slot serves the first waiting access; `flips` are the bits of its code word upset since it was last accessed. -/
def execGSlot (m : Fin 4) (p : MemPort) (flips : BitVec 72) (s : State) : Out :=
  .next (if !s.memServes m then s else s.slotG m p flips)

/-- MERGE_ENTRY_TIMEOUT (R282): 64 memory cycles pass with no write to the entry that was written least recently; it leaves. -/
def execMergeEntryTimeout (m : Fin 4) (s : State) : Out :=
  .next (match (s.mem.channels[m]).merge.foldl (fun (a : Option MergeEntry) e => match a with
      | some x => if e.last < x.last then some e else a
      | none => some e) none with
    | some e => s.leaveMerge e
    | none => s)

/-- NIGHT_WATCH_READ (R283, R284): a night watch read of a channel falls due: it waits at level 4 for a G slot, which acts on the word's class. `flips` are the
bits of its code word upset since it was last accessed. -/
def execNightWatchRead (m : Fin 4) (flips : BitVec 72) (s : State) : Out :=
  .next (let c := s.mem.channels[m]
    if !s.memServes m ∨ s.rd pMemScrubPeriod = 0 then s else
    let w := 4 * c.scrub + m.val
    let next := c.scrub + 1
    let done := 2 ^ (if c.density = 1 then 21 else 20) ≤ next
    let s1 := s.setChannel m { c with scrub := if done then 0 else next }
    let s2 := if done ∧ m = 0 then s1.wr pMemScrubPasses ((s1.rd pMemScrubPasses + 1) % 2 ^ 32) else s1
    (s2.setMem (s2.mem.upset w flips)).pushRead 4 w .night)

/-- MEM_TRAINING_DONE (R270, R289): a channel's training ends; the density is checked by an alias test, and once every channel is READY after a fault while armed the
free list is built again. -/
def execMemTrainingDone (m : Fin 4) (trained : Bool) (parts144 : Bool) (s : State) : Out :=
  .next (let c := s.mem.channels[m]
    if c.state ≠ .training then s
    else if !trained then s.memFault m 1
    else if parts144 ≠ decide (c.density = 1) then s.memFault m 2
    else
      let s1 := (s.setChannel m { c with state := .ready }).postLedger (400 + m.val) 7 c.freq
      if s1.porter.rebuild ∧ s1.memReady ∧ s1.on 20 then s1.buildFree else s1)

/-- The accesses of a port that a part may inhibit, with the reader that the log names (Table 12.7): the front hit write, the first general access, and where Aelko runs one of
its own or of a decompressor, to a word that only the read in progress knows. -/
def State.parityAccesses (s : State) (m : Fin 4) (p : MemPort) : List (Nat × Nat) :=
  let free := (Config.freeWord (s.free + 1)).toNat % 2 ^ (if (s.mem.channels[m]).density = 1 then 20 else 19)
  (match s.frontHit m p with
    | some h => [(8, s.hitWordNo h)]
    | none => []) ++
  (match s.frontAccess m p with
    | some a => [(a.level, a.word)]
    | none => []) ++
  (if s.aelkoRuns then [(5, 4 * (2 * free + (if p = .a then 0 else 1)) + m.val)] else [])

/-- ADDRESS_PARITY_ERROR (R281): a part has inhibited an access of a port, in a slot of either kind: which of those in progress is a free value (log entry 79). The
access is repeated, counted, logged and posted, and the 16th error within 1 ms faults the channel. -/
def execAddressParityError (m : Fin 4) (p : MemPort) (s : State) : Out :=
  .next (let c := s.mem.channels[m]
    let accesses := s.parityAccesses m p
    match accesses[(Config.freeWord s.free).toNat % accesses.length]? with
    | none => s
    | some (reader, w) =>
      if !s.memServes m ∨ c.ap ≠ 1 then s else
      let recent := (c.parity.filter (fun t => s.time.clock < t + 1024000)) ++ [s.time.clock]
      let seq := s.mram.logHead.toNat
      let s0 : State := { s with free := s.free + 2 }
      let s1 := (((s0.setChannel m { c with parity := recent }).bump (pMemCCntAp m.val)).logError 6 m.val reader 0 (8 * w) 0x7F).post (400 + m.val) 6 (seq % 0x10000)
      if 16 ≤ recent.length then s1.memFault m 3 else s1)

end Sys2Proof.Machine
end

