-- ==== Sys2Proof/Machine/Params.lean ====
section
/-! DEFINITION. The rows that are parameter writes with an effect of their own: each is the write of R326 with the row's origin. -/

namespace Sys2Proof.Machine

open Sys2Proof

/-- The command code a write's entry carries (Table 13.10): 0 for origins 0 and 1, and for the port window, whose writes are no commands (log entry 31). -/
def writeCommand (o : Origin) : Nat :=
  match o with
  | .hardware | .aelko | .enginePort => 0
  | _ => 0x0201

/-- A parameter write with an origin reaches Aelko (R291–R293, R326): it waits while Aelko does not run or has a batch in progress (R369), an origin without
privilege is DENIED, and `lastStatus` records how it completed. -/
def State.rowWrite (s : State) (o : Origin) (a v : Nat) : State :=
  if !s.aelkoFree then s
  else if !s.mayWrite o then
    let (st, s1) := s.denied o (writeCommand o) a 0
    { s1 with lastStatus := st }
  else
    let (st, _, s1) := s.paramWrite o (writeCommand o) 0 a v
    { s1 with lastStatus := st }

/-- CHAN_READMIT (R53): a write of 1 to CHAN.READMIT. -/
def execChanReadmit (o : Origin) (ch : Fin 256) (s : State) : Out := .next (s.rowWrite o (pChanReadmit ch.val) 1)

/-- CHAN_CONFIG_WRITE (R49, R51): a write to CHAN.THRESH, HYST, POLARITY or TERM. -/
def execChanConfigWrite (o : Origin) (ch : Fin 256) (item : ChanItem) (value : Word) (s : State) : Out :=
  let a := match item with
    | .thresh => pChanThresh ch.val
    | .hyst => pChanHyst ch.val
    | .polarity => pChanPolarity ch.val
    | .term => pChanTerm ch.val
  .next (s.rowWrite o a value.toNat)

/-- CHAN_MODE_ENABLE (R49, R51): a write of 1 or 2 to CHAN.MODE. -/
def execChanModeEnable (o : Origin) (ch : Fin 256) (digital : Bool) (s : State) : Out :=
  .next (s.rowWrite o (pChanMode ch.val) (1 + bit digital))

/-- CHAN_MODE_DISABLE (R49, R51): a write of 0 to CHAN.MODE. -/
def execChanModeDisable (o : Origin) (ch : Fin 256) (s : State) : Out := .next (s.rowWrite o (pChanMode ch.val) 0)

/-- REFIN_CAL (R60): a write of 1 to REFIN.CAL. -/
def execRefinCal (o : Origin) (n : Fin 4) (s : State) : Out := .next (s.rowWrite o (pRefinCal n.val) 1)

/-- REFIN_SETTING_WRITE (R61): a write to REFIN.MODE, PRESCALE or EDGE. -/
def execRefinSettingWrite (o : Origin) (n : Fin 4) (item : RefinItem) (value : Word) (s : State) : Out :=
  let a := match item with
    | .mode => pRefinMode n.val
    | .prescale => pRefinPrescale n.val
    | .edge => pRefinEdge n.val
  .next (s.rowWrite o a value.toNat)

/-- DM_CLEAR (R67): a write of 1 to REFIN.DM_CLEAR. -/
def execDmClear (o : Origin) (u : Fin 4) (s : State) : Out := .next (s.rowWrite o (pRefinDmClear u.val) 1)

/-- CO_ARM (R68): a write of 1 to REFIN.CO_ARM. -/
def execCoArm (o : Origin) (n : Fin 4) (s : State) : Out := .next (s.rowWrite o (pRefinCoArm n.val) 1)

/-- CO_CANCEL (R68): a write of 0 to REFIN.CO_ARM. -/
def execCoCancel (o : Origin) (n : Fin 4) (s : State) : Out := .next (s.rowWrite o (pRefinCoArm n.val) 0)

/-- CK_EN_ENABLE (R70): a write of 1 to REFIN.CK_EN. -/
def execCkEnEnable (o : Origin) (m : Fin 2) (s : State) : Out := .next (s.rowWrite o (pRefinCkEn m.val) 1)

/-- CK_EN_DISABLE (R70): a write of 0 to REFIN.CK_EN. -/
def execCkEnDisable (o : Origin) (m : Fin 2) (s : State) : Out := .next (s.rowWrite o (pRefinCkEn m.val) 0)

/-- PPS_EN (R71): a write to REFIN.PPS_EN. -/
def execPpsEn (o : Origin) (enable : Bool) (s : State) : Out := .next (s.rowWrite o pRefinPpsEn (bit enable))

/-- TIME_SOURCE_WRITE (R91): a write to TIME.SOURCE. -/
def execTimeSourceWrite (o : Origin) (master : Bool) (s : State) : Out := .next (s.rowWrite o pTimeSource (bit master))

/-- D_ASYM_WRITE (R93, R94): a write to TIME.D_ASYM. -/
def execDAsymWrite (o : Origin) (d : Fin 2) (value : Word) (s : State) : Out := .next (s.rowWrite o (pTimeDAsym d.val) value.toNat)

/-- ENG_START (R123): a write of 1 to ENG.RUN. -/
def execEngStart (o : Origin) (e : Fin 128) (s : State) : Out := .next (s.rowWrite o (pEngRun e.val) 1)

/-- ENG_STOP (R123): a write of 2 to ENG.RUN. -/
def execEngStop (o : Origin) (e : Fin 128) (s : State) : Out := .next (s.rowWrite o (pEngRun e.val) 2)

/-- ENG_PRIV_WRITE (R123): a write to ENG.PRIV. -/
def execEngPrivWrite (o : Origin) (e : Fin 128) (value : Word) (s : State) : Out := .next (s.rowWrite o (pEngPriv e.val) value.toNat)

/-- U_READMIT (R210): a write of 1 to CMP.U_READMIT. -/
def execUReadmit (o : Origin) (u : Fin 4) (s : State) : Out := .next (s.rowWrite o (pCmpUReadmit u.val) 1)

/-- PORT_DISABLE (R237): a write of 0 to PORT.P_ENABLE. -/
def execPortDisable (o : Origin) (p : Fin 18) (s : State) : Out := .next (s.rowWrite o (pPortPEnable p.val) 0)

/-- PORT_ENABLE (R261): a write of 1 to PORT.P_ENABLE. -/
def execPortEnable (o : Origin) (p : Fin 18) (s : State) : Out := .next (s.rowWrite o (pPortPEnable p.val) 1)

/-- DATA_PATH_WRITE (R233, R346): a write to PORT.DATA_PATH. -/
def execDataPathWrite (o : Origin) (spare : Bool) (s : State) : Out := .next (s.rowWrite o pPortDataPath (bit spare))

/-- LANE_RETRAIN (R252): a write of 1 to LANE.RETRAIN. -/
def execLaneRetrain (o : Origin) (lane : Fin 21) (s : State) : Out := .next (s.rowWrite o (pLaneRetrain lane.val) 1)

/-- MEM_RETRAIN (R270): a write of 1 to MEM.RETRAIN. -/
def execMemRetrain (o : Origin) (s : State) : Out := .next (s.rowWrite o pMemRetrain 1)

/-- S_READMIT (R362): a write of 1 to THERM.S_READMIT. -/
def execSReadmit (o : Origin) (sensor : Fin 17) (s : State) : Out := .next (s.rowWrite o (pThermSReadmit sensor.val) 1)

/-- HOLD_CAP_WRITE (R368): a write to PWR.HOLD_CAP; the capacitance in force is the smaller of it and the measured one. -/
def execHoldCapWrite (o : Origin) (value : Word) (s : State) : Out := .next (s.rowWrite o pPwrHoldCap value.toNat)

/-- PFE_MODE_WRITE (R376): a write to PFE.MODE. -/
def execPfeModeWrite (o : Origin) (value : Word) (s : State) : Out := .next (s.rowWrite o pPfeMode value.toNat)

/-- PFE_SELECT_WRITE (R376, R379): a write to PFE.SELECT. -/
def execPfeSelectWrite (o : Origin) (value : Word) (s : State) : Out := .next (s.rowWrite o pPfeSelect value.toNat)

/-- PFE_FILTER_WRITE (R379): a write to PFE.ORDER, DECIM or INTERLEAVE. -/
def execPfeFilterWrite (o : Origin) (item : FilterItem) (value : Word) (s : State) : Out :=
  let a := match item with
    | .order => pPfeOrder
    | .decim => pPfeDecim
    | .interleave => pPfeInterleave
  .next (s.rowWrite o a value.toNat)

/-- PFE_EXCITATION_WRITE (R379): a write to an excitation setting. -/
def execPfeExcitationWrite (o : Origin) (item : ExcItem) (value : Word) (s : State) : Out :=
  let a := match item with
    | .excAMode => pPfeExcAMode
    | .excAI => pPfeExcAI
    | .excBI => pPfeExcBI
    | .iExc input => pPfeIExc input.val
  .next (s.rowWrite o a value.toNat)

end Sys2Proof.Machine
end

