-- ==== Sys2Proof/Machine/Pfe.lean ====
section
/-! DEFINITION. The events of the precision front end (spec/17). -/

namespace Sys2Proof.Machine

open Sys2Proof

/-- PFE_WORD_END (R374, R375, R376, R378, R382): a filter word ends with the input at `u` × 10⁻¹² V; with interleaving the next is the other modulator's. During a
conversion its result is written, after which a burnout test may begin, a SINGLE conversion ends and a scan moves; a scan that is due to move does so after the test,
and a test that falls due while the other modulator has a word in progress begins when that word has ended (R379). -/
def execPfeWordEnd (u : Int) (s : State) : Out :=
  .next (if !s.on 32 ∨ !s.pfeWordRuns then s else
    let n := s.pfeSelected
    let inter := s.rd pPfeInterleave
    let s1 := (if s.pfe.converting then s.pfeResult u false else s).modPfe (fun p => { p with
      modulator := inter == 1 && !p.modulator, openWords := p.openWords - 1, unsettled := if p.delay then p.unsettled else p.unsettled - 1 })
    let due := s1.pfeTested n && (s.pfe.testDue || (s.pfe.converting && s1.pfeDue n))
    if due then
      (if s1.rd pPfeMode = 1 then s1.pfeAfter 0 else s1).modPfe (fun p =>
        if s.pfe.testDue ∨ inter = 0 then { p with testing := true, testDue := false } else { p with testDue := true })
    else if s.pfe.converting then s1.pfeAfter inter
    else s1)

/-- The differential voltage in 10⁻¹² V above which a burnout test finds its input open: +1.0 V (R382). -/
def burnoutOpen : Int := 1000000000000

/-- BURNOUT_TEST_END (R382): 200 µs into a test the input, at `u` × 10⁻¹² V, is judged; settling follows, and the move of a scan that the result before the test had
completed. -/
def execBurnoutTestEnd (u : Int) (s : State) : Out :=
  .next (if !s.on 32 ∨ !s.pfe.testing then s else
    let n := s.pfeSelected
    let above := decide (burnoutOpen < u)
    let was := (s.pfe.inputs[n]).isOpen
    let s1 := (s.modPfe (fun p => { p with testing := false })).modInput n (fun i => { i with isOpen := above, count := i.count - s.rd (pPfeIBurnout n.val) })
    let s2 := if above ∧ !was then (s1.bump pPfeCntOpen).post 458 1 n.val else if was ∧ !above then s1.post 458 2 n.val else s1
    let s3 := s2.pfeChange (s2.rd (pPfeISettle n.val)) true
    if s3.rd pPfeMode = 3 then s3.pfeAfter 0 else s3)

/-- PFE_DELAY_END (R375, R379): the latest of the delays running ends, and the filter restarts; a word that a trip has met completes with OPEN all the same (R381). -/
def execPfeDelayEnd (s : State) : Out :=
  .next (if s.on 32 ∧ s.pfe.delay then
    s.modPfe (fun p => { p with delay := false, delayStops := false, unsettled := s.pfeUnsettle, modulator := false })
  else s)

/-- EXCITATION_TRIP (R381): a driven excitation's compliance detector trips; the word in progress completes with OPEN. -/
def execExcitationTrip (excB : Bool) (s : State) : Out :=
  .next (let tripped := if excB then s.pfe.tripB else s.pfe.tripA
    if !s.on 32 ∨ tripped ∨ !s.pfeDrives excB then s else
    let s1 := (s.modPfe (fun p => { p with
      tripA := p.tripA || !excB, tripB := p.tripB || excB
      openWords := if s.pfeWordRuns then 1 + s.rd pPfeInterleave else p.openWords })).bump pPfeCntOpen
    let current : Bool := excB || s.rd pPfeExcAMode == 1
    (s1.post (460 + bit excB) 1 (if current then 1 else 2)).post 458 1 (s.pfeSelected.val + 256))

/-- EXCITATION_RELEASE (R381): the detector has been released for 1 ms, which is an excitation change. -/
def execExcitationRelease (excB : Bool) (s : State) : Out :=
  .next (let tripped := if excB then s.pfe.tripB else s.pfe.tripA
    if !s.on 32 ∨ !tripped then s else
    let s1 := (s.modPfe (fun p => { p with tripA := p.tripA && excB, tripB := p.tripB && !excB })).post 458 2 s.pfeSelected.val
    if s1.pfeUses s1.pfeSelected excB then s1.pfeExcChange else s1)

/-- DAC_LOOP_UPDATE (R385): a new valid temperature, which is taken once, updates the code of a DAC in mode 2. -/
def execDacLoopUpdate (d : Fin 8) (s : State) : Out :=
  .next (if !s.on 32 ∨ s.rd (pPfeDMode d.val) ≠ 2 ∨ !s.aelkoRuns ∨ !s.dacDue d then s else
    match s.dacTemp d with
    | none => s
    | some (num, den) => s.dacStep d num den)

/-- DAC_TEMPERATURE_TIMEOUT (R385): no valid temperature for 10 s; the code holds. -/
def execDacTemperatureTimeout (d : Fin 8) (s : State) : Out :=
  .next (let x := s.pfe.dacs[d]
    if !s.on 32 ∨ s.rd (pPfeDMode d.val) ≠ 2 ∨ x.hold ∨ s.time.clock < x.lastTemp + 10240000000 then s
    else ((s.modDac d (fun y => { y with hold := true })).post 463 2 d.val).ledgerEvent 1 463 2 d.val)

end Sys2Proof.Machine
end

