-- ==== Sys2Proof/Machine/TimeCmds.lean ====
section
/-! DEFINITION. The time, memory and ledger commands (spec/14, Tables 14.11–14.13; R92, R93, R286, R310, R330, R331). -/

namespace Sys2Proof.Machine

open Sys2Proof

/-! ### Time -/

/-- TIME_STATUS (0x0501). -/
def execTimeStatus (mb : Fin 8) (s : State) : Out :=
  s.runCmd mb .timeStatus (fun _ =>
    (.ok, natLe 8 s.now.toNat ++ natLe 2 s.time.fine.toNat ++ natLe 2 s.timeState ++ natLe 8 s.rate64 ++ natLe 4 (s.rd pTimeSteps) ++
      (List.finRange 2).flatMap (fun d =>
        let x := s.time.domains[d]
        natLe 4 (s.domainFlags d) ++ natLe 4 (unsigned 32 (clamp (-2147483648) 2147483647 x.offset)) ++ natLe 8 (unsigned 64 x.mpd) ++
          natLe 4 (s.rd (pTimeDAsym d.val)) ++ natLe 4 (unsigned 32 x.proposal)), s))

/-- TIME_SWITCH (0x0502, R90, R330). -/
def execTimeSwitch (mb : Fin 8) (domain : Byte) (s : State) : Out :=
  s.runCmd mb (.timeSwitch domain) (fun f =>
    match idx? 2 domain.toNat with
    | none => failed s .badarg
    | some d =>
      if s.time.active = d ∨ !s.healthy d then failed s .denied
      else s.committed [s.cmdEntry f 5 0 s.time.active.val d.val] (fun t => (.ok, [], t.switchDomain d false)))

/-- A milestone that lies at least 2 milestones ahead of the command's receipt (R92, Table 14.11), which is taken as the moment Aelko executes it (log entry 76). -/
def State.twoAhead (s : State) (m : DWord) : Bool := decide (0x200000 ≤ (m - s.now).toInt)

/-- TIME_RESTEP (0x0503, R92): mode 1 GIVEN, 2 ADOPT. -/
def execTimeRestep (mb : Fin 8) (milestone : DWord) (mode domain : Byte) (delta : DWord) (s : State) : Out :=
  s.runCmd mb (.timeRestep milestone mode domain delta) (fun f =>
    match idx? 2 domain.toNat with
    | none => failed s .badarg
    | some d =>
      if (mode ≠ 1 ∧ mode ≠ 2) ∨ (mode = 2 ∧ delta ≠ 0) ∨ !isMilestone milestone ∨ !s.twoAhead milestone then failed s .badarg
      else if s.time.restep.isSome ∨ !s.on 30 then failed s .denied
      else s.committed [(s.cmdEntry f 10 (milestoneObject milestone) mode.toNat d.val).at milestone] (fun t =>
        (.ok, [], t.setTime { t.time with restep := some ⟨milestone, mode == 2, d, delta.toInt, f.origin, f.tag⟩ })))

/-- TIME_ASYM_CONFIRM (0x0504, R93): the proposal is written into TIME.D_ASYM. -/
def execTimeAsymConfirm (mb : Fin 8) (domain : Byte) (s : State) : Out :=
  s.runCmd mb (.timeAsymConfirm domain) (fun f =>
    match idx? 2 domain.toNat with
    | none => failed s .badarg
    | some d =>
      let x := s.time.domains[d]
      let a := pTimeDAsym d.val
      let new := unsigned 32 x.proposal
      if !x.proposalValid then failed s .denied
      else s.committed [s.cmdEntry f 1 a (s.rd a) new] (fun t =>
        (.ok, natLe 4 new, (t.wr a new).asymWritten d (signed 32 (t.rd a)) (signed 32 new) true 1)))

/-- TIME_RESTEP_CANCEL (0x0505, R330). -/
def execTimeRestepCancel (mb : Fin 8) (s : State) : Out :=
  s.runCmd mb .timeRestepCancel (fun f =>
    match s.time.restep with
    | none => failed s .denied
    | some r =>
      if !s.twoAhead r.milestone then failed s .denied
      else s.committed [s.cmdEntry f 10 (milestoneObject r.milestone) 1 0] (fun t =>
        (.ok, natLe 8 r.milestone.toNat, t.setTime { t.time with restep := none })))

/-! ### Memory and errors -/

/-- MEM_LOG_READ (0x0601, R285, R331): the entries that MRAM holds. -/
def execMemLogRead (mb : Fin 8) (first : Word) (entries : Byte) (s : State) : Out :=
  s.runCmd mb (.memLogRead first entries) (fun _ =>
    if entries = 0 ∨ 15 < entries.toNat then failed s .badarg
    else
      let r := ringFrom s.mram.log ((s.mram.log.head?.map (fun e => e.seq + 1)).getD 0) first entries.toNat
      (.ok, natLe 4 r.1.toNat ++ r.2.flatMap (fun e => e.bytes), s))

/-- Whether a retirement entry is one of Table 12.8. -/
def retireOk (e : Word) : Bool :=
  let x := e.toNat
  let n := x % 2 ^ 18
  let kind := x / 2 ^ 30
  x / 2 ^ 18 % 2 ^ 12 == 0 && (kind == 0 || (kind == 1 && decide (n ≤ 2047)) || (kind == 2 && decide (n ≤ 65535)))

/-- MEM_RETIRE (0x0602, R286, R331): the entries are appended to the map in one batch, the words of the new entries first and the two of the header, with the new
count and CRC-32C, last (log entry 26). -/
def execMemRetire (mb : Fin 8) (entries : List Word) (s : State) : Out :=
  s.runCmd mb (.memRetire entries) (fun f =>
    let old := retireEntries s.mram.retirement
    let count := old.length
    let map := retireImage (old ++ entries)
    let words := (16 + 4 * (count + entries.length) + 7) / 8 - (16 + 4 * count) / 8
    let part (k : Nat) (t : State) : State := t.modMram (fun m => { m with retirement := tornMap m.retirement map ((16 + 4 * count) / 8 + k) })
    if !entries.all retireOk then failed s .badarg
    else if 16380 < count + entries.length then failed s .denied
    else s.withBatch (words + 2) part (entries.zipIdx.map (fun e => s.cmdEntry f 7 e.1.toNat 0 (count + e.2))) (fun t =>
      (.ok, natLe 4 (count + entries.length), t.modMram (fun m => { m with retirement := map }))))

/-- MEM_RETIRE_READ (0x0603): the entries of the map from an index on. -/
def execMemRetireRead (mb : Fin 8) (first : Word) (entries : Byte) (s : State) : Out :=
  s.runCmd mb (.memRetireRead first entries) (fun _ =>
    if entries = 0 ∨ 120 < entries.toNat then failed s .badarg
    else
      let es := retireEntries s.mram.retirement
      (.ok, natLe 4 es.length ++ ((es.drop first.toNat).take entries.toNat).flatMap (fun e => natLe 4 e.toNat), s))

/-- MEM_READ (0x0604): device data addresses of R268. -/
def execMemRead (mb : Fin 8) (addr : Word) (length : Half) (s : State) : Out :=
  s.runCmd mb (.memRead addr length) (fun _ =>
    let a := addr.toNat
    let n := length.toNat
    if a % 8 ≠ 0 ∨ n % 8 ≠ 0 ∨ n = 0 ∨ 480 < n ∨ 0x4000000 < a + n ∨ s.dataFit < a + n then failed s .badarg
    else s.memReply a n)

/-! ### Ledger -/

/-- A ledger entry as LEDGER_READ returns it: bit [7] of the origin byte says that its CRC-16 failed (Table 14.13). -/
def LedgerEntry.readBytes (e : LedgerEntry) : List Byte := if e.crcOk then e.bytes else e.bytes.set 12 (BitVec.ofNat 8 (e.origin % 128 + 128))

/-- LEDGER_READ (0x0701, R310, R331): BAD_ENTRY is posted for each entry returned that fails its CRC-16. -/
def execLedgerRead (mb : Fin 8) (first : Word) (entries : Byte) (s : State) : Out :=
  s.runCmd mb (.ledgerRead first entries) (fun _ =>
    if entries = 0 ∨ 15 < entries.toNat then failed s .badarg
    else
      let r := ringFrom s.mram.ring s.mram.ledgerHead first entries.toNat
      (.ok, natLe 4 r.1.toNat ++ r.2.flatMap LedgerEntry.readBytes,
        (r.2.filter (fun e => !e.crcOk)).foldl (fun (t : State) e => t.post 493 2 (e.seq.toNat % 0x10000)) s))

/-- LEDGER_NOTE (0x0702). -/
def execLedgerNote (mb : Fin 8) (object old new : Word) (s : State) : Out :=
  s.runCmd mb (.ledgerNote object old new) (fun f =>
    s.committed [s.cmdEntry f 10 object.toNat old.toNat new.toNat] (fun t => (.ok, natLe 4 s.mram.ledgerHead.toNat, t)))

end Sys2Proof.Machine
end

