-- ==== Sys2Proof/Machine/PwrCmds.lean ====
section
/-! DEFINITION. The power, thermal, lane, port and front-end commands (spec/14, Tables 14.14 and 14.15; R332, R352, R365, R377, R384). -/

namespace Sys2Proof.Machine

open Sys2Proof

/-! ### Power and thermal -/

/-- The domains that a domain's power lets be on: those that need it (Table 16.1). -/
def dependents (d : Nat) : List Nat := (List.range 36).filter (fun x => domainNeeds x == some d)

/-- Whether the switching rules allow a set of domains to switch (R332, R352, R365). -/
def State.switchAllowed (s : State) (ds : List Nat) (on : Bool) : Bool :=
  let armed := s.acq.state != .disarmed
  let hot := decide (s.limit pThermTCrit - 160 ≤ s.hottest.1)
  !ds.contains 29 && !ds.contains 33 && (!ds.contains 28 || s.keeper.fenced) &&
    (if on then
      ds.all (fun d => match domainNeeds d with
        | some n => s.on n || ds.contains n
        | none => true) && !(hot && ds.any (fun d => !s.on d && criticalDomains.contains d))
    else
      ds.all (fun d => (dependents d).all (fun x => !s.on x || ds.contains x)) &&
        !(armed && ds.any (fun d => decide (16 ≤ d ∧ d ≤ 20))))

/-- Once PD28 has been switched off, by the fence or by command, and on again behind the fence, the state is PAIR_CYCLED (R342). -/
def State.noteCycled (s : State) (ds : List Nat) (on : Bool) : State :=
  if on && ds.contains 28 && s.keeper.spare == .spareActive then s.modKeeper (fun k => { k with spare := .pairCycled, cycled := true }) else s

/-- PWR_DOMAIN (0x0801, R332): ascending on, descending off; a domain already in the state asked for is left as it is. With the timebase off a switch-off of R365 that
waits for a milestone comes at once. -/
def execPwrDomain (mb : Fin 8) (mask : DWord) (on : Byte) (s : State) : Out :=
  s.runCmd mb (.pwrDomain mask on) (fun f =>
    let ds := bitsOf mask.toNat 36
    let up := on == 1
    if mask = 0 ∨ 2 ^ 36 ≤ mask.toNat ∨ 1 < on.toNat then failed s .badarg
    else if !s.switchAllowed ds up then failed s .denied
    else
      let go := (if up then ds else ds.reverse).filter (fun d => s.on d != up)
      s.committed (go.map (fun d => s.powerEntry f.origin.code f.code.toNat f.tag.toNat d up)) (fun t =>
        let v := (if up then t.switchOn go else t.switchOff 1 go).noteCycled go up
        let u := if v.on 30 then v else v.criticalOffNow
        (.ok, natLe 8 u.power.domains.toNat, u)))

/-- PWR_STATUS (0x0802). -/
def execPwrStatus (mb : Fin 8) (s : State) : Out :=
  s.runCmd mb .pwrStatus (fun _ =>
    (.ok, natLe 8 s.power.domains.toNat ++ natLe 4 s.power.hold ++ natLe 4 (s.power.cMeas.getD 0) ++ natLe 4 s.energyMicro, s))

/-- THERM_STATUS (0x0803). -/
def execThermStatus (mb : Fin 8) (s : State) : Out :=
  s.runCmd mb .thermStatus (fun _ =>
    (.ok, (List.finRange 17).flatMap (fun n => natLe 2 (unsigned 16 (s.sensorTemp n))) ++ natLe 2 0 ++ natLe 4 s.brokenMask ++
      natLe 4 s.therm.state.code, s))

/-! ### Lanes and ports -/

/-- Five items of one instance as 32-bit words. -/
def State.fiveItems (s : State) (cls first inst : Nat) : List Byte :=
  (List.range 5).flatMap (fun i => natLe 4 (s.peekParam (pAddr cls (first + i) inst)))

/-- LANE_STATUS (0x0901): LANE.STATE, RUNG, EQ, PRBS_ERRORS and SKEW. -/
def execLaneStatus (mb : Fin 8) (lane : Byte) (s : State) : Out :=
  s.runCmd mb (.laneStatus lane) (fun _ => if 20 < lane.toNat then failed s .badarg else (.ok, s.fiveItems 10 0x010 lane.toNat, s))

/-- PORT_STATUS (0x0902): PORT.P_STATE, P_PARTNER, P_LAST_INC, P_CREDIT and P_LANTERN of a port in service. -/
def execPortStatus (mb : Fin 8) (port : Byte) (s : State) : Out :=
  s.runCmd mb (.portStatus port) (fun _ =>
    match idx? 18 port.toNat with
    | none => failed s .badarg
    | some p => if !s.inService p then failed s .badarg else (.ok, s.fiveItems 11 0x010 p.val, s))

/-! ### Precision front end -/

/-- PFE_START (0x0A01, R377). -/
def execPfeStart (mb : Fin 8) (flags : Byte) (s : State) : Out :=
  s.runCmd mb (.pfeStart flags) (fun _ =>
    if 1 < flags.toNat then failed s .badarg
    else
      let r := s.pfeStart (flags == 1)
      (r.1, if r.1 = .ok then natLe 4 r.2.pfe.seq.toNat else [], r.2))

/-- PFE_RESULT (0x0A02, R378): the read takes the result and clears OVERRUN. -/
def execPfeResult (mb : Fin 8) (s : State) : Out :=
  s.runCmd mb .pfeResult (fun _ =>
    (.ok, natLe 4 s.pfe.result.toNat ++ natLe 4 s.pfe.eng.toNat ++ natLe 4 (bit s.pfe.overrun),
      s.pfeRead.modPfe (fun p => { p with overrun := false })))

/-- Whether a binary32 number is a NaN or an infinity. -/
def notFinite (w : Word) : Bool := field w.toNat 30 23 == 255

/-- The record of an input's coefficients (R384). -/
def coefRecord (cs : List Word) : List Byte := withCrc32c (coefBytes cs)

/-- The bytes of a record in MRAM (R384; log entry 8). -/
def Mram.coefSlot (m : Mram) (n : Nat) : List Byte := (sfind n m.coefs).getD ((List.range 52).map (fun i => Config.mramByte (0x3E4000 + 52 * n + i)))

/-- PFE_COEF_WRITE (0x0A03, R384): the chip and the MRAM record in one batch. -/
def execPfeCoefWrite (mb : Fin 8) (input : Byte) (coefs : List Word) (s : State) : Out :=
  s.runCmd mb (.pfeCoefWrite input coefs) (fun f =>
    match idx? 32 input.toNat with
    | none => failed s .badarg
    | some n =>
      let before := (crc32c (coefBytes (s.pfe.inputs[n]).coefs)).toNat
      let after := (crc32c (coefBytes coefs)).toNat
      if coefs.any notFinite then failed s .badarg
      else s.withBatch 7 (fun k t => t.modMram (fun m => { m with coefs := sset n.val (patch k (m.coefSlot n.val) (coefRecord coefs)) m.coefs }))
          [s.cmdEntry f 10 n.val before after] (fun t =>
        let u := t.modMram (fun m => { m with coefs := sset n.val (coefRecord coefs) m.coefs })
        (.ok, natLe 4 after, if u.on 32 then u.modInput n (fun x => { x with coefs := coefs, valid := true }) else u)))

/-- PFE_COEF_READ (0x0A04). -/
def execPfeCoefRead (mb : Fin 8) (input : Byte) (s : State) : Out :=
  s.runCmd mb (.pfeCoefRead input) (fun _ =>
    match idx? 32 input.toNat with
    | none => failed s .badarg
    | some n => (.ok, coefBytes (s.pfe.inputs[n]).coefs, s))

end Sys2Proof.Machine
end

