-- ==== Sys2Proof/Machine/RedCmds.lean ====
section
/-! DEFINITION. The redundancy commands (spec/14, Table 14.16; R333, R334, R342–R345). -/

namespace Sys2Proof.Machine

open Sys2Proof

/-- RED_STATUS (0x0B01). -/
def execRedStatus (mb : Fin 8) (s : State) : Out :=
  s.runCmd mb .redStatus (fun _ =>
    (.ok, natLe 1 (bit s.onSpare) ++ natLe 1 (bit s.keeper.fenced + 2 * bit s.keeper.cycled) ++ natLe 2 0 ++ natLe 4 s.ckptAge ++
      natLe 4 s.mram.checkpointSeq.toNat ++ (match s.keeper.report with
        | some r => r.bytes
        | none => List.replicate 32 0), s))

/-- RED_CHECKPOINT (0x0B02, R334). -/
def execRedCheckpoint (mb : Fin 8) (s : State) : Out :=
  s.runCmd mb .redCheckpoint (fun f =>
    let count := s.mram.checkpointSeq + 1
    s.withBatch 8192 (fun _ t => t.modMram (fun m => m.putCheckpoint { s.takeCheckpoint with valid := false })) [s.cmdEntry f 10 0x200000 0 count.toNat] (fun t => (.ok, natLe 4 count.toNat, t.storeCheckpoint t.takeCheckpoint)))

/-- The steps of R343 after the checkpoint: the FAILOVER entry, then HANDOVER with the fence open; false when the entry is deferred. -/
def State.handover (s : State) (mb : Fin 8) (f : InFlight) : Bool × State :=
  match s.commitAll [s.cmdEntry f 6 3 SpareState.pairCycled.code SpareState.pair.code] with
  | (false, t) => (false, t)
  | (true, t) =>
    let u := t.abandonCals.modFd (fun d => { d with aelkoReady := false })
    (true, u.modKeeper (fun k => { k with spare := .handover, fenced := false, bootFrom := .pairCycled, switching := some (mb, f) }))

/-- RED_READMIT (0x0B03, R343): the reply comes from Aelko on the pair. With PD28 off, where PWR_DOMAIN left it, no pair can boot (log entry 52). -/
def execRedReadmit (mb : Fin 8) (s : State) : Out :=
  .next (match s.starts mb .redReadmit with
    | none => s
    | some f =>
      if s.keeper.spare ≠ .pairCycled ∨ !s.keeper.fenced ∨ !s.on 28 then s.finish mb f .denied 0 []
      else match s.checkpointNow with
        | (false, t) => t.finish mb f .deferred 0 []
        | (true, t) => match t.handover mb f with
          | (true, u) => u
          | (false, u) => u.finish mb f .deferred 0 [])

/-- RED_SWITCH (0x0B04, R333): the pair is fenced as by a mismatch, after its FAILOVER entry; the reply comes from Aelko on the spare. -/
def execRedSwitch (mb : Fin 8) (key : Word) (s : State) : Out :=
  .next (match s.starts mb (.redSwitch key) with
    | none => s
    | some f =>
      if key ≠ 0x53574954#32 then s.finish mb f .badarg 0 []
      else if (s.keeper.spare ≠ .pair ∧ s.keeper.spare ≠ .selftest) ∨ s.keeper.selftestFailed then s.finish mb f .denied 0 []
      else match s.commitAll [s.cmdEntry f 6 1 s.keeper.spare.code SpareState.spareActive.code] with
        | (false, t) => t.finish mb f .deferred 0 []
        | (true, t) => (t.modKeeper (fun k => { k with switching := some (mb, f) })).fencePair)

/-- RED_SELFTEST (0x0B05, R344): the report is the reply, at the run's end. A run that thermal throttling postpones begins when throttling ends; the command
completes TIMEOUT once its 200 ms have passed (log entry 40). -/
def execRedSelftest (mb : Fin 8) (s : State) : Out :=
  .next (match s.starts mb .redSelftest with
    | none => s
    | some f =>
      if s.keeper.spare ≠ .pair then s.finish mb f .denied 0 []
      else
        let s1 := s.modKeeper (fun k => { k with selftestMb := some mb, selftestAsked := s.time.clock })
        if s.throttled then s1.modKeeper (fun k => { k with selftestWaits := some true }) else s1.startSelftest true)

end Sys2Proof.Machine
end

