-- ==== Sys2Proof/Machine/Redundancy.lean ====
section
/-! DEFINITION. The rows of redundancy and failover (spec/15). -/

namespace Sys2Proof.Machine

open Sys2Proof

/-- The pair mismatches (R336, R343): it is fenced with MISMATCH and the spare boots; a fenced pair has nothing left to lose. `row` is the word that both cores
read uncorrectable, for cause 4. -/
def State.mismatch (s : State) (cause row : Nat) : State :=
  match s.keeper.spare with
  | .pair | .selftest | .handover => if cause = 0 ∨ !s.on 28 then s else ((if cause = 4 then s.onchipUe 272 row else s).post 494 1 cause).fencePair
  | _ => s

/-- LOCKSTEP_MISMATCH (R336, R343). -/
def execLockstepMismatch (cause : Fin 5) (s : State) : Out := .next (s.mismatch cause.val 0)

/-- Whether the spare's boot follows a RED_SWITCH, whose FAILOVER entry has been committed (R333). -/
def State.switched (s : State) : Bool :=
  match s.keeper.switching with
  | some (_, c) => c.code == 0x0B04
  | none => false

/-- SPARE_BOOT_COMPLETE (R300, R333, R339–R341, R343, R354): Aelko runs on the spare, or the state becomes NONE when neither boot bank passes its check. The reply of
RED_SWITCH is owed by this core; a RED_READMIT whose pair failed completes RESTARTED with the other BUSY mailboxes. -/
def execSpareBootComplete (bank0Ok bank1Ok : Bool) (s : State) : Out :=
  let boots : Bool := (s.keeper.spare == .spareActive || s.keeper.spare == .pairCycled) && !s.fd.aelkoReady && s.on 29 && !s.power.poreset
  .next (if !boots then s
    else match s.bootFrom (fun b => (if b = 0 then bank0Ok else bank1Ok) && bootImageOk s.mram.bootImages[b]) with
      | (none, s1) => s1.modKeeper (fun k => { k with spare := .none })
      | (some bank, s1) =>
        let s2 := s1.bump pSpareCntFailovers
        let s3 := if s2.fd.stage < 4 then (s2.startAelko bank).stage4 else ((s2.runImage bank).loadPositions.replay).modFd (fun f => { f with aelkoReady := true })
        let s4 := if s.switched then s3
          else (s3.ledgerLater (s3.entry 0 6 0 1 s.keeper.bootFrom.code s.keeper.spare.code 0)).modKeeper (fun k => { k with switching := none })
        ((s4.restartBusy).post 496 1 s.keeper.spare.code).replySwitch .ok)

/-- PAIR_BOOT_COMPLETE (R343): steps 5 to 8 of Table 15.2 on the pair, whose FAILOVER entry has been committed: Aelko runs on the pair again, INNKEEPER and READMITTED
are posted (log entry 52), and the spare is cold. -/
def execPairBootComplete (s : State) : Out :=
  .next (if s.keeper.spare ≠ .handover ∨ !s.on 28 ∨ s.power.poreset then s
    else match s.bootFrom (fun b => bootImageOk s.mram.bootImages[b]) with
      | (none, s1) => s1.modKeeper (fun k => { k with spare := .none })
      | (some bank, s1) =>
        let s2 := ((s1.runImage bank).spareOff.modKeeper (fun k => { k with spare := .pair, fenced := false, cycled := false })).loadPositions.replay
        (((s2.modFd (fun f => { f with aelkoReady := true })).restartBusy.post 496 1 SpareState.pair.code).post 496 3 0).replySwitch .ok)

/-- CHECKPOINT_DUE (R338): a checkpoint is queued once its period has passed or 4,096 ledger entries have been committed since the last. -/
def execCheckpointDue (s : State) : Out :=
  let due : Bool := decide (s.rd pSpareCkptPeriod * secondTicks ≤ s.time.clock - s.keeper.ckptAt) || decide (4096 ≤ s.keeper.ckptCommitted)
  let queued : Bool := (s.mram.waiting ++ s.mram.running.toList).any (fun b => match b with
    | .checkpoint _ => true
    | _ => false)
  .next (if !s.aelkoRuns ∨ !due ∨ queued then s
    else (s.modMram (fun m => { m with waiting := m.waiting ++ [.checkpoint s.takeCheckpoint] })).modKeeper (fun k => { k with ckptAt := s.time.clock }))

/-- The running spare is reset alone and boots again; at the third reset within 3,600 s it halts and the state is NONE (R341). -/
def State.spareReset (s : State) : State :=
  if !(s.keeper.spare == .spareActive || s.keeper.spare == .pairCycled) ∨ !s.on 29 ∨ s.power.poreset then s
  else
    let recent := (s.time.clock :: s.keeper.spareResets).filter (fun t => decide (s.time.clock - t ≤ 3600 * secondTicks))
    let s0 : State := { s with onchip := s.onchip.filter (fun w => w.memory ≠ 273) }
    let s1 := (s0.abandonCals.modFd (fun f => { f with aelkoReady := false })).modKeeper (fun k =>
      { k with spareResets := recent, bootFrom := k.spare, spare := if 3 ≤ recent.length then .none else k.spare })
    (s1.bump pSpareCntSpareResets).postLedger 496 4 recent.length

/-- SPARE_WATCHDOG_EXPIRY (R341). -/
def execSpareWatchdogExpiry (s : State) : Out := .next s.spareReset

/-- The running spare reads an uncorrectable word in its local memory (R288, R341). -/
def State.spareUe (s : State) (row : Nat) : State :=
  if !(s.keeper.spare == .spareActive || s.keeper.spare == .pairCycled) ∨ !s.on 29 ∨ s.power.poreset then s else (s.onchipUe 273 row).spareReset

/-- SPARE_MEMORY_UNCORRECTABLE (R288, R341). -/
def execSpareMemoryUncorrectable (s : State) : Out := .next (s.spareUe 0)

/-- FENCE_HIT (R342): an attempt of the fenced pair to reach a bus is blocked and counted. -/
def execFenceHit (s : State) : Out :=
  .next (if s.keeper.fenced ∧ s.on 28 then s.bumpPostCount pSpareCntFenceHits 494 2 else s)

/-- Whether the period of the spare's self-test has passed (R344). -/
def State.selftestDue (s : State) : Bool :=
  s.rd pSpareSelftestPeriod != 0 && decide (s.rd pSpareSelftestPeriod * secondTicks ≤ s.time.clock - s.keeper.selftestAt)

/-- SELFTEST_PERIOD_EXPIRY (R344): the spare's self-test begins; it waits while thermal throttling is active. -/
def execSelftestPeriodExpiry (s : State) : Out :=
  .next (if s.keeper.spare ≠ .pair ∨ !s.aelkoRuns ∨ !s.selftestDue then s
    else if s.throttled then s.modKeeper (fun k => { k with selftestWaits := some (s.keeper.selftestWaits.getD false) })
    else s.startSelftest false)

/-- The failed tests of a run (Table 15.4): the boot image of the bank in use and the latest checkpoint are those that MRAM holds, the others what the run found;
with no valid checkpoint there is none to test (log entry 40). -/
def State.selftestFailed (s : State) (found : BitVec 7) : BitVec 7 :=
  (found &&& 0b1110011) ||| (if bootImageOk s.mram.bootImages[bankIdx s.mram.bootBank] then 0 else 0b100)

/-- SELFTEST_COMPLETE (R344, R345): the report is kept, its outcome posted, PD29 switches off, and a RED_SELFTEST that waits for it completes, TIMEOUT
after more than 200 ms. -/
def execSelftestComplete (found : BitVec 7) (micros : Word) (temperature corrected : Half) (s : State) : Out :=
  .next (match s.keeper.spare, s.keeper.selftestRunning with
    | .selftest, some (byCommand, start) =>
      let failed := s.selftestFailed found
      let r : HealthReport :=
        { byCommand := byCommand, seq := s.keeper.reportSeq + 1, tick := start, micros := micros, failed := failed, temperature := temperature,
          corrected := corrected, bank := s.mram.bootBank }
      let s1 := s.modKeeper (fun k => { k with
        report := some r, reportSeq := r.seq, spare := .pair, selftestRunning := none, selftestFailed := failed != 0, selftestMb := none })
      let s2 := if failed = 0 then s1.post 495 1 (r.seq.toNat % 0x10000) else (s1.bump pSpareCntSelftestFail).post 495 2 failed.toNat
      let s3 := s2.spareOff
      match s.keeper.selftestMb with
      | none => s3
      | some mb => match s3.keeper.inFlight[mb] with
        | none => s3
        | some c =>
          let done : State := s3.modKeeper (fun k => { k with inFlight := vput k.inFlight mb none })
          if 200000 < micros.toNat then done.reply mb c.code c.tag .timeout 0 [] else done.reply mb c.code c.tag .ok 0 r.bytes
    | _, _ => s)

/-- Whether the link that carries the data path has been out of ADMITTED for SPARE.DP_HOLD ms (R346). -/
def State.dpHeld (s : State) : Bool :=
  decide ((s.ports[s.dataPort]).state ≠ .admitted) && decide (s.rd pSpareDpHold * 1024000 ≤ s.time.clock - s.keeper.dpUpAt)

/-- DATA_PATH_HOLD_EXPIRY (R346, R347): the data path has been out of ADMITTED for SPARE.DP_HOLD and moves to the other link, if that is STANDBY and the
last automatic move lies 1 s back. -/
def execDataPathHoldExpiry (s : State) : Out :=
  .next (if s.rd pSpareDpAuto ≠ 1 ∨ !s.dpHeld ∨ s.power.poreset then s
    else
      let since := s.keeper.dpMovedAt.map (fun t => s.time.clock - t)
      if (s.ports[s.otherPort]).state ≠ .standby then
        if s.keeper.noStandby then s
        else (s.modKeeper (fun k => { k with noStandby := true })).postLedger 496 6 (s.ports[s.otherPort]).state.code
      else if since.any (fun d => decide (d < secondTicks)) then s.postLedger 496 5 (Nat.min ((since.getD 0) / 1024000) 0xFFFF)
      else
        let old := s.rd pPortDataPath
        let s1 := (s.moveDataPath (1 - old)).modKeeper (fun k => { k with dpMovedAt := some s.time.clock })
        (s1.ledgerLater (s1.entry 0 6 0 2 old (1 - old) 0)).post 496 2 (1 - old))

end Sys2Proof.Machine
end

