-- ==== Sys2Proof/Machine/Startup.lean ====
section
/-! DEFINITION. The rows of power, reset, hold-up and MRAM batches (spec/11, 14, 16). -/

namespace Sys2Proof.Machine

open Sys2Proof

/-! ### Resets and the cold start (R293, R321, R354–R356) -/

/-- PORESET_ASSERT (R303, R355): everything is reset, the always-on domain included, with reset cause 1. -/
def execPoresetAssert (s : State) : Out := .next ((s.inReset 1 false).modFd (fun f => { f with strap := false }))

/-- PORESET_RELEASE (R293, R354): MAINT is sampled and the cold start begins; while PWRGOOD is low the device stays in reset. -/
def execPoresetRelease (maintStrap : Bool) (s : State) : Out :=
  .next (if !s.power.poreset ∨ s.power.lowLong then s
    else if s.power.pwrgood then s.coldStart maintStrap
    else ({ s with power := { s.power with lowLong := true } } : State).modFd (fun f => { f with strap := maintStrap }))

/-- PAIR_SELFTEST_COMPLETE (R354): Aelko starts and stage 4 follows; a pair that fails is fenced and the spare boots. -/
def execPairSelftestComplete (pass : Bool) (s : State) : Out :=
  .next (if !s.power.pairTesting then s
    else
      let s1 : State := { s with power := { s.power with pairTesting := false } }
      if pass then (s1.startAelko ((s.bootFrom (fun b => bootImageOk s.mram.bootImages[b])).1.getD 0)).stage4 else s1.fencePair)

/-- PWRGOOD_FALL (R356): MRAM stops at a word boundary and the batch in progress is cut; with none running, that of the command that next starts one in the
same tick (log entry 26). -/
def execPwrgoodFall (s : State) : Out :=
  .next (if !s.power.pwrgood then s
    else
      let s1 : State := { s with power := { s.power with pwrgood := false } }
      if s1.power.poreset then s1
      else if s1.mram.running.isSome then s1.cutBatch
      else { s1 with power := { s1.power with cutting := true } })

/-- PWRGOOD_LOW_EXPIRY (R355, R356): PWRGOOD has been low for 2 µs and the device enters reset with code 2. -/
def execPwrgoodLowExpiry (s : State) : Out :=
  .next (if s.power.pwrgood ∨ s.power.poreset then s else s.inReset 2 true)

/-- PWRGOOD_RISE (R356): a device held in reset by PWRGOOD begins its cold start; within 2 µs of the fall nothing is reset. -/
def execPwrgoodRise (s : State) : Out :=
  .next (if s.power.pwrgood then s
    else
      let s1 : State := { s with power := { s.power with pwrgood := true, cutting := false } }
      if s1.power.poreset ∧ s1.power.lowLong then s1.coldStart s1.fd.strap else s1)

/-- SYS_RESET_EXPIRY (R321): 10 ms after the reply of SYS_RESET has left. -/
def execSysResetExpiry (s : State) : Out :=
  .next (if s.keeper.sysReset.isNone ∨ s.power.poreset then s else s.sysReset)

/-! ### Crossings (R359, R360) -/

/-- RESET_DONE_TOKEN (R359): the crossing has resynchronised. -/
def execResetDoneToken (sender receiver : Fin 51) (s : State) : Out :=
  let mine (h : Nat × Nat) : Bool := h == (sender.val, receiver.val) || h == (receiver.val, sender.val)
  .next (if s.power.handshakes.any mine && s.islandOn sender.val && s.islandOn receiver.val then
      let s1 : State := { s with power := { s.power with handshakes := s.power.handshakes.filter (fun h => !mine h) } }
      (((s1.islandBit sender.val 1).islandBit receiver.val 1).bump pPwrCntResync).post (islandSource receiver.val) 4 receiver.val
    else s)

/-- W_RESET (R360): a class W crossing is reset on both sides. -/
def execWReset (crossing : Fin 28) (s : State) : Out := .next (s.wResetCrossing crossing.val)

/-- REFCLK_MISSING (R254, R256, R263, R270): a reference clock is found absent. Without REFCLK128 the ports that are not RUNNING are OFF and memory
channels FAULT; without REFCLK125 a 1000BASE-X lane stays in LOCKING. -/
def execRefclkMissing (refclk125 : Bool) (s : State) : Out :=
  let ports := (List.finRange 18).filter (fun p => s.on (portDomain p))
  .next (if s.power.poreset then s
    else if refclk125 then
      if !s.lanes.refclk125 then s
      else
        let s1 : State := { s with lanes := { s.lanes with refclk125 := false } }
        (ports.filter s.basexPort).foldl (fun t p =>
          let down := if (t.lanes.ports[p]).state = .basex then t.basexDown (basexIdx p) 1 else t
          (down.modBringup p (fun b => { b with state := .locking, stage := .none })).post (laneSource (portLane p)) 0x0C 2) s1
    else if !s.lanes.refclk128 then s
    else
      let s1 : State := { s with lanes := { s.lanes with refclk128 := false } }
      let s2 := (ports.filter (fun p => s.inService p && !s.basexPort p)).foldl (fun t p =>
        (if (t.lanes.ports[p]).state = .running then t else t.modBringup p (fun b => { b with state := .off, stage := .none })).post
          (laneSource (portLane p)) 0x0C 1) s1
      ((List.finRange 4).filter (fun m => s.on (16 + m.val) && (s.mem.channels[m]).state != .fault)).foldl (fun t m => t.memFault m 4) s2)

/-! ### Hold-up (R367, R368) -/

/-- HOLD_SAMPLE (R367, R368): PWR.HOLD_V takes the sample; the capacitance test starts once HOLD has reached PWR.HOLD_VMIN + 1.0 V. -/
def execHoldSample (microvolts : Nat) (s : State) : Out :=
  .next (if s.power.poreset then s
    else
      let begins : Bool := !s.power.testEnded && !s.power.testRunning && decide (1000 * (s.rd pPwrHoldVmin + 1000) ≤ microvolts)
      { s with power := { s.power with hold := microvolts, testRunning := s.power.testRunning || begins } })

/-- CAPACITANCE_TEST_END (R368): c_meas is 100 nF for each µs of the fall; over 100 ms it counts as PWR.HOLD_CAP, and below 0.8 × PWR.HOLD_CAP it is posted. -/
def execCapacitanceTestEnd (fallMicros : Nat) (s : State) : Out :=
  .next (if !s.power.testRunning then s
    else
      let declared := s.rd pPwrHoldCap
      let c := if 100000 < fallMicros then declared else 100 * fallMicros
      let s1 : State := { s with power := { s.power with cMeas := some c, testRunning := false, testEnded := true } }
      if 10 * c < 8 * declared then s1.postLedger 491 3 (Nat.min (c / 1000) 0xFFFF) else s1)

/-! ### MRAM batches (R369) -/

/-- MRAM_BATCH_START (R369): the next batch is checked and starts or is DEFERRED; ledger entries first, which are committed at once, then the others. -/
def execMramBatchStart (s : State) : Out :=
  .next (if !s.aelkoFree then s
    else if s.mram.buffer ≠ [] then s.ledgerCommit
    else match s.mram.nextBatch with
      | none => s
      | some b =>
        match s.tryBatch b.words with
        | (true, s1) => s1.modMram (fun m => { m with running := some b, waiting := m.waiting.erase b })
        | (false, s1) => match b with
          | .checkpoint c => s1.modMram (fun m => { (if s.cutAt 8192 = 0 then m else m.putCheckpoint { c with valid := false }) with waiting := m.waiting.erase b })
          | _ => s1)

/-- MRAM_BATCH_END (R369): the batch has been written. -/
def execMramBatchEnd (s : State) : Out :=
  .next (match s.mram.running with
    | some b => (s.modMram (fun m => { m with running := none })).batchDone b
    | none => s)

end Sys2Proof.Machine
end

