-- ==== Sys2Proof/Machine/Dispatch.lean ====
section
/-! DEFINITION. The dispatch: one arm per command. -/

namespace Sys2Proof.Machine

open Sys2Proof

/-- The effect of a command on everything but the queue. -/
def exec (i : Instr) (s : State) : Host.Outcome State Fault Refusal :=
  match i with
  | .discriminatorEdge ch v raw => Sys2Proof.Machine.execDiscriminatorEdge ch v raw s
  | .blindIntervalEnd ch tacReady => Sys2Proof.Machine.execBlindIntervalEnd ch tacReady s
  | .blindExtensionEnd ch => Sys2Proof.Machine.execBlindExtensionEnd ch s
  | .sarSlot ch => Sys2Proof.Machine.execSarSlot ch s
  | .reorderHoldEnd tile => Sys2Proof.Machine.execReorderHoldEnd tile s
  | .stuckLimitExpiry ch => Sys2Proof.Machine.execStuckLimitExpiry ch s
  | .automaticReadmission ch => Sys2Proof.Machine.execAutomaticReadmission ch s
  | .chanReadmit o ch => Sys2Proof.Machine.execChanReadmit o ch s
  | .chanConfigWrite o ch item value => Sys2Proof.Machine.execChanConfigWrite o ch item value s
  | .chanModeEnable o ch digital => Sys2Proof.Machine.execChanModeEnable o ch digital s
  | .chanModeDisable o ch => Sys2Proof.Machine.execChanModeDisable o ch s
  | .blankEnd ch => Sys2Proof.Machine.execBlankEnd ch s
  | .recalibrationStart tile => Sys2Proof.Machine.execRecalibrationStart tile s
  | .histogramComplete ch hist moved source => Sys2Proof.Machine.execHistogramComplete ch hist moved source s
  | .recalibrationAbandon ch => Sys2Proof.Machine.execRecalibrationAbandon ch s
  | .hitWriteSlot m p => Sys2Proof.Machine.execHitWriteSlot m p s
  | .gSlot m p flips => Sys2Proof.Machine.execGSlot m p flips s
  | .mergeEntryTimeout m => Sys2Proof.Machine.execMergeEntryTimeout m s
  | .nightWatchRead m flips => Sys2Proof.Machine.execNightWatchRead m flips s
  | .roomGrant => Sys2Proof.Machine.execRoomGrant s
  | .milestone => Sys2Proof.Machine.execMilestone s
  | .disarmMilestoneRelease tile => Sys2Proof.Machine.execDisarmMilestoneRelease tile s
  | .reductionRecords => Sys2Proof.Machine.execReductionRecords s
  | .pretrigElapsed => Sys2Proof.Machine.execPretrigElapsed s
  | .refinEdge n raw => Sys2Proof.Machine.execRefinEdge n raw s
  | .gateResult n => Sys2Proof.Machine.execGateResult n s
  | .gateBoundary n => Sys2Proof.Machine.execGateBoundary n s
  | .refinFreqSnapshot n => Sys2Proof.Machine.execRefinFreqSnapshot n s
  | .refinCal o n => Sys2Proof.Machine.execRefinCal o n s
  | .stamperCalComplete n hist moved source => Sys2Proof.Machine.execStamperCalComplete n hist moved source s
  | .refinSettingWrite o n item value => Sys2Proof.Machine.execRefinSettingWrite o n item value s
  | .dmConclude u => Sys2Proof.Machine.execDmConclude u s
  | .dmNSnapshot u => Sys2Proof.Machine.execDmNSnapshot u s
  | .dmClear o u => Sys2Proof.Machine.execDmClear o u s
  | .coArm o n => Sys2Proof.Machine.execCoArm o n s
  | .coCancel o n => Sys2Proof.Machine.execCoCancel o n s
  | .caloutPulse n => Sys2Proof.Machine.execCaloutPulse n s
  | .caloutPulseEnd n => Sys2Proof.Machine.execCaloutPulseEnd n s
  | .ckEnEnable o m => Sys2Proof.Machine.execCkEnEnable o m s
  | .ckEnDisable o m => Sys2Proof.Machine.execCkEnDisable o m s
  | .clkoutSettingApply m => Sys2Proof.Machine.execClkoutSettingApply m s
  | .ppsEn o enable => Sys2Proof.Machine.execPpsEn o enable s
  | .ppsoutPulse => Sys2Proof.Machine.execPpsoutPulse s
  | .ppsoutPulseEnd => Sys2Proof.Machine.execPpsoutPulseEnd s
  | .ppsinEdge raw => Sys2Proof.Machine.execPpsinEdge raw s
  | .ppsinLost => Sys2Proof.Machine.execPpsinLost s
  | .sync d m seq oneStep t1 arrival => Sys2Proof.Machine.execSync d m seq oneStep t1 arrival s
  | .followUp d m seq t1 => Sys2Proof.Machine.execFollowUp d m seq t1 s
  | .delayReq p m seq fine => Sys2Proof.Machine.execDelayReq p m seq fine s
  | .delayResp d m seq t4 => Sys2Proof.Machine.execDelayResp d m seq t4 s
  | .announce d m utcOffset => Sys2Proof.Machine.execAnnounce d m utcOffset s
  | .signaling p m flags => Sys2Proof.Machine.execSignaling p m flags s
  | .exchangeInterval => Sys2Proof.Machine.execExchangeInterval s
  | .revertHoldExpiry => Sys2Proof.Machine.execRevertHoldExpiry s
  | .timeSourceWrite o master => Sys2Proof.Machine.execTimeSourceWrite o master s
  | .dAsymWrite o d value => Sys2Proof.Machine.execDAsymWrite o d value s
  | .launch => Sys2Proof.Machine.execLaunch s
  | .acceptFrame p m f => Sys2Proof.Machine.execAcceptFrame p m f s
  | .primFrame p m f => Sys2Proof.Machine.execPrimFrame p m f s
  | .primitiveTake => Sys2Proof.Machine.execPrimitiveTake s
  | .add e d a b => Sys2Proof.Machine.execAdd e d a b s
  | .sub e d a b => Sys2Proof.Machine.execSub e d a b s
  | .and e d a b => Sys2Proof.Machine.execAnd e d a b s
  | .orr e d a b => Sys2Proof.Machine.execOrr e d a b s
  | .xor e d a b => Sys2Proof.Machine.execXor e d a b s
  | .min e d a b => Sys2Proof.Machine.execMin e d a b s
  | .max e d a b => Sys2Proof.Machine.execMax e d a b s
  | .shl e d a b => Sys2Proof.Machine.execShl e d a b s
  | .shr e d a b => Sys2Proof.Machine.execShr e d a b s
  | .sar e d a b => Sys2Proof.Machine.execSar e d a b s
  | .popc e d a => Sys2Proof.Machine.execPopc e d a s
  | .clz e d a => Sys2Proof.Machine.execClz e d a s
  | .addi e d a imm => Sys2Proof.Machine.execAddi e d a imm s
  | .andi e d a imm => Sys2Proof.Machine.execAndi e d a imm s
  | .orri e d a imm => Sys2Proof.Machine.execOrri e d a imm s
  | .xori e d a imm => Sys2Proof.Machine.execXori e d a imm s
  | .shli e d a imm => Sys2Proof.Machine.execShli e d a imm s
  | .shri e d a imm => Sys2Proof.Machine.execShri e d a imm s
  | .sari e d a imm => Sys2Proof.Machine.execSari e d a imm s
  | .lui e d imm => Sys2Proof.Machine.execLui e d imm s
  | .ext e d a pos width1 => Sys2Proof.Machine.execExt e d a pos width1 s
  | .ins e d a pos width1 => Sys2Proof.Machine.execIns e d a pos width1 s
  | .exth e d high pos width1 => Sys2Proof.Machine.execExth e d high pos width1 s
  | .beq e a b disp => Sys2Proof.Machine.execBeq e a b disp s
  | .bne e a b disp => Sys2Proof.Machine.execBne e a b disp s
  | .blt e a b disp => Sys2Proof.Machine.execBlt e a b disp s
  | .bge e a b disp => Sys2Proof.Machine.execBge e a b disp s
  | .bltu e a b disp => Sys2Proof.Machine.execBltu e a b disp s
  | .bgeu e a b disp => Sys2Proof.Machine.execBgeu e a b disp s
  | .bfs e flag disp => Sys2Proof.Machine.execBfs e flag disp s
  | .bfc e flag disp => Sys2Proof.Machine.execBfc e flag disp s
  | .ldd e d a imm => Sys2Proof.Machine.execLdd e d a imm s
  | .lddh e d a imm => Sys2Proof.Machine.execLddh e d a imm s
  | .lddb e d a imm => Sys2Proof.Machine.execLddb e d a imm s
  | .std e d a imm => Sys2Proof.Machine.execStd e d a imm s
  | .stdh e d a imm => Sys2Proof.Machine.execStdh e d a imm s
  | .stdb e d a imm => Sys2Proof.Machine.execStdb e d a imm s
  | .ldt e d a imm lost => Sys2Proof.Machine.execLdt e d a imm lost s
  | .stt e d a imm lost => Sys2Proof.Machine.execStt e d a imm lost s
  | .ldth e d a imm lost => Sys2Proof.Machine.execLdth e d a imm lost s
  | .stth e d a imm lost => Sys2Proof.Machine.execStth e d a imm lost s
  | .call e disp => Sys2Proof.Machine.execCall e disp s
  | .ret e => Sys2Proof.Machine.execRet e s
  | .tdiff e d a b => Sys2Proof.Machine.execTdiff e d a b s
  | .waitt e a imm lag => Sys2Proof.Machine.execWaitt e a imm lag s
  | .poph e => Sys2Proof.Machine.execPoph e s
  | .peekh e => Sys2Proof.Machine.execPeekh e s
  | .emitp e a b => Sys2Proof.Machine.execEmitp e a b s
  | .emits e a b => Sys2Proof.Machine.execEmits e a b s
  | .raise e a imm => Sys2Proof.Machine.execRaise e a imm s
  | .yield e => Sys2Proof.Machine.execYield e s
  | .halt e => Sys2Proof.Machine.execHalt e s
  | .watchdogExpiry e => Sys2Proof.Machine.execWatchdogExpiry e s
  | .automaticRestart e => Sys2Proof.Machine.execAutomaticRestart e s
  | .waittWake e lag => Sys2Proof.Machine.execWaittWake e lag s
  | .yieldWake e => Sys2Proof.Machine.execYieldWake e s
  | .engStart o e => Sys2Proof.Machine.execEngStart o e s
  | .engStop o e => Sys2Proof.Machine.execEngStop o e s
  | .engPrivWrite o e value => Sys2Proof.Machine.execEngPrivWrite o e value s
  | .bookingClose slot => Sys2Proof.Machine.execBookingClose slot s
  | .readoutStart => Sys2Proof.Machine.execReadoutStart s
  | .dataRecordSent => Sys2Proof.Machine.execDataRecordSent s
  | .bookingFetch slot word flips => Sys2Proof.Machine.execBookingFetch slot word flips s
  | .roomsMapSnapshot => Sys2Proof.Machine.execRoomsMapSnapshot s
  | .pass1End u mismatch => Sys2Proof.Machine.execPass1End u mismatch s
  | .pass2End u mismatch => Sys2Proof.Machine.execPass2End u mismatch s
  | .uReadmit o u => Sys2Proof.Machine.execUReadmit o u s
  | .decompressionJobEnd k => Sys2Proof.Machine.execDecompressionJobEnd k s
  | .decompressionWaitTimeout => Sys2Proof.Machine.execDecompressionWaitTimeout s
  | .frameTransmit p fine => Sys2Proof.Machine.execFrameTransmit p fine s
  | .ctrlFrame p m f => Sys2Proof.Machine.execCtrlFrame p m f s
  | .dataFrame p m f => Sys2Proof.Machine.execDataFrame p m f s
  | .completeTimeout slot => Sys2Proof.Machine.execCompleteTimeout slot s
  | .evqFrame p m f => Sys2Proof.Machine.execEvqFrame p m f s
  | .evqFrameSend => Sys2Proof.Machine.execEvqFrameSend s
  | .creditFrame p m limit granted => Sys2Proof.Machine.execCreditFrame p m limit granted s
  | .creditPeriod p => Sys2Proof.Machine.execCreditPeriod p s
  | .testFrame p m tag => Sys2Proof.Machine.execTestFrame p m tag s
  | .lanternFrame p m seq device summary => Sys2Proof.Machine.execLanternFrame p m seq device summary s
  | .lanternSend => Sys2Proof.Machine.execLanternSend s
  | .lanternTimeout p => Sys2Proof.Machine.execLanternTimeout p s
  | .request p m f => Sys2Proof.Machine.execRequest p m f s
  | .grant p m f => Sys2Proof.Machine.execGrant p m f s
  | .refuse p m f => Sys2Proof.Machine.execRefuse p m f s
  | .confirm p m f => Sys2Proof.Machine.execConfirm p m f s
  | .close p m f => Sys2Proof.Machine.execClose p m f s
  | .role p m f => Sys2Proof.Machine.execRole p m f s
  | .renew p m f => Sys2Proof.Machine.execRenew p m f s
  | .requestRetry p => Sys2Proof.Machine.execRequestRetry p s
  | .requestAfterRefuse p => Sys2Proof.Machine.execRequestAfterRefuse p s
  | .grantRetry p => Sys2Proof.Machine.execGrantRetry p s
  | .renewRetry p => Sys2Proof.Machine.execRenewRetry p s
  | .renewalWindowEnd p => Sys2Proof.Machine.execRenewalWindowEnd p s
  | .portDisable o p => Sys2Proof.Machine.execPortDisable o p s
  | .portEnable o p => Sys2Proof.Machine.execPortEnable o p s
  | .dataPathWrite o spare => Sys2Proof.Machine.execDataPathWrite o spare s
  | .signalQualified p => Sys2Proof.Machine.execSignalQualified p s
  | .laneLock p lock => Sys2Proof.Machine.execLaneLock p lock s
  | .lockTimeout n => Sys2Proof.Machine.execLockTimeout n s
  | .capSet p lane t skew => Sys2Proof.Machine.execCapSet p lane t skew s
  | .capMismatchRetry p => Sys2Proof.Machine.execCapMismatchRetry p s
  | .capsTimeout p => Sys2Proof.Machine.execCapsTimeout p s
  | .stepSet p lane t => Sys2Proof.Machine.execStepSet p lane t s
  | .ackSet p lane t => Sys2Proof.Machine.execAckSet p lane t s
  | .goSet p lane t => Sys2Proof.Machine.execGoSet p lane t s
  | .startSet p lane t skew => Sys2Proof.Machine.execStartSet p lane t skew s
  | .prbsEnd p errors => Sys2Proof.Machine.execPrbsEnd p errors s
  | .verdictSet p lane t => Sys2Proof.Machine.execVerdictSet p lane t s
  | .verdictPeriodEnd p => Sys2Proof.Machine.execVerdictPeriodEnd p s
  | .verdictTimeout p => Sys2Proof.Machine.execVerdictTimeout p s
  | .relockTimeout p => Sys2Proof.Machine.execRelockTimeout p s
  | .bringupRetry p => Sys2Proof.Machine.execBringupRetry p s
  | .portRunning p => Sys2Proof.Machine.execPortRunning p s
  | .lockLost lane cause => Sys2Proof.Machine.execLockLost lane cause s
  | .laneRetrain o lane => Sys2Proof.Machine.execLaneRetrain o lane s
  | .wake p => Sys2Proof.Machine.execWake p s
  | .lowpowerRetry p => Sys2Proof.Machine.execLowpowerRetry p s
  | .wakeNoSignal p => Sys2Proof.Machine.execWakeNoSignal p s
  | .anComplete d page => Sys2Proof.Machine.execAnComplete d page s
  | .memTrainingDone m trained parts144 => Sys2Proof.Machine.execMemTrainingDone m trained parts144 s
  | .memRetrain o => Sys2Proof.Machine.execMemRetrain o s
  | .addressParityError m p => Sys2Proof.Machine.execAddressParityError m p s
  | .mailboxWrite o mb index value => Sys2Proof.Machine.execMailboxWrite o mb index value s
  | .doorbell o value => Sys2Proof.Machine.execDoorbell o value s
  | .mbDoneClear o value => Sys2Proof.Machine.execMbDoneClear o value s
  | .mailboxRound => Sys2Proof.Machine.execMailboxRound s
  | .evqTake => Sys2Proof.Machine.execEvqTake s
  | .evqRead => Sys2Proof.Machine.execEvqRead s
  | .evqFlush o => Sys2Proof.Machine.execEvqFlush o s
  | .fdNowSnapshot => Sys2Proof.Machine.execFdNowSnapshot s
  | .fdRegisterWrite o addr value => Sys2Proof.Machine.execFdRegisterWrite o addr value s
  | .ledgerCommit => Sys2Proof.Machine.execLedgerCommit s
  | .maintExpiry jtag => Sys2Proof.Machine.execMaintExpiry jtag s
  | .sysIdentify mb => Sys2Proof.Machine.execSysIdentify mb s
  | .sysFdRead mb addr words => Sys2Proof.Machine.execSysFdRead mb addr words s
  | .sysFdWrite mb addr value => Sys2Proof.Machine.execSysFdWrite mb addr value s
  | .sysReset mb key => Sys2Proof.Machine.execSysReset mb key s
  | .sysResetExpiry => Sys2Proof.Machine.execSysResetExpiry s
  | .sysImageWrite mb block => Sys2Proof.Machine.execSysImageWrite mb block s
  | .transferTimeout mb => Sys2Proof.Machine.execTransferTimeout mb s
  | .sysImageRead mb kind bank inst offset length => Sys2Proof.Machine.execSysImageRead mb kind bank inst offset length s
  | .sysBootSelect mb bank => Sys2Proof.Machine.execSysBootSelect mb bank s
  | .sysConfigSave mb => Sys2Proof.Machine.execSysConfigSave mb s
  | .maintGrant mb origins seconds => Sys2Proof.Machine.execMaintGrant mb origins seconds s
  | .maintRevoke mb origins => Sys2Proof.Machine.execMaintRevoke mb origins s
  | .sealPart mb key => Sys2Proof.Machine.execSealPart mb key s
  | .paramWrite mb addr value => Sys2Proof.Machine.execParamWrite mb addr value s
  | .paramRead mb addr => Sys2Proof.Machine.execParamRead mb addr s
  | .paramWriteList mb pairs => Sys2Proof.Machine.execParamWriteList mb pairs s
  | .paramReadList mb addrs => Sys2Proof.Machine.execParamReadList mb addrs s
  | .acqArm mb milestone => Sys2Proof.Machine.execAcqArm mb milestone s
  | .acqDisarm mb milestone => Sys2Proof.Machine.execAcqDisarm mb milestone s
  | .acqLaunch mb port tick body => Sys2Proof.Machine.execAcqLaunch mb port tick body s
  | .acqStatus mb => Sys2Proof.Machine.execAcqStatus mb s
  | .acqBookingRead mb slot => Sys2Proof.Machine.execAcqBookingRead mb slot s
  | .acqRoomRead mb room first words => Sys2Proof.Machine.execAcqRoomRead mb room first words s
  | .engLoad mb block => Sys2Proof.Machine.execEngLoad mb block s
  | .engRead mb engine kind addr length => Sys2Proof.Machine.execEngRead mb engine kind addr length s
  | .engStatus mb tile => Sys2Proof.Machine.execEngStatus mb tile s
  | .timeStatus mb => Sys2Proof.Machine.execTimeStatus mb s
  | .timeSwitch mb domain => Sys2Proof.Machine.execTimeSwitch mb domain s
  | .timeRestep mb milestone mode domain delta => Sys2Proof.Machine.execTimeRestep mb milestone mode domain delta s
  | .timeAsymConfirm mb domain => Sys2Proof.Machine.execTimeAsymConfirm mb domain s
  | .timeRestepCancel mb => Sys2Proof.Machine.execTimeRestepCancel mb s
  | .memLogRead mb first entries => Sys2Proof.Machine.execMemLogRead mb first entries s
  | .memRetire mb entries => Sys2Proof.Machine.execMemRetire mb entries s
  | .memRetireRead mb first entries => Sys2Proof.Machine.execMemRetireRead mb first entries s
  | .memRead mb addr length => Sys2Proof.Machine.execMemRead mb addr length s
  | .memInflate mb addr bytes format limit offset length => Sys2Proof.Machine.execMemInflate mb addr bytes format limit offset length s
  | .ledgerRead mb first entries => Sys2Proof.Machine.execLedgerRead mb first entries s
  | .ledgerNote mb object old new => Sys2Proof.Machine.execLedgerNote mb object old new s
  | .pwrDomain mb mask on => Sys2Proof.Machine.execPwrDomain mb mask on s
  | .pwrStatus mb => Sys2Proof.Machine.execPwrStatus mb s
  | .thermStatus mb => Sys2Proof.Machine.execThermStatus mb s
  | .laneStatus mb lane => Sys2Proof.Machine.execLaneStatus mb lane s
  | .portStatus mb port => Sys2Proof.Machine.execPortStatus mb port s
  | .pfeStart mb flags => Sys2Proof.Machine.execPfeStart mb flags s
  | .pfeResult mb => Sys2Proof.Machine.execPfeResult mb s
  | .pfeCoefWrite mb input coefs => Sys2Proof.Machine.execPfeCoefWrite mb input coefs s
  | .pfeCoefRead mb input => Sys2Proof.Machine.execPfeCoefRead mb input s
  | .redStatus mb => Sys2Proof.Machine.execRedStatus mb s
  | .redCheckpoint mb => Sys2Proof.Machine.execRedCheckpoint mb s
  | .redReadmit mb => Sys2Proof.Machine.execRedReadmit mb s
  | .redSwitch mb key => Sys2Proof.Machine.execRedSwitch mb key s
  | .redSelftest mb => Sys2Proof.Machine.execRedSelftest mb s
  | .lockstepMismatch cause => Sys2Proof.Machine.execLockstepMismatch cause s
  | .spareBootComplete bank0Ok bank1Ok => Sys2Proof.Machine.execSpareBootComplete bank0Ok bank1Ok s
  | .pairBootComplete => Sys2Proof.Machine.execPairBootComplete s
  | .checkpointDue => Sys2Proof.Machine.execCheckpointDue s
  | .spareWatchdogExpiry => Sys2Proof.Machine.execSpareWatchdogExpiry s
  | .fenceHit => Sys2Proof.Machine.execFenceHit s
  | .selftestPeriodExpiry => Sys2Proof.Machine.execSelftestPeriodExpiry s
  | .selftestComplete failed micros temperature corrected => Sys2Proof.Machine.execSelftestComplete failed micros temperature corrected s
  | .dataPathHoldExpiry => Sys2Proof.Machine.execDataPathHoldExpiry s
  | .poresetAssert => Sys2Proof.Machine.execPoresetAssert s
  | .poresetRelease maintStrap => Sys2Proof.Machine.execPoresetRelease maintStrap s
  | .pairSelftestComplete pass => Sys2Proof.Machine.execPairSelftestComplete pass s
  | .pwrgoodFall => Sys2Proof.Machine.execPwrgoodFall s
  | .pwrgoodLowExpiry => Sys2Proof.Machine.execPwrgoodLowExpiry s
  | .pwrgoodRise => Sys2Proof.Machine.execPwrgoodRise s
  | .resetDoneToken sender receiver => Sys2Proof.Machine.execResetDoneToken sender receiver s
  | .wReset crossing => Sys2Proof.Machine.execWReset crossing s
  | .sensorSample sensor reading => Sys2Proof.Machine.execSensorSample sensor reading s
  | .rateUpdate => Sys2Proof.Machine.execRateUpdate s
  | .sReadmit o sensor => Sys2Proof.Machine.execSReadmit o sensor s
  | .holdSample microvolts => Sys2Proof.Machine.execHoldSample microvolts s
  | .capacitanceTestEnd fallMicros => Sys2Proof.Machine.execCapacitanceTestEnd fallMicros s
  | .holdCapWrite o value => Sys2Proof.Machine.execHoldCapWrite o value s
  | .mramBatchStart => Sys2Proof.Machine.execMramBatchStart s
  | .mramBatchEnd => Sys2Proof.Machine.execMramBatchEnd s
  | .pfeWordEnd u => Sys2Proof.Machine.execPfeWordEnd u s
  | .burnoutTestEnd u => Sys2Proof.Machine.execBurnoutTestEnd u s
  | .pfeDelayEnd => Sys2Proof.Machine.execPfeDelayEnd s
  | .pfeModeWrite o value => Sys2Proof.Machine.execPfeModeWrite o value s
  | .pfeSelectWrite o value => Sys2Proof.Machine.execPfeSelectWrite o value s
  | .pfeFilterWrite o item value => Sys2Proof.Machine.execPfeFilterWrite o item value s
  | .pfeExcitationWrite o item value => Sys2Proof.Machine.execPfeExcitationWrite o item value s
  | .excitationTrip excB => Sys2Proof.Machine.execExcitationTrip excB s
  | .excitationRelease excB => Sys2Proof.Machine.execExcitationRelease excB s
  | .dacLoopUpdate d => Sys2Proof.Machine.execDacLoopUpdate d s
  | .dacTemperatureTimeout d => Sys2Proof.Machine.execDacTemperatureTimeout d s
  | .illegalInstruction e => Sys2Proof.Machine.execIllegalInstruction e s
  | .engineRecordTake => Sys2Proof.Machine.execEngineRecordTake s
  | .dataFrameAbort p units => Sys2Proof.Machine.execDataFrameAbort p units s
  | .relockComplete r => Sys2Proof.Machine.execRelockComplete r s
  | .signalDetectChange lane present => Sys2Proof.Machine.execSignalDetectChange lane present s
  | .refclkMissing refclk125 => Sys2Proof.Machine.execRefclkMissing refclk125 s
  | .clkoutEdge m rising => Sys2Proof.Machine.execClkoutEdge m rising s
  | .spareMemoryUncorrectable => Sys2Proof.Machine.execSpareMemoryUncorrectable s

end Sys2Proof.Machine
end

