-- ==== Sys2Proof/Machine/Onchip.lean ====
section
/-! DEFINITION. The on-chip memories (spec/01 Table 1.5, R26; spec/12 R288): upsets, and what their owners find. -/

namespace Sys2Proof.Machine

open Sys2Proof

/-- Whether an on-chip memory has power; one without holds nothing to flip (R26). -/
def State.holdsMemory (s : State) (m : Nat) : Bool :=
  let d := memoryDomain m
  if d < 36 then s.on d else d == 36 && !s.power.poreset

/-- The flipped words of the other memories with one more flip: a word with two flipped bits is uncorrectable. -/
def flipOnchip (l : List FlippedWord) (m w : Nat) (double : Bool) : List FlippedWord :=
  ⟨m, w, double || l.any (fun x => x.memory = m ∧ x.word = w)⟩ :: l.filter (fun x => ¬(x.memory = m ∧ x.word = w))

/-- An upset of an on-chip memory, numbered as `memoryDomain` does (R26, R110, R288). -/
def State.upset (s : State) : Option (Nat × Nat × Bool) → State
  | none => s
  | some (m, w, double) =>
    if !s.holdsMemory m then s else
    match idx? 128 m, idx? 128 (m - 128), idx? 16 (m - 256) with
    | some e, _, _ =>
      let x := s.engines[e]
      let r := flipWord (w % 2048) double x.imemCe x.imemBad
      s.setEng e { x with imemCe := r.1, imemBad := r.2 }
    | none, some e, _ =>
      let x := s.engines[e]
      let r := flipWord (w % 2048) double x.dmemCe x.dmemBad
      s.setEng e { x with dmemCe := r.1, dmemBad := r.2 }
    | none, none, some t =>
      let x := s.tiles[t]
      let r := flipWord (w % 16384) double x.tableCe x.tableBad
      s.setTile t { x with tableCe := r.1, tableBad := r.2 }
    | none, none, none => { s with onchip := flipOnchip s.onchip m w double }

/-- The owner of another memory reads a word (R288; log entry 78): a flipped bit is corrected and counted; an uncorrectable word is counted, logged and posted, and
its owner acts: the pair as at a mismatch (R336), the spare with a reset (R341). The chapters of the other owners lay down no act of theirs. -/
def State.ownerReads (s : State) : Option (Nat × Nat) → State
  | none => s
  | some (m, w) =>
    match s.onchip.find? (fun x => x.memory = m ∧ x.word = w) with
    | none => s
    | some x =>
      let s1 : State := { s with onchip := s.onchip.filter (fun y => y ≠ x) }
      if !x.double then s1.bump pMemCntOnchipCe
      else if m = 272 ∧ (s.keeper.spare = .pair ∨ s.keeper.spare = .selftest ∨ s.keeper.spare = .handover) then s1.mismatch 4 w
      else if m = 273 ∧ (s.keeper.spare = .spareActive ∨ s.keeper.spare = .pairCycled) then s1.spareUe w
      else s1.onchipUe m w

end Sys2Proof.Machine
end

