-- ==== Sys2Proof/Machine/Tick.lean ====
section
/-! DEFINITION. One period of the measurement clock: what happens at every tick, whatever is commanded (log entry 2). -/

namespace Sys2Proof.Machine

open Sys2Proof

/-- The acquisition counts of a tick in which the conditions `m` of Table 7.2 hold (R165, R172): a dead tick counts once in the total and once in each condition. -/
def AcqAcc.tickDead (a : AcqAcc) (m : BitVec 4) : AcqAcc :=
  if m = 0 then a else { a with dead := bumpAt (0 :: (bitsOf m.toNat 4).map (· + 1)) a.dead }

/-- The counts of the tick that is ending (R165, R166). -/
def State.countTick (s : State) : State :=
  if !s.streaming then s else
  let m := s.acq.deadMask
  let dead := bit (m != 0)
  ({ s with
    acq := { s.acq with armedTicks := s.acq.armedTicks + 1, deadTicks := s.acq.deadTicks + dead, deadFrom := s.acq.deadFrom + dead
                        deadCond := Vector.ofFn (fun (i : Fin 4) => s.acq.deadCond[i] + bit (m.getLsbD i.val)) } } : State).modAcqAcc (fun a => a.tickDead m)

/-- Whether the engine clocks pass a cycle (R120, R364): while throttled, the first THERM.THROTTLE_KEEP of each 8 (log entry 78). -/
def State.passes (s : State) (cycle : Nat) : Bool :=
  !(s.therm.state == .throttle || s.therm.state == .critical) || decide (cycle % 8 < s.rd pThermThrottleKeep)

/-- The engine clocks run at half the measurement clock (spec/05): a cycle at every second tick, where they pass it. -/
def State.countCycle (s : State) : State :=
  if s.time.clock % 2 = 0 && s.passes (s.time.clock / 2) then { s with therm := { s.therm with cycles := s.therm.cycles + 1 } } else s

/-- A control signal that is raised again before its acknowledgement merges: MERGED is set for the receiving island, if it has power (R357; log entry 78). -/
def State.mergeSignal (s : State) : Option (Fin 51) → State
  | none => s
  | some i => if s.islandOn i.val then s.islandBit i.val 0 else s

/-- The time at which the link of the data path is ADMITTED is noted (R346). -/
def State.noteDataPath (s : State) : State :=
  if (s.ports[s.dataPort]).state = .admitted then { s with keeper := { s.keeper with dpUpAt := s.time.clock } } else s

/-- One period of the measurement clock (R75): what the happenings of the tick that ends cut off is settled (R240), the tick is counted, the counter of device time and
the clock advance by one, and with them the engine clocks; the notes of what happened in a tick end with it (R12). An upset of an on-chip memory may come about, and
its owner's read find one (R288), signals merge (R357), and a self-test that a command waits for outlasts it (R344). With the timebase off no tick passes; a PWRGOOD
that fell cuts no later batch (R356). -/
def State.idle (s : State) : State :=
  let s0 : State := { s with power := { s.power with cutting := false } }
  if s0.on 30 then
    let s1 := s0.settle.endCycle.lookDead.countTick.noteDataPath
    let s2 : State := { s1 with time := { s1.time with clock := s1.time.clock + 1, tick := s1.time.tick + 1 }, fresh := Fresh.reset }
    let s3 := ((s2.lookDead.countCycle).upset (Config.softError s.time.clock)).ownerReads (Config.onchipRead s.time.clock)
    (s3.mergeSignal (Config.mergedSignal s.time.clock)).selftestTimeout
  else s0

end Sys2Proof.Machine
end

