-- ==== Sys2Proof/Machine/Pins.lean ====
section
/-! DEFINITION. The states of the pins (spec/18, Table 18.7; R388, R394), as the state of the device gives them. -/

namespace Sys2Proof.Machine

open Sys2Proof

/-- The signal pins of Table 18.1 by what Table 18.7 says of them. -/
inductive Pin where
  | hit (ch : Fin 256)
  | refin (n : Fin 4)
  | ppsin
  | calout (n : Fin 4)
  | clkout (m : Fin 2)
  | ppsout
  | laneTx (lane : Fin 21)
  | laneRx (lane : Fin 21)
  | memResetN (m : Fin 4)
  | memOther (m : Fin 4)
  | pfeAin (n : Fin 32)
  | exc (b : Bool)
  | biasDac (d : Fin 8)
  | spiMiso
  | jtagTdo
  | attnN
  deriving DecidableEq, Repr

/-- What a pin does: nothing, nothing with its failsafe bias, an idle transmitter, a terminated receiver that is ignored, a low output, a released open drain, no
drive at all, a termination without power, or what its block drives or receives. -/
inductive PinState where
  | highZ | failsafe | electricalIdle | terminated | low | released | noDrive | unpowered | owned
  deriving DecidableEq, Repr

/-- The domain of a pin; none for AON. -/
def Pin.domain : Pin → Option Nat
  | .hit ch => some (tileOf ch).val
  | .refin _ | .ppsin | .calout _ | .clkout _ | .ppsout => some 31
  | .laneTx l | .laneRx l => some (if l.val < 16 then 24 + l.val / 4 else if l.val < 20 then 22 else 23)
  | .memResetN m | .memOther m => some (16 + m.val)
  | .pfeAin _ | .exc _ | .biasDac _ => some 32
  | .spiMiso | .jtagTdo | .attnN => none

/-- The state of a pin while the device is in reset or the pin's domain is off (Table 18.7). -/
def Pin.resting : Pin → PinState
  | .hit _ => .failsafe
  | .refin _ | .ppsin | .calout _ | .clkout _ | .ppsout | .memOther _ | .pfeAin _ | .exc _ | .biasDac _ | .spiMiso | .jtagTdo => .highZ
  | .laneTx _ => .electricalIdle
  | .laneRx _ => .terminated
  | .memResetN _ => .low
  | .attnN => .released

/-- The state of a pin of a device without supply (Table 18.7). -/
def Pin.noSupply : Pin → PinState
  | .hit _ | .refin _ | .ppsin | .calout _ | .clkout _ | .ppsout | .pfeAin _ | .exc _ | .biasDac _ | .spiMiso | .jtagTdo => .highZ
  | .laneTx _ | .memResetN _ | .memOther _ => .noDrive
  | .laneRx _ => .unpowered
  | .attnN => .released

/-- The state of a pin (R394): at rest in reset and while its domain is off; an input not selected, an excitation that nothing names and a DAC that is off are
high-impedance (R372, R380, R385), the input of a DISABLED channel keeps its failsafe bias alone (R27), a reference output is high-impedance until its block drives
it (R68, R70, R71), a transmitter without bring-up idles (R255), ATTN_N is open drain, and every other pin is its block's. -/
def State.pin (s : State) (p : Pin) : PinState :=
  if s.power.poreset || p.domain.any (fun d => !s.on d) then p.resting
  else match p with
    | .hit ch => if (s.chans[ch]).state = .disabled then .failsafe else .owned
    | .calout n => if (s.ref.calout[n]).driven then .owned else .highZ
    | .clkout m => if (s.ref.clkout[m]).driven then .owned else .highZ
    | .ppsout => if s.ref.pps.driven then .owned else .highZ
    | .laneTx l => if (s.lanePort l).any (fun q => (s.lanes.ports[q]).state != .off && (s.lanes.ports[q]).state != .unused) then .owned else .electricalIdle
    | .memResetN m => if (s.mem.channels[m]).state = .off then .low else .owned
    | .pfeAin n => if s.pfeSelected = n then .owned else .highZ
    | .exc b => if s.pfeDrives b then .owned else .highZ
    | .biasDac d => if s.rd (pPfeDMode d.val) = 0 then .highZ else .owned
    | .attnN => if s.attnLow then .low else .released
    | _ => .owned

end Sys2Proof.Machine
end

