-- ==== Sys2Proof/Machine/Spi.lean ====
section
/-! DEFINITION. The wire formats of the SPI port and of the JTAG instruction FDACCESS (spec/13, R301, R302): what the bits of one transaction do to the front desk. -/

namespace Sys2Proof.Machine

open Sys2Proof

/-- Bits, the first most significant, as a number. -/
def bitsNat (bits : List Bool) : Nat := bits.foldl (fun n b => 2 * n + bit b) 0

/-- A byte as it travels: the most significant bit first (R301). -/
def spiByte (b : Byte) : List Bool := (List.range 8).map (fun i => b.getLsbD (7 - i))

/-- A 32-bit word as it travels: the least significant byte first, each byte most significant bit first (R301). -/
def spiBits (w : Word) : List Bool := (natLe 4 w.toNat).flatMap spiByte

/-- The 32-bit word that 32 bits of the wire carry. -/
def spiWord (bits : List Bool) : Word :=
  BitVec.ofNat 32 (leNat ((List.range 4).map (fun i => BitVec.ofNat 8 (bitsNat ((bits.drop (8 * i)).take 8)))))

/-- The whole words of a write transaction, each at the address before + 4; a word cut short is not written (R301). -/
def State.spiWrite (s : State) (addr : Half) (bits : List Bool) : Nat → State
  | 0 => s
  | n + 1 => (s.fdStoreWord .spi addr.toNat (spiWord (bits.take 32))).spiWrite (addr + 4) (bits.drop 32) n

/-- The words of a read transaction as MISO carries them, each sampled at the first clock edge of its word, each at the address before + 4 (R301). -/
def State.spiRead (s : State) (addr : Half) : Nat → List Bool × State
  | 0 => ([], s)
  | n + 1 =>
    let (w, s1) := s.fdLoadWord addr.toNat
    let (rest, s2) := s1.spiRead (addr + 4) n
    (spiBits w ++ rest, s2)

/-- One SPI transaction (R301): `mosi` holds the bit that SPI_MOSI carries at each clock while SPI_CS_N is low. The first 8 are the opcode, 0x02 for write and
0x03 for read, the next 16 the address, and a read inserts 8 clocks. The answer is what SPI_MISO carries: the data bits of a read; high for every clock of any other
opcode. Log entry 83. -/
def State.spiTransaction (s : State) (mosi : List Bool) : List Bool × State :=
  let addr := BitVec.ofNat 16 (bitsNat ((mosi.drop 8).take 16))
  let n := mosi.length
  if !s.fdOpen .spi ∨ n < 8 then ([], s)
  else if bitsNat (mosi.take 8) = 0x02 then ([], if n < 24 then s else s.spiWrite addr (mosi.drop 24) ((n - 24) / 32))
  else if bitsNat (mosi.take 8) = 0x03 then
    if n < 32 then ([], s)
    else
      let (bits, s1) := s.spiRead addr ((n - 32 + 31) / 32)
      (bits.take (n - 32), s1)
  else (List.replicate n true, s)

/-- Update-DR of FDACCESS (R302): on an unsealed part, the access that the 49-bit data register holds; the data of a read are kept. Log entry 83. -/
def State.jtagUpdate (s : State) : State :=
  let dr := s.fd.jtagDr
  let addr := (dr.extractLsb' 32 16).toNat
  if !s.fdOpen .jtag then s
  else if dr.getLsbD 48 then s.fdStoreWord .jtag addr (dr.setWidth 32)
  else
    let (w, s1) := s.fdLoadWord addr
    s1.modFd (fun f => { f with jtagLast := w })

/-- Capture-DR of FDACCESS (R302): bits [31:0] of the data register take the data read by the previous access. -/
def State.jtagCapture (s : State) : State :=
  if !s.fdOpen .jtag then s else s.modFd (fun f => { f with jtagDr := f.jtagDr.extractLsb' 32 17 ++ f.jtagLast })

/-- Shift-DR of FDACCESS (R302): one bit enters the data register at the top, and the answer is the bit that leaves it at the bottom. -/
def State.jtagShift (s : State) (tdi : Bool) : Bool × State :=
  (s.fd.jtagDr.getLsbD 0, s.modFd (fun f => { f with jtagDr := BitVec.ofBool tdi ++ f.jtagDr.extractLsb' 1 48 }))

end Sys2Proof.Machine
end

