-- ==== Sys2Proof/WellFormed.lean ====
section
/-! DEFINITION. What an operand of a command may be beyond its type (log entry 1): the sizes that a payload, a frame, a histogram or a reading can have. -/

namespace Sys2Proof

/-- A waybill's fields fit their widths (Table 10.18). -/
def Waybill.wf (w : Waybill) : Bool := decide (w.children < 32) && decide (w.payload < 2 ^ 32)

/-- A CTRL frame carries a block of 16 to 512 bytes (Table 10.8). -/
def CtrlFrame.wf (f : CtrlFrame) : Bool := decide (16 ≤ f.block.length ∧ f.block.length ≤ 512)

/-- A DATA frame's offset and segment fit their fields (Table 10.9, R231). -/
def DataFrame.wf (f : DataFrame) : Bool := f.waybill.wf && decide (f.offset < 2 ^ 32) && decide (f.segment.length < 2 ^ 16)

/-- An EVQ frame carries 1 to 8 records (Table 10.15). -/
def EvqFrame.wf (f : EvqFrame) : Bool := decide (1 ≤ f.records.length ∧ f.records.length ≤ 8)

/-- A transfer block carries 1 to 484 bytes (Table 14.1). -/
def TransferBlock.wf (b : TransferBlock) : Bool := decide (1 ≤ b.data.length ∧ b.data.length ≤ 484)

/-- A launched CTRL frame carries a mailbox block of 16 + n bytes, n at most 460 (Table 14.9). -/
def LaunchBody.wf (b : LaunchBody) : Bool :=
  match b with
  | .ctrl _ _ _ block => decide (16 ≤ block.length ∧ block.length ≤ 476)
  | .accept _ _ _ | .test _ | .badKind _ => true

/-- A histogram has 1,024 bins of 24 bits (spec/02, code-density calibration). -/
def histWf (h : List Nat) : Bool := decide (h.length = 1024) && h.all (fun n => decide (n < 2 ^ 24))

/-- Whether a command is well-formed. -/
def Instr.wf (i : Instr) : Bool :=
  match i with
  | .histogramComplete _ hist _ _ => histWf hist
  | .stamperCalComplete _ hist _ _ => histWf hist
  | .ctrlFrame _ _ f => f.wf
  | .dataFrame _ _ f => f.wf
  | .evqFrame _ _ f => f.wf
  | .creditFrame _ _ limit _ => decide (limit < 2 ^ 5)
  | .prbsEnd _ errors => decide (1 ≤ errors.length ∧ errors.length ≤ 4)
  | .sysImageWrite _ block => block.wf
  | .paramWriteList _ pairs => decide (1 ≤ pairs.length ∧ pairs.length ≤ 62)
  | .paramReadList _ addrs => decide (1 ≤ addrs.length ∧ addrs.length ≤ 124)
  | .acqLaunch _ _ _ body => body.wf
  | .engLoad _ block => block.wf
  | .memRetire _ entries => decide (1 ≤ entries.length ∧ entries.length ≤ 120)
  | .pfeCoefWrite _ _ coefs => decide (coefs.length = 12)
  | .lockstepMismatch cause => decide (cause ≠ 0)
  | .resetDoneToken sender receiver => decide (sender ≠ receiver)
  | .sensorSample _ reading => decide (-32768 ≤ reading ∧ reading ≤ 32767)
  | .holdSample microvolts => decide (microvolts ≤ 16000000 ∧ microvolts % 1000 = 0)
  | .capacitanceTestEnd fallMicros => decide (0 < fallMicros)
  | .discriminatorEdge _ _ _ | .blindIntervalEnd _ _ | .blindExtensionEnd _ | .sarSlot _ | .reorderHoldEnd _ | .stuckLimitExpiry _
  | .automaticReadmission _ | .chanReadmit _ _ | .chanConfigWrite _ _ _ _ | .chanModeEnable _ _ _ | .chanModeDisable _ _ | .blankEnd _
  | .recalibrationStart _ | .recalibrationAbandon _ | .hitWriteSlot _ _ | .gSlot _ _ _ | .mergeEntryTimeout _ | .nightWatchRead _ _ | .roomGrant
  | .milestone | .disarmMilestoneRelease _ | .reductionRecords | .pretrigElapsed | .refinEdge _ _ | .gateResult _ | .gateBoundary _
  | .refinFreqSnapshot _ | .refinCal _ _ | .refinSettingWrite _ _ _ _ | .dmConclude _ | .dmNSnapshot _ | .dmClear _ _ | .coArm _ _ | .coCancel _ _
  | .caloutPulse _ | .caloutPulseEnd _ | .ckEnEnable _ _ | .ckEnDisable _ _ | .clkoutSettingApply _ | .ppsEn _ _ | .ppsoutPulse | .ppsoutPulseEnd
  | .ppsinEdge _ | .ppsinLost | .sync _ _ _ _ _ _ | .followUp _ _ _ _ | .delayReq _ _ _ _ | .delayResp _ _ _ _ | .announce _ _ _
  | .signaling _ _ _ | .exchangeInterval | .revertHoldExpiry | .timeSourceWrite _ _ | .dAsymWrite _ _ _ | .launch | .acceptFrame _ _ _
  | .primFrame _ _ _ | .primitiveTake | .add _ _ _ _ | .sub _ _ _ _ | .and _ _ _ _ | .orr _ _ _ _ | .xor _ _ _ _ | .min _ _ _ _ | .max _ _ _ _
  | .shl _ _ _ _ | .shr _ _ _ _ | .sar _ _ _ _ | .popc _ _ _ | .clz _ _ _ | .addi _ _ _ _ | .andi _ _ _ _ | .orri _ _ _ _ | .xori _ _ _ _
  | .shli _ _ _ _ | .shri _ _ _ _ | .sari _ _ _ _ | .lui _ _ _ | .ext _ _ _ _ _ | .ins _ _ _ _ _ | .exth _ _ _ _ _ | .beq _ _ _ _ | .bne _ _ _ _
  | .blt _ _ _ _ | .bge _ _ _ _ | .bltu _ _ _ _ | .bgeu _ _ _ _ | .bfs _ _ _ | .bfc _ _ _ | .ldd _ _ _ _ | .lddh _ _ _ _ | .lddb _ _ _ _
  | .std _ _ _ _ | .stdh _ _ _ _ | .stdb _ _ _ _ | .ldt _ _ _ _ _ | .stt _ _ _ _ _ | .ldth _ _ _ _ _ | .stth _ _ _ _ _ | .call _ _ | .ret _ | .tdiff _ _ _ _
  | .waitt _ _ _ _ | .poph _ | .peekh _ | .emitp _ _ _ | .emits _ _ _ | .raise _ _ _ | .yield _ | .halt _ | .watchdogExpiry _ | .automaticRestart _
  | .waittWake _ _ | .yieldWake _ | .engStart _ _ | .engStop _ _ | .engPrivWrite _ _ _ | .bookingClose _ | .readoutStart | .dataRecordSent
  | .bookingFetch _ _ _ | .roomsMapSnapshot | .pass1End _ _ | .pass2End _ _ | .uReadmit _ _ | .decompressionJobEnd _ | .decompressionWaitTimeout
  | .frameTransmit _ _ | .completeTimeout _ | .evqFrameSend | .creditPeriod _ | .testFrame _ _ _ | .lanternFrame _ _ _ _ _ | .lanternSend
  | .lanternTimeout _ | .request _ _ _ | .grant _ _ _ | .refuse _ _ _ | .confirm _ _ _ | .close _ _ _ | .role _ _ _ | .renew _ _ _ | .requestRetry _
  | .requestAfterRefuse _ | .grantRetry _ | .renewRetry _ | .renewalWindowEnd _ | .portDisable _ _ | .portEnable _ _ | .dataPathWrite _ _
  | .signalQualified _ | .laneLock _ _ | .lockTimeout _ | .capSet _ _ _ _ | .capMismatchRetry _ | .capsTimeout _ | .stepSet _ _ _ | .ackSet _ _ _
  | .goSet _ _ _ | .startSet _ _ _ _ | .verdictSet _ _ _ | .verdictPeriodEnd _ | .verdictTimeout _ | .relockTimeout _ | .bringupRetry _
  | .portRunning _ | .lockLost _ _ | .laneRetrain _ _ | .wake _ | .lowpowerRetry _ | .wakeNoSignal _ | .anComplete _ _ | .memTrainingDone _ _ _
  | .memRetrain _ | .addressParityError _ _ | .mailboxWrite _ _ _ _ | .doorbell _ _ | .mbDoneClear _ _ | .mailboxRound | .evqTake | .evqRead
  | .evqFlush _ | .fdNowSnapshot | .fdRegisterWrite _ _ _ | .ledgerCommit | .maintExpiry _ | .sysIdentify _ | .sysFdRead _ _ _ | .sysFdWrite _ _ _
  | .sysReset _ _ | .sysResetExpiry | .transferTimeout _ | .sysImageRead _ _ _ _ _ _ | .sysBootSelect _ _ | .sysConfigSave _ | .maintGrant _ _ _
  | .maintRevoke _ _ | .sealPart _ _ | .paramWrite _ _ _ | .paramRead _ _ | .acqArm _ _ | .acqDisarm _ _ | .acqStatus _ | .acqBookingRead _ _
  | .acqRoomRead _ _ _ _ | .engRead _ _ _ _ _ | .engStatus _ _ | .timeStatus _ | .timeSwitch _ _ | .timeRestep _ _ _ _ _ | .timeAsymConfirm _ _
  | .timeRestepCancel _ | .memLogRead _ _ _ | .memRetireRead _ _ _ | .memRead _ _ _ | .memInflate _ _ _ _ _ _ _ | .ledgerRead _ _ _
  | .ledgerNote _ _ _ _ | .pwrDomain _ _ _ | .pwrStatus _ | .thermStatus _ | .laneStatus _ _ | .portStatus _ _ | .pfeStart _ _ | .pfeResult _
  | .pfeCoefRead _ _ | .redStatus _ | .redCheckpoint _ | .redReadmit _ | .redSwitch _ _ | .redSelftest _ | .spareBootComplete _ _ | .pairBootComplete
  | .checkpointDue | .spareWatchdogExpiry | .fenceHit | .selftestPeriodExpiry | .selftestComplete _ _ _ _ | .dataPathHoldExpiry | .poresetAssert
  | .poresetRelease _ | .pairSelftestComplete _ | .pwrgoodFall | .pwrgoodLowExpiry | .pwrgoodRise | .wReset _ | .rateUpdate | .sReadmit _ _
  | .holdCapWrite _ _ | .mramBatchStart | .mramBatchEnd | .pfeWordEnd _ | .burnoutTestEnd _ | .pfeDelayEnd | .pfeModeWrite _ _ | .pfeSelectWrite _ _
  | .pfeFilterWrite _ _ _ | .pfeExcitationWrite _ _ _ | .excitationTrip _ | .excitationRelease _ | .dacLoopUpdate _ | .dacTemperatureTimeout _
  | .illegalInstruction _ | .engineRecordTake | .dataFrameAbort _ _ | .relockComplete _ | .signalDetectChange _ _ | .refclkMissing _
  | .clkoutEdge _ _ | .spareMemoryUncorrectable => true

end Sys2Proof
end

