-- ==== Sys2Proof/Safety.lean ====
section
/-! DEFINITION. What claims are stated in: the invariant of every state, and what it is for a command to act and to leave the rest of the machine alone. -/

namespace Sys2Proof.Machine

open Sys2Proof

/-- The invariant of the stores: the parameter store, every byte memory and the room map are in their one canonical form, and register v0 of every
engine holds 0 (R102). -/
def State.Inv (s : State) : Prop :=
  SparseWf resetOf s.params ∧ s.mem.data.wf ∧ s.mem.check.wf ∧ s.fd.mbMem.wf ∧
  (∀ e : Fin 128, (s.engines[e]).imem.wf ∧ (s.engines[e]).dmem.wf ∧ (s.engines[e]).v[0] = 0) ∧
  (∀ t : Fin 16, (s.tiles[t]).table.wf) ∧ SparseWf (fun _ => Room.reset) s.porter.rooms

/-! ### Engines -/

/-- The load-use stall of an instruction that reads the registers `reads` and, with `readsH`, h0 and h1 (Table 5.1): 1 cycle where the last instruction loaded one of
them. -/
def Engine.waits (x : Engine) (reads : List (Fin 16)) (readsH : Bool) : Nat := match x.loaded with
  | .reg r => if r ≠ 0 ∧ r ∈ reads then 1 else 0
  | .hitRegs => if readsH then 1 else 0
  | .none => 0

/-- An engine is about to execute the word `w` (R101, R110, R124): its tile is on, it runs, the cycles that it owes before, a load-use stall among them, have passed,
the word stands at its PC in an instruction word without a flipped bit, and the cycles of the instruction do not reach ENG.BUDGET. -/
def State.Ready (s : State) (e : Fin 128) (w : Word) (reads : List (Fin 16)) (readsH : Bool) : Prop :=
  s.on (tileOfEng e).val = true ∧ (s.engines[e]).state = .running ∧ (s.engines[e]).word = w ∧ (s.engines[e]).ready + (s.engines[e]).waits reads readsH ≤ s.therm.cycles ∧
  (s.engines[e]).pc.toNat ∉ (s.engines[e]).imemBad ∧ (s.engines[e]).pc.toNat ∉ (s.engines[e]).imemCe ∧
  s.budgetReached e (1 + (s.engines[e]).waits reads readsH) = false

/-- The engine after an instruction that was in X in cycle `c`, took `n` cycles, `f` of them after it, and goes on at `pc`. -/
def Engine.advanced (x : Engine) (c n f : Nat) (pc : BitVec 11) : Engine :=
  { x with pc := pc, watchdog := x.watchdog + n, ready := c + 1 + f, loaded := .none }

/-- FLAGS with Z and N of a result (R133). -/
def withZN (f : BitVec 7) (r : Word) : BitVec 7 := (f &&& 0x7C#7) ||| (if r = 0 then 1#7 else 0#7) ||| (if 2 ^ 31 ≤ r.toNat then 2#7 else 0#7)

/-- FLAGS with C and V (R134). -/
def withCV (f : BitVec 7) (c v : Bool) : BitVec 7 := (f &&& 0x73#7) ||| (if c then 4#7 else 0#7) ||| (if v then 8#7 else 0#7)

/-- The registers with `r` written to register `d`; a write to v0 is discarded (R102). -/
def Engine.vWith (x : Engine) (d : Fin 16) (r : Word) : Vector Word 16 := if d = 0 then x.v else x.v.set d.val r

/-- `t` is `s` after an instruction of engine `e` that cost `n` cycles and left the engine as `x`: the highest watchdog count is recorded, and nothing else
differs. -/
def State.Executed (s t : State) (e : Fin 128) (n : Nat) (x : Engine) : Prop :=
  t.engines[e] = x ∧ (∀ f : Fin 128, f ≠ e → t.engines[f] = s.engines[f]) ∧
  t.rd (pEngMaxCycles e.val) = Nat.max (s.rd (pEngMaxCycles e.val)) (Nat.min ((s.engines[e]).watchdog + n) 0xFFFF) ∧
  (∀ a : Nat, a ≠ pEngMaxCycles e.val → t.rd a = s.rd a) ∧ { t with engines := s.engines, params := s.params } = s

/-- `t` is `s` after a trap of engine `e` with a cause of Table 5.6 (R124): the engine stops before the instruction changes any state. -/
def State.Trapped (s t : State) (e : Fin 128) (cause : Nat) : Prop :=
  let x := s.engines[e]
  t = ((s.setEng e { x with state := .trapped, loaded := .none, trapCause := cause, trapPc := x.pc, trapCycle := s.therm.cycles }).bump
    (pEngCntTraps e.val)).post (256 + e.val) 1 (cause * 2 ^ 12 + x.pc.toNat)

/-- The command `i`, the instruction word `w` of engine `e`, completes with register `d` at `r` and FLAGS at `f` wherever the engine is ready
to execute it and the next address lies in instruction memory; at the last address it traps with PC (R131, R136). -/
def State.Computes (s : State) (i : Instr) (e : Fin 128) (w : Word) (reads : List (Fin 16)) (readsH : Bool) (d : Fin 16) (r : Word) (f : BitVec 7) : Prop :=
  let x := s.engines[e]
  let n := 1 + x.waits reads readsH
  s.Inv → s.Ready e w reads readsH →
  (x.pc.toNat < 0x7FF → ∃ t : State, exec i s = .next t ∧ s.Executed t e n { x.advanced s.therm.cycles n 0 (x.pc + 1) with v := x.vWith d r, flags := f }) ∧
  (x.pc.toNat = 0x7FF → ∃ t : State, exec i s = .next t ∧ s.Trapped t e 6)

/-- Engine `e` has trapped with WATCHDOG at `pc`, its count at ENG.BUDGET (R124). -/
def State.WatchdogAt (s t : State) (e : Fin 128) (pc : BitVec 11) : Prop :=
  (t.engines[e]).state = .trapped ∧ (t.engines[e]).trapCause = 1 ∧ (t.engines[e]).trapPc = pc ∧ (t.engines[e]).watchdog = s.rd (pEngBudget e.val)

/-- A conditional branch (R101, R136): taken, it goes to its target with 2 further cycles, unless they reach ENG.BUDGET there (R124); not taken, to the next
address; where it would leave instruction memory it traps with PC. -/
def State.BranchesOn (s : State) (i : Instr) (e : Fin 128) (w : Word) (reads : List (Fin 16)) (taken : Prop) (disp : BitVec 14) : Prop :=
  let x := s.engines[e]
  let c := s.therm.cycles
  let n := 1 + x.waits reads false
  let target : Int := (x.pc.toNat : Int) + disp.toInt
  s.Inv → s.Ready e w reads false →
  (taken → 0 ≤ target → target ≤ 0x7FF → s.budgetReached e (n + 2) = false →
    ∃ t : State, exec i s = .next t ∧ s.Executed t e (n + 2) (x.advanced c (n + 2) 2 (BitVec.ofInt 11 target))) ∧
  (taken → 0 ≤ target → target ≤ 0x7FF → s.budgetReached e (n + 2) = true →
    ∃ t : State, exec i s = .next t ∧ s.WatchdogAt t e (BitVec.ofInt 11 target)) ∧
  (¬taken → x.pc.toNat < 0x7FF → ∃ t : State, exec i s = .next t ∧ s.Executed t e n (x.advanced c n 0 (x.pc + 1))) ∧
  ((taken ∧ (target < 0 ∨ 0x7FF < target)) ∨ (¬taken ∧ x.pc.toNat = 0x7FF) → ∃ t : State, exec i s = .next t ∧ s.Trapped t e 6)

/-- The effective address of a load or store (R137). -/
def State.ea (s : State) (e : Fin 128) (a : Fin 16) (imm : BitVec 18) : Nat := ((s.engines[e]).get a + imm.signExtend 32).toNat

/-- A load from data memory (R110, R137): register `d` takes `size` bytes, least significant first, zero-extended; a word with one flipped bit is corrected and
counted; an address out of range or not a multiple of the size traps with ADDRESS. -/
def State.LoadsData (s : State) (i : Instr) (e : Fin 128) (w : Word) (d a : Fin 16) (imm : BitVec 18) (size : Nat) : Prop :=
  let x := s.engines[e]
  let ea := s.ea e a imm
  let n := 1 + x.waits [a] false
  let y := { x.advanced s.therm.cycles n 0 (x.pc + 1) with v := x.vWith d (BitVec.ofNat 32 (x.dmem.getLe ea size)), loaded := .reg d }
  s.Inv → s.Ready e w [a] false →
  (ea < 0x2000 → ea % size = 0 → ea / 4 ∉ x.dmemBad → x.pc.toNat < 0x7FF →
    (ea / 4 ∉ x.dmemCe → ∃ t : State, exec i s = .next t ∧ s.Executed t e n y) ∧
    (ea / 4 ∈ x.dmemCe → ∃ t : State, exec i s = .next t ∧ t.engines[e] = { y with dmemCe := x.dmemCe.filter (fun k => k ≠ ea / 4) } ∧
      t.rd pMemCntOnchipCe = Nat.min (s.rd pMemCntOnchipCe + 1) 0xFFFFFFFF ∧ { t with engines := s.engines, params := s.params, fresh := s.fresh } = s ∧
      ∀ f : Fin 128, f ≠ e → t.engines[f] = s.engines[f])) ∧
  (0x2000 ≤ ea ∨ ea % size ≠ 0 → ∃ t : State, exec i s = .next t ∧ s.Trapped t e 3)

/-- A store to data memory (R110, R137): of all bytes of data memory only the `size` bytes at the effective address change, to those of register `d`; a
full word gets fresh check bits. -/
def State.StoresData (s : State) (i : Instr) (e : Fin 128) (w : Word) (d a : Fin 16) (imm : BitVec 18) (size : Nat) : Prop :=
  let x := s.engines[e]
  let ea := s.ea e a imm
  let n := 1 + x.waits [d, a] false
  let fresh := fun (ks : List Nat) => if size = 4 then ks.filter (fun k => k ≠ ea / 4) else ks
  s.Inv → s.Ready e w [d, a] false →
  (ea < 0x2000 → ea % size = 0 → (size < 4 → ea / 4 ∉ x.dmemBad ∧ ea / 4 ∉ x.dmemCe) → x.pc.toNat < 0x7FF →
    ∃ (t : State) (m : Memory), exec i s = .next t ∧
      s.Executed t e n { x.advanced s.therm.cycles n 0 (x.pc + 1) with dmem := m, dmemCe := fresh x.dmemCe, dmemBad := fresh x.dmemBad } ∧
      ∀ k : Nat, m.get k = if ea ≤ k ∧ k < ea + size then ((x.get d) >>> (8 * (k - ea))).setWidth 8 else x.dmem.get k) ∧
  (0x2000 ≤ ea ∨ ea % size ≠ 0 → ∃ t : State, exec i s = .next t ∧ s.Trapped t e 3)

/-- The engine after its instruction has waited through cycle `c`, `n` cycles with the load-use stall before it. -/
def Engine.heldUp (x : Engine) (c n : Nat) : Engine := { x with watchdog := x.watchdog + n, ready := c + 1, loaded := .none }

/-- `t` is `s` after engine `e` has lost an arbitration for a bank (R105): a cycle has passed, counted in ENG.CNT_STALL, and the instruction, `n` cycles with its load-use
stall, waits. -/
def State.Stalled (s t : State) (e : Fin 128) (n : Nat) : Prop :=
  let x := s.engines[e]
  t.engines[e] = x.heldUp s.therm.cycles n ∧ (∀ f : Fin 128, f ≠ e → t.engines[f] = s.engines[f]) ∧
  t.rd (pEngCntStall e.val) = Nat.min (s.rd (pEngCntStall e.val) + 1) 0xFFFFFFFF ∧ { t with engines := s.engines, params := s.params, fresh := s.fresh } = s

/-- `t` is `s` after an access of engine `e` to its tile's table memory that took `n` cycles, left the engine as `x` and the tile as `y`. -/
def State.Accessed (s t : State) (e : Fin 128) (n : Nat) (x : Engine) (y : TileState) : Prop :=
  s.Executed { t with tiles := s.tiles } e n x ∧ t.tiles[tileOfEng e] = y ∧ ∀ u : Fin 16, u ≠ tileOfEng e → t.tiles[u] = s.tiles[u]

/-- A load from the tile table memory (R104, R105, R137): the row of an access that loses its bank stalls a cycle, the row of one that wins it executes
and holds the bank for its cycle, and the other row of the two does nothing. -/
def State.LoadsTable (s : State) (i : Bool → Instr) (e : Fin 128) (w : Word) (d a : Fin 16) (imm : BitVec 18) (size : Nat) : Prop :=
  let x := s.engines[e]
  let y := s.tiles[tileOfEng e]
  let ea := s.ea e a imm
  let n := 1 + x.waits [a] false
  let c := s.therm.cycles
  s.Inv → s.Ready e w [a] false →
  (ea < 0x10000 → ea % size = 0 → ea / 4 ∉ y.tableBad → x.pc.toNat < 0x7FF →
    (s.stalls e = false → ea / 4 ∉ y.tableCe → ∃ t : State, exec (i false) s = .next t ∧
      s.Accessed t e n { x.advanced s.therm.cycles n 0 (x.pc + 1) with v := x.vWith d (BitVec.ofNat 32 (y.table.getLe ea size)), loaded := .reg d }
        { y with banks := y.banks.set (bankOf ea).val (c + 1) }) ∧
    (s.stalls e = true → ∃ t : State, exec (i true) s = .next t ∧ s.Stalled t e n) ∧
    exec (i !s.stalls e) s = .next s) ∧
  (0x10100 ≤ ea ∨ (size = 2 ∧ 0x10000 ≤ ea) ∨ ea % size ≠ 0 → ∃ t : State, exec (i false) s = .next t ∧ s.Trapped t e 3)

/-- A store to the tile table memory (R104, R105, R137, R139): of all bytes of the tile's table memory only the `size` bytes at the effective address change; a
store narrower than 32 bits holds its bank for a second cycle. -/
def State.StoresTable (s : State) (i : Bool → Instr) (e : Fin 128) (w : Word) (d a : Fin 16) (imm : BitVec 18) (size : Nat) : Prop :=
  let x := s.engines[e]
  let y := s.tiles[tileOfEng e]
  let ea := s.ea e a imm
  let n := 1 + x.waits [d, a] false
  let c := s.therm.cycles
  let fresh := fun (ks : List Nat) => if size = 4 then ks.filter (fun k => k ≠ ea / 4) else ks
  s.Inv → s.Ready e w [d, a] false →
  (ea < 0x10000 → ea % size = 0 → (size < 4 → ea / 4 ∉ y.tableBad) → x.pc.toNat < 0x7FF →
    (s.stalls e = false → (size < 4 → ea / 4 ∉ y.tableCe) → ∃ (t : State) (m : Memory), exec (i false) s = .next t ∧
      s.Accessed t e n (x.advanced s.therm.cycles n 0 (x.pc + 1))
        { y with table := m, tableCe := fresh y.tableCe, tableBad := fresh y.tableBad
                 banks := y.banks.set (bankOf ea).val (c + (if size = 4 then 1 else 2)) } ∧
      ∀ k : Nat, m.get k = if ea ≤ k ∧ k < ea + size then ((x.get d) >>> (8 * (k - ea))).setWidth 8 else y.table.get k) ∧
    (s.stalls e = true → ∃ t : State, exec (i true) s = .next t ∧ s.Stalled t e n) ∧
    exec (i !s.stalls e) s = .next s) ∧
  (0x10100 ≤ ea ∨ (size = 2 ∧ 0x10000 ≤ ea) ∨ ea % size ≠ 0 → ∃ t : State, exec (i false) s = .next t ∧ s.Trapped t e 3)

/-! ### Parameter writes -/

/-- A write of `v` to the parameter address `a` passes the checks of R326 with its origin, and its ledger entry can be committed at once (R309, R369). -/
def State.AcceptsWrite (s : State) (o : Origin) (a v : Nat) : Prop :=
  s.aelkoFree = true ∧ s.mayWrite o = true ∧ originAllowed o a = true ∧ s.addressOk a = true ∧ s.writeStatus (s.stored a v) a v = .ok ∧
  s.power.testEnded = true ∧ s.power.pwrgood = true ∧ s.on 33 = true ∧ s.energyOk 4 = true ∧ s.power.short = false ∧ s.power.cutting = false

/-- The command `i` is a write of `v` to the parameter address `a` with origin `o`: where the write is accepted, its entry is committed to the ledger and it
then acts as `effect` says, and completes OK. -/
def State.WritesTo (s : State) (i : Instr) (o : Origin) (a v : Nat) (effect : State → State) : Prop :=
  s.AcceptsWrite o a v →
    exec i s = .next { (effect (s.commitEntry (s.paramEntry o (writeCommand o) 0 a v))) with lastStatus := .ok }

/-! ### Aelko's commands -/

/-- A batch of `n` words can start at once (R369): the capacitance test has ended, PWRGOOD is high, PD33 is on, the energy is there, no shortage is open, and no fall of
PWRGOOD cuts it. -/
def State.Affords (s : State) (n : Nat) : Prop :=
  s.power.testEnded = true ∧ s.power.pwrgood = true ∧ s.on 33 = true ∧ s.energyOk n = true ∧ s.power.short = false ∧
  s.power.cutting = false

/-- `s` after the ledger entry of a command (R308, R309). -/
def State.logged (s : State) (f : InFlight) (kind object old new : Nat) : State := s.commitEntry (s.cmdEntry f kind object old new)

/-- Wherever Aelko starts the command `c` in mailbox `mb`, the row `i` completes it with a status and a reply payload in the state `t` (R297, R315). -/
def State.Answers (s : State) (i : Instr) (mb : Fin 8) (c : AelkoCmd) (st : Status) (payload : List Byte) (t : InFlight → State) : Prop :=
  ∀ f : InFlight, s.starts mb c = some f → exec i s = .next ((t f).finish mb f st 0 payload)

/-- The command completes with a status and an empty or error payload, and has no other effect (R15, R315). -/
def State.Fails (s : State) (i : Instr) (mb : Fin 8) (c : AelkoCmd) (st : Status) (payload : List Byte) : Prop :=
  s.Answers i mb c st payload (fun _ => s)

/-! ### Links -/

/-- A frame whose LINK is not checked (PRIM, ACCEPT and ADMIT) that port `p` takes (R221): its lanes are powered and up, its check, symbols, size and form are
right, and the link is ADMITTED or STANDBY. -/
def State.HearsAny (s : State) (p : Fin 18) (m : FrameMeta) : Prop :=
  s.on (portDomain p) = true ∧ s.lanesUp p = true ∧ m.checkOk = true ∧ m.codeViolation = false ∧ (∀ n : Nat, m.laneViols n = 0) ∧ m.formOk = true ∧
  s.linked p = true ∧ (s.ports[p]).cut = none

/-- A frame that port `p` takes (R221), with the link's incarnation in LINK. -/
def State.Hears (s : State) (p : Fin 18) (m : FrameMeta) : Prop := s.HearsAny p m ∧ m.link = (s.ports[p]).inc

/-- `s` with the frame counted on port `p`. -/
def State.heard (s : State) (p : Fin 18) : State := s.bump (pPortPCntFrames p.val)

/-- A PTP message that domain `d` takes: a TIME frame of its port, or, on 1000BASE-X, a MAC frame that passes the filter of Table 11.9 and names TIME.PTP_DOMAIN. -/
def State.HearsTime (s : State) (d : Fin 2) (m : TimeMeta) : Prop :=
  s.on 30 = true ∧
  (s.onBasex d = false → s.Hears (domainPort d) m.frame) ∧
  (s.onBasex d = true → (s.lanes.basex[d]).linkUp = true ∧ m.frame.checkOk = true ∧ m.frame.codeViolation = false ∧ (∀ n : Nat, m.frame.laneViols n = 0) ∧
    m.frame.formOk = true ∧ macTaken m.mac s.laneMac = true ∧ m.domain.toNat = s.rd pTimePtpDomain)

/-- `s` with such a message counted: a TIME frame on its port, a MAC frame nowhere. -/
def State.heardTime (s : State) (d : Fin 2) : State := if s.onBasex d then s else s.heard (domainPort d)

/-- `s` with domain `d` replaced. -/
def State.withDomain (s : State) (d : Fin 2) (x : Domain) : State := { s with time := { s.time with domains := s.time.domains.set d.val x } }

end Sys2Proof.Machine
end

