-- ==== Sys2Proof/Certificates/Slice0/Obligations.lean ====
section
/-! DEFINITION. The statements about the machine, family by family. -/

open Sys2Proof Sys2Proof.Machine

/-! ### The block as a whole -/

/-- A step takes the command at the front of the queue and is that command's effect on the state with the rest of the queue. -/
def Obligations.StepRunsTheFrontCommand : Prop :=
  ∀ (s : State) (c : Instr), step { s with pending := c :: s.pending } = exec c s

/-- With no command waiting a step is one tick (R75, the model's choice of log entry 2). With PD30 off no tick passes; a PWRGOOD that fell cuts no later batch
(log entry 26). With PD30 on the clock and device time advance by one and no more of the time changes, but for what an absence of the tick takes with it;
what the tick cut off at the ports is settled (R240) and the notes of what was counted in it end (R12); while armed its tick and its dead time are counted
(R165). On a tick on which nothing is to be settled, counted or noted, no upset comes about, no owner reads and no signal merges (free values), the clock
and device time alone change, and the engine cycles where the cycle of every second tick passes the throttle (R101, R120; log entry 78); an upset of one bit
of an engine's instruction word is noted for its correction (R288). -/
def Obligations.EmptyQueueIsOneTick : Prop :=
  ∀ s : State, s.pending = [] →
    let clock := s.time.clock + 1
    let uncut : Power := { s.power with cutting := false }
    let settled := fun (u : State) => ∀ p : Fin 18, (u.ports[p]).cut = none ∧ (u.ports[p]).lapsed = false
    let quiet : State := { s with
      time := { s.time with clock := clock, tick := s.time.tick + 1 }, power := uncut, fresh := Fresh.reset
      therm := { s.therm with cycles := s.therm.cycles + (if clock % 2 = 0 ∧ s.passes (clock / 2) = true then 1 else 0) } }
    (s.on 30 = false → step s = .next { s with power := uncut }) ∧
    (s.on 30 = true → ∃ t : State, step s = .next t ∧ t.time.clock = clock ∧ t.time.tick = s.time.tick + 1 ∧ settled t) ∧
    (s.on 30 = true → settled s → (∀ e : Fin 128, (s.engines[e]).late = []) → s.keeper.selftestMb = none → Config.onchipRead s.time.clock = none →
      (∃ t : State, step s = .next t ∧ { t.time with clock := s.time.clock, tick := s.time.tick } = s.time ∧ t.acq.state = s.acq.state) ∧
      (s.acq.state = .disarmed → s.acq.deadMask = 0 → (s.ports[s.dataPort]).state ≠ .admitted → Config.mergedSignal s.time.clock = none →
        (Config.softError s.time.clock = none → step s = .next quiet) ∧
        (∀ (e : Fin 128) (w : Nat), Config.softError s.time.clock = some (e.val, w, false) → w < 2048 → s.on (tileOfEng e).val = true →
          w ∉ (s.engines[e]).imemCe → w ∉ (s.engines[e]).imemBad →
          ∃ t : State, step s = .next t ∧ (∀ k : Nat, k ∈ (t.engines[e]).imemCe ↔ k = w ∨ k ∈ (s.engines[e]).imemCe) ∧
            { t with engines := s.engines } = quiet ∧ { t.engines[e] with imemCe := (s.engines[e]).imemCe } = s.engines[e] ∧
            ∀ f : Fin 128, f ≠ e → t.engines[f] = s.engines[f])) ∧
      (s.streaming = true → ∃ t : State, step s = .next t ∧ t.acq.armedTicks = s.acq.armedTicks + 1 ∧
        t.acq.deadTicks = s.acq.deadTicks + (if s.deadConditions = 0 then 0 else 1)) ∧
      (s.Inv → (s.ports[s.dataPort]).state = .admitted → ∃ t : State, step s = .next t ∧ t.keeper = { s.keeper with dpUpAt := s.time.clock }))

/-- Every command in every state ends in a next state: none faults and none is refused. -/
def Obligations.NoCommandStops : Prop :=
  ∀ (c : Instr) (s : State), ∃ t : State, exec c s = .next t

/-- R77: tick values of 64, 32 and 30 bits are compared by their signed difference. -/
def Obligations.TickComparisonsUseSignedDifference : Prop :=
  let diff := fun (w : Nat) (a b : Nat) =>
    let d : Int := ((a : Int) - (b : Int)) % 2 ^ w
    if 2 ^ (w - 1) ≤ d then d - 2 ^ w else d
  (∀ a b : DWord, (before b a = true ↔ 0 < diff 64 a.toNat b.toNat) ∧ (atOrBefore b a = true ↔ 0 ≤ diff 64 a.toNat b.toNat)) ∧
  (∀ a b : DWord, diff 64 a.toNat b.toNat = 0 ↔ a = b) ∧
  (∀ a b : Nat, before32 b a = true ↔ 0 < diff 32 a b) ∧
  (∀ (s : State) (t : BitVec 30) (lag : Fin 9), s.reached t lag = true ↔ diff 30 t.toNat ((s.time.tick - BitVec.ofNat 64 lag.val).toNat % 2 ^ 30) ≤ 0)

/-- What the release of reset leaves: the values the manual gives (R48, R102, R110, R123, R148, R234, R270, R295, R297, Tables 2.12, 4.5, 13.6). -/
def Obligations.ResetLeavesTheStatedValues : Prop :=
  let s := State.reset
  s.pending = [] ∧ s.time.tick = 0 ∧ s.time.fine = 0 ∧ s.time.servo = .freerun ∧ s.acq.state = .disarmed ∧ s.power.domains = 0 ∧
  s.fd.aelkoReady = false ∧ s.fd.isSealed = false ∧ s.fd.events = [] ∧
  (∀ m : Fin 8, s.fd.mb[m] = .free) ∧ (∀ k : Nat, s.fd.mbMem.get k = 0) ∧
  (∀ c : Fin 256, (s.chans[c]).state = .disabled ∧ (s.chans[c]).front = ⟨0, 4, 0, 0, 1⟩) ∧
  (∀ e : Fin 128, (s.engines[e]).state = .stopped ∧ ∀ r : Fin 16, (s.engines[e]).v[r] = 0) ∧
  (∀ p : Fin 16, (s.ports[downPort p]).state = .disabled) ∧ (∀ m : Fin 4, (s.mem.channels[m]).state = .off) ∧
  (∀ a : Nat, s.rd a = resetOf a)

/-- The stores are in their canonical form after reset. -/
def Obligations.StoresAreCanonicalAfterReset : Prop :=
  State.reset.Inv

/-- Every step keeps the invariant: the parameter store and every byte memory stay in their one canonical form, and v0 of every engine stays 0 (R102). -/
def Obligations.EveryStepKeepsTheInvariant : Prop :=
  ∀ s t : State, s.Inv → step s = .next t → t.Inv

/-- A command's effect leaves the queue of waiting commands alone: a step takes the front command from it and puts none into it. -/
def Obligations.StepsOnlyTakeFromTheQueue : Prop :=
  ∀ s t : State, step s = .next t → t.pending = s.pending.tail

/-- R305: a record enters the buffer of 4 of its source, with tick, source, reason and argument of Table 13.7, and otherwise is dropped and counted. That each
source has a buffer of its own is the model's choice (log entry 65): R305 gives each block one in its island. -/
def Obligations.RecordsEnterTheirSourceBuffer : Prop :=
  ∀ (s : State) (src reason arg : Nat), src < 512 → reason < 256 → arg < 65536 →
    let mine := fun (t : State) (k : Nat) => t.fd.sources.filter (fun r => r.1 = k)
    let t := s.post src reason arg
    (((mine s src).length < 4) →
      t = { s with fd := { s.fd with sources := s.fd.sources ++ [(src, eventRecord s.time.tick false src reason arg)] } } ∧
      (eventRecord s.time.tick false src reason arg).toNat / 2 ^ 34 = s.time.tick.toNat % 2 ^ 30 ∧
      (eventRecord s.time.tick false src reason arg).toNat / 2 ^ 24 % 2 ^ 9 = src ∧
      (eventRecord s.time.tick false src reason arg).toNat / 2 ^ 16 % 2 ^ 8 = reason ∧
      (eventRecord s.time.tick false src reason arg).toNat % 2 ^ 16 = arg) ∧
    (4 ≤ (mine s src).length → s.Inv → s.rd pEvqCntSrcLost ≠ 0 →
      t = { s with params := t.params, fresh := t.fresh } ∧ t.rd pEvqCntSrcLost = min (s.rd pEvqCntSrcLost + 1) 0xFFFFFFFF) ∧
    (4 ≤ (mine s src).length → s.Inv → s.rd pEvqCntSrcLost = 0 → (mine s 507).length < 4 →
      mine t 507 = mine s 507 ++ [(507, eventRecord s.time.tick false 507 3 src)] ∧ t.rd pEvqCntSrcLost = 1 ∧ (∀ k : Nat, k ≠ 507 → mine t k = mine s k))

/-! ### Engine instructions (spec/05, spec/06) -/

/-- The register forms of Table 6.2 that set Z and N only (R131, R133–R135, R140). ADD, SUB and ADDI set Z, N, C and V (R134). The one-source, immediate and
field forms of Table 6.2 (R131–R135). -/
def Obligations.EngineArithmeticComputes : Prop :=
  (∀ (s : State) (e : Fin 128) (d a b : Fin 16),
    let x := s.engines[e]
    let va := x.get a
    let vb := x.get b
    let k := vb.toNat % 32
    let zn := fun (i : Instr) (op : Nat) (r : Word) => s.Computes i e (engWord3 op d a b 0) [a, b] false d r (withZN x.flags r)
    zn (.and e d a b) 0x02 (va &&& vb) ∧ zn (.orr e d a b) 0x03 (va ||| vb) ∧ zn (.xor e d a b) 0x04 (va ^^^ vb) ∧
    zn (.min e d a b) 0x05 (BitVec.ofInt 32 (min va.toInt vb.toInt)) ∧ zn (.max e d a b) 0x06 (BitVec.ofInt 32 (max va.toInt vb.toInt)) ∧
    zn (.shl e d a b) 0x08 (BitVec.ofNat 32 (va.toNat * 2 ^ k)) ∧ zn (.shr e d a b) 0x09 (BitVec.ofNat 32 (va.toNat / 2 ^ k)) ∧
    zn (.sar e d a b) 0x0A (BitVec.ofInt 32 (va.toInt / 2 ^ k)) ∧
    zn (.tdiff e d a b) 0x34 (BitVec.ofInt 32 (((va.toNat : Int) - vb.toNat + 2 ^ 29) % 2 ^ 30 - 2 ^ 29))) ∧
  (∀ (s : State) (e : Fin 128) (d a b : Fin 16) (imm : BitVec 18),
    let x := s.engines[e]
    let va := x.get a
    let vb := x.get b
    let vi : Word := BitVec.ofInt 32 imm.toInt
    let sum := fun (u v : Word) => withCV (withZN x.flags (u + v)) (decide (2 ^ 32 ≤ u.toNat + v.toNat))
      (decide (u.toInt + v.toInt < -2 ^ 31 ∨ 2 ^ 31 ≤ u.toInt + v.toInt))
    s.Computes (.add e d a b) e (engWord3 0x00 d a b 0) [a, b] false d (va + vb) (sum va vb) ∧
    s.Computes (.addi e d a imm) e (engWord 0x10 d a imm.toNat) [a] false d (va + vi) (sum va vi) ∧
    s.Computes (.sub e d a b) e (engWord3 0x01 d a b 0) [a, b] false d (va - vb)
      (withCV (withZN x.flags (va - vb)) (decide (vb.toNat ≤ va.toNat)) (decide (va.toInt - vb.toInt < -2 ^ 31 ∨ 2 ^ 31 ≤ va.toInt - vb.toInt)))) ∧
  (∀ (s : State) (e : Fin 128) (d a : Fin 16) (imm : BitVec 18) (k pos width1 : BitVec 5) (high : Bool),
    let x := s.engines[e]
    let va := x.get a
    let p := pos.toNat
    let w := width1.toNat + 1
    let h := if high then x.h1 else x.h0
    let m : Word := BitVec.ofNat 32 ((2 ^ w - 1) * 2 ^ p)
    let zn := fun (i : Instr) (word : Word) (reads : List (Fin 16)) (readsH : Bool) (r : Word) => s.Computes i e word reads readsH d r (withZN x.flags r)
    zn (.popc e d a) (engWord 0x0C d a 0) [a] false (BitVec.ofNat 32 ((List.range 32).countP (fun j => va.getLsbD j))) ∧
    zn (.clz e d a) (engWord 0x0D d a 0) [a] false (BitVec.ofNat 32 ((List.range 32).countP (fun j => decide (va.toNat < 2 ^ j)))) ∧
    zn (.andi e d a imm) (engWord 0x11 d a imm.toNat) [a] false (va &&& BitVec.ofNat 32 imm.toNat) ∧
    zn (.orri e d a imm) (engWord 0x12 d a imm.toNat) [a] false (va ||| BitVec.ofNat 32 imm.toNat) ∧
    zn (.xori e d a imm) (engWord 0x13 d a imm.toNat) [a] false (va ^^^ BitVec.ofNat 32 imm.toNat) ∧
    zn (.shli e d a k) (engWord 0x14 d a k.toNat) [a] false (BitVec.ofNat 32 (va.toNat * 2 ^ k.toNat)) ∧
    zn (.shri e d a k) (engWord 0x15 d a k.toNat) [a] false (BitVec.ofNat 32 (va.toNat / 2 ^ k.toNat)) ∧
    zn (.sari e d a k) (engWord 0x16 d a k.toNat) [a] false (BitVec.ofInt 32 (va.toInt / 2 ^ k.toNat)) ∧
    zn (.lui e d imm) (engWord 0x17 d 0 imm.toNat) [] false (BitVec.ofNat 32 (imm.toNat * 2 ^ 14)) ∧
    zn (.ext e d a pos width1) (engWord 0x18 d a (p + 32 * width1.toNat)) [a] false (BitVec.ofNat 32 (va.toNat / 2 ^ p % 2 ^ w)) ∧
    zn (.exth e d high pos width1) (engWord 0x1A d (if high then 1 else 0) (p + 32 * width1.toNat)) [] true (BitVec.ofNat 32 (h.toNat / 2 ^ p % 2 ^ w)) ∧
    zn (.ins e d a pos width1) (engWord 0x19 d a (p + 32 * width1.toNat)) [d, a] false
      ((x.get d &&& ~~~m) ||| (BitVec.ofNat 32 (va.toNat * 2 ^ p) &&& m)))

/-- The eight branches (R136, Table 6.2). What the row of an engine does that is not due is the model's (log entry 17). CALL and RET (R101, R102, R136): 2
further cycles, unless they reach ENG.BUDGET at the target (R124). Loads and stores of data memory (R104, R137). Loads and stores of the tile table memory,
executed and stalled (R104, R105, R137, R139). That the operand `lost` names the row of a stall, and when the other row does nothing, is the model's (log
entry 17, DEDUCED). An access that an engine presents stalls where its bank has already served one in the cycle or is held, or an engine of its tile with a
lower number presents an access to it too; otherwise it wins the bank. Who presents an access is read off the word in X (the model's choice in log entry
17): an aligned access to the table memory itself, by an engine whose load-use stall and further cycles are over (R105, R139). -/
def Obligations.EngineBranchesCallsAndMemoryAccesses : Prop :=
  (∀ (s : State) (e : Fin 128) (a b : Fin 16) (flag : Fin 7) (disp : BitVec 14),
    let x := s.engines[e]
    let va := x.get a
    let vb := x.get b
    let onRegs := fun (i : Instr) (op : Nat) (taken : Prop) => s.BranchesOn i e (engWord3 op 0 a b disp.toNat) [a, b] taken disp
    let f : Fin 16 := ⟨flag.val, by omega⟩
    onRegs (.beq e a b disp) 0x20 (va = vb) ∧ onRegs (.bne e a b disp) 0x21 (va ≠ vb) ∧
    onRegs (.blt e a b disp) 0x22 (va.toInt < vb.toInt) ∧ onRegs (.bge e a b disp) 0x23 (vb.toInt ≤ va.toInt) ∧
    onRegs (.bltu e a b disp) 0x24 (va.toNat < vb.toNat) ∧ onRegs (.bgeu e a b disp) 0x25 (vb.toNat ≤ va.toNat) ∧
    s.BranchesOn (.bfs e flag disp) e (engWord3 0x26 f 0 0 disp.toNat) [] (x.flags.getLsbD flag.val = true) disp ∧
    s.BranchesOn (.bfc e flag disp) e (engWord3 0x27 f 0 0 disp.toNat) [] (x.flags.getLsbD flag.val = false) disp) ∧
  (∀ (s : State) (e : Fin 128) (disp : BitVec 14),
    let x := s.engines[e]
    let c := s.therm.cycles
    let target : Int := (x.pc.toNat : Int) + disp.toInt
    let n := 1 + x.waits [15] false
    s.Inv →
    (s.Ready e (engWord3 0x32 0 0 0 disp.toNat) [] false →
      (0 ≤ target → target ≤ 0x7FF → s.budgetReached e 3 = false → ∃ t : State, exec (.call e disp) s = .next t ∧
        s.Executed t e 3 { x.advanced c 3 2 (BitVec.ofInt 11 target) with v := x.vWith 15 (BitVec.ofNat 32 (x.pc.toNat + 1)) }) ∧
      (0 ≤ target → target ≤ 0x7FF → s.budgetReached e 3 = true → ∃ t : State, exec (.call e disp) s = .next t ∧
        s.WatchdogAt t e (BitVec.ofInt 11 target)) ∧
      (target < 0 ∨ 0x7FF < target → ∃ t : State, exec (.call e disp) s = .next t ∧ s.Trapped t e 6)) ∧
    (s.Ready e (engWord 0x33 0 0 0) [15] false →
      ((x.get 15).toNat ≤ 0x7FF → s.budgetReached e (n + 2) = false → ∃ t : State, exec (.ret e) s = .next t ∧
        s.Executed t e (n + 2) (x.advanced c (n + 2) 2 ((x.get 15).setWidth 11))) ∧
      ((x.get 15).toNat ≤ 0x7FF → s.budgetReached e (n + 2) = true → ∃ t : State, exec (.ret e) s = .next t ∧
        s.WatchdogAt t e ((x.get 15).setWidth 11)) ∧
      (0x7FF < (x.get 15).toNat → ∃ t : State, exec (.ret e) s = .next t ∧ s.Trapped t e 6))) ∧
  (∀ (s : State) (e : Fin 128) (d a : Fin 16) (imm : BitVec 18),
    s.LoadsData (.ldd e d a imm) e (engWord 0x28 d a imm.toNat) d a imm 4 ∧ s.LoadsData (.lddh e d a imm) e (engWord 0x29 d a imm.toNat) d a imm 2 ∧
    s.LoadsData (.lddb e d a imm) e (engWord 0x2A d a imm.toNat) d a imm 1 ∧ s.StoresData (.std e d a imm) e (engWord 0x2B d a imm.toNat) d a imm 4 ∧
    s.StoresData (.stdh e d a imm) e (engWord 0x2C d a imm.toNat) d a imm 2 ∧ s.StoresData (.stdb e d a imm) e (engWord 0x2D d a imm.toNat) d a imm 1) ∧
  (∀ (s : State) (e : Fin 128) (d a : Fin 16) (imm : BitVec 18),
    s.LoadsTable (.ldt e d a imm ·) e (engWord 0x2E d a imm.toNat) d a imm 4 ∧ s.LoadsTable (.ldth e d a imm ·) e (engWord 0x30 d a imm.toNat) d a imm 2 ∧
    s.StoresTable (.stt e d a imm ·) e (engWord 0x2F d a imm.toNat) d a imm 4 ∧ s.StoresTable (.stth e d a imm ·) e (engWord 0x31 d a imm.toNat) d a imm 2) ∧
  (∀ (s : State) (e : Fin 128) (op : Nat) (d a : Fin 16) (imm : BitVec 18),
    let x := s.engines[e]
    let ea := s.ea e a imm
    let size := if op < 0x30 then 4 else 2
    let bank := fun (f : Fin 128) => bankOf (s.engines[f]).wordEa
    let own := decide ((s.tiles[tileOfEng e]).banks[bank e] ≤ s.therm.cycles)
    (s.presents e = false → s.stalls e = false) ∧
    (s.presents e = true → own = true → (∀ f : Fin 128, tileOfEng f = tileOfEng e → f < e → s.presents f = true → bank f ≠ bank e) → s.stalls e = false) ∧
    (s.presents e = true → own = false → s.stalls e = true) ∧
    (∀ f : Fin 128, s.presents e = true → tileOfEng f = tileOfEng e → f < e → s.presents f = true → bank f = bank e → s.stalls e = true) ∧
    (0x2E ≤ op → op ≤ 0x31 → s.Ready e (engWord op d a imm.toNat) (if op = 0x2F ∨ op = 0x31 then [d, a] else [a]) false → x.pc.toNat < 0x7FF →
      x.wordEa = ea ∧ (s.presents e = true ↔ ea < 0x10000 ∧ ea % size = 0)))

/-- Reads of the port window (R104, R106, R138, Table 5.4): the value each register gives, and that no read but that of DROPPED changes more than the engine's
own registers; NOW lags device time by 0 to 8 ticks. Writes of the port window (R106, R108, R109, R138): registers take the value, read-only and unassigned
ones discard it, and PW_GO with privilege submits the write unless one is pending; without privilege it traps with PRIV. -/
def Obligations.EnginePortWindowActs : Prop :=
  (∀ (s : State) (e : Fin 128) (d a : Fin 16) (imm : BitVec 18),
    let x := s.engines[e]
    let ea := s.ea e a imm
    let n := 1 + x.waits [a] false
    let reads := fun (value : Nat) (x' : Engine) => ∃ t : State, exec (.ldt e d a imm false) s = .next t ∧
      s.Executed t e n { x'.advanced s.therm.cycles n 0 (x.pc + 1) with v := x.vWith d (BitVec.ofNat 32 value), loaded := .reg d }
    s.Inv → s.Ready e (engWord 0x2E d a imm.toNat) [a] false → x.pc.toNat < 0x7FF →
    (ea = 0x10000 → reads (e.val + 2 ^ 16 * s.rd pDevNumber) x) ∧
    (ea = 0x10004 → ∃ (t : State) (lag : Nat), lag ≤ 8 ∧ exec (.ldt e d a imm false) s = .next t ∧
      s.Executed { t with free := s.free } e n { x.advanced s.therm.cycles n 0 (x.pc + 1) with
        v := x.vWith d (((s.time.tick - BitVec.ofNat 64 lag).setWidth 30).setWidth 32), loaded := .reg d }) ∧
    (ea = 0x10008 → reads (x.queue.countP (fun q => decide (q.entered + 4 ≤ s.time.clock))) x) ∧
    (ea = 0x1000C → reads x.dropped { x with dropped := 0, flags := x.flags &&& 0x5F#7 }) ∧
    (ea = 0x10010 → reads (Nat.min (x.watchdog + n) 0xFFFF) x) ∧
    (ea = 0x10020 → reads x.accStart.toNat x) ∧ (ea = 0x10024 → reads x.accLength.toNat x) ∧ (ea = 0x10028 → reads x.accLaunch.toNat x) ∧
    (ea = 0x1002C → reads (x.accGo.status + 2 ^ 16 * bit x.accGo.pending) x) ∧
    (ea = 0x10030 → reads x.pwAddr.toNat x) ∧ (ea = 0x10034 → reads x.pwValue.toNat x) ∧
    (ea = 0x10038 → reads (x.pwGo.status + 2 ^ 16 * bit x.pwGo.pending) x) ∧
    (0x10014 ≤ ea → ea < 0x10020 → ea % 4 = 0 → reads 0 x) ∧ (0x1003C ≤ ea → ea < 0x10100 → ea % 4 = 0 → reads 0 x)) ∧
  (∀ (s : State) (e : Fin 128) (d a : Fin 16) (imm : BitVec 18),
    let x := s.engines[e]
    let ea := s.ea e a imm
    let n := 1 + x.waits [d, a] false
    let w := x.get d
    let x1 := x.advanced s.therm.cycles n 0 (x.pc + 1)
    let writes := fun (x' : Engine) => ∃ t : State, exec (.stt e d a imm false) s = .next t ∧ s.Executed t e n x'
    s.Inv → s.Ready e (engWord 0x2F d a imm.toNat) [d, a] false → x.pc.toNat < 0x7FF →
    (ea = 0x10020 → writes { x1 with accStart := BitVec.ofNat 32 (w.toNat % 2 ^ 30) }) ∧ (ea = 0x10024 → writes { x1 with accLength := w }) ∧
    (ea = 0x10028 → writes { x1 with accLaunch := BitVec.ofNat 32 (w.toNat % 2 ^ 30) }) ∧
    (ea = 0x10030 → writes { x1 with pwAddr := w }) ∧ (ea = 0x10034 → writes { x1 with pwValue := w }) ∧
    (0x10000 ≤ ea → ea < 0x10020 → ea % 4 = 0 → writes x1) ∧ (0x1003C ≤ ea → ea < 0x10100 → ea % 4 = 0 → writes x1) ∧
    (ea = 0x10038 → s.rd (pEngPriv e.val) ≠ 0 → x.pwGo.pending = false → ∃ t : State, s.Executed t e n { x1 with pwGo := ⟨x.pwGo.status, true⟩ } ∧
      exec (.stt e d a imm false) s = .next
        (({ t with keeper := { s.keeper with window := s.keeper.window ++ [⟨e, x.pwAddr, x.pwValue⟩] } } : State).raiseSignal s.aelkoIsland)) ∧
    (ea = 0x10038 → s.rd (pEngPriv e.val) ≠ 0 → x.pwGo.pending = true → ∃ t : State, exec (.stt e d a imm false) s = .next t ∧
      t.engines[e] = x1 ∧ (∀ f : Fin 128, f ≠ e → t.engines[f] = s.engines[f]) ∧ { t with engines := s.engines, params := s.params, fresh := s.fresh } = s ∧
      t.rd (pEngCntPortRefused e.val) = Nat.min (s.rd (pEngCntPortRefused e.val) + 1) 0xFFFFFFFF) ∧
    (ea = 0x1002C → s.rd (pEngPriv e.val) ≠ 0 → x.accGo.pending = false → ∃ t : State, s.Executed t e n { x1 with accGo := ⟨x.accGo.status, true⟩ } ∧
      exec (.stt e d a imm false) s = .next
        (t.receiveAccept ⟨0, s.extend30 (x.accStart.setWidth 30), x.accLength, s.extend30 (x.accLaunch.setWidth 30)⟩ (some e) 0)) ∧
    (ea = 0x1002C → s.rd (pEngPriv e.val) ≠ 0 → x.accGo.pending = true → ∃ t : State, exec (.stt e d a imm false) s = .next t ∧
      t.engines[e] = x1 ∧ (∀ f : Fin 128, f ≠ e → t.engines[f] = s.engines[f]) ∧ { t with engines := s.engines, params := s.params, fresh := s.fresh } = s ∧
      t.rd (pEngCntPortRefused e.val) = Nat.min (s.rd (pEngCntPortRefused e.val) + 1) 0xFFFFFFFF) ∧
    (ea = 0x1002C ∨ ea = 0x10038 → s.rd (pEngPriv e.val) = 0 → ∃ t : State, exec (.stt e d a imm false) s = .next t ∧ s.Trapped t e 5))

/-- POPH and PEEKH (R114, R124, R141): the place that POPH frees takes a copy that waits for one in its cycle; and what YIELD and WAITT do (R118, R119, R124,
R144). EMITP and EMITS hand on a body of register b above register a (R115, R116, R142). The queue takes those of one cycle in ascending order of engine:
the row of an engine waits, and does nothing, while a lower one of its tile has the same instruction in X (log entry 17). EMITS stalls a cycle on a full
queue. -/
def Obligations.EngineStreamWaitsAndOutputs : Prop :=
  (∀ (s : State) (e : Fin 128) (a : Fin 16) (imm : BitVec 18) (lag : Fin 9),
    let x := s.engines[e]
    let x1 := x.advanced s.therm.cycles 1 0 (x.pc + 1)
    let vis := x.queue.filter (fun (q : QueueWord) => q.entered + 4 ≤ s.time.clock)
    let n := 1 + x.waits [a] false
    let x2 := x.advanced s.therm.cycles n 0 (x.pc + 1)
    let target : BitVec 30 := (x.get a + imm.signExtend 32).setWidth 30
    let now : BitVec 30 := (s.time.tick - BitVec.ofNat 64 lag.val).setWidth 30
    s.Inv → x.pc.toNat < 0x7FF →
    (s.Ready e (engWord 0x38 0 0 0) [] false →
      (vis = [] → (∃ t : State, exec (.poph e) s = .next t ∧ s.Executed t e 1 { x1 with flags := x.flags ||| 0x10#7, loaded := .hitRegs })) ∧
      ∀ (q : QueueWord) (qs : List QueueWord), vis = q :: qs → (∃ t : State, exec (.poph e) s = .next t ∧ s.Executed t e 1 { x1 with
        h0 := q.word.setWidth 32, h1 := (q.word >>> 32).setWidth 32, queue := x.queue.tail ++ x.late.take 1, late := x.late.drop 1
        flags := x.flags &&& 0x6F#7, watchdog := 0, loaded := .hitRegs })) ∧
    (s.Ready e (engWord 0x39 0 0 0) [] false →
      (vis = [] → (∃ t : State, exec (.peekh e) s = .next t ∧ s.Executed t e 1 { x1 with flags := x.flags ||| 0x10#7, loaded := .hitRegs })) ∧
      ∀ (q : QueueWord) (qs : List QueueWord), vis = q :: qs → (∃ t : State, exec (.peekh e) s = .next t ∧ s.Executed t e 1 { x1 with
        h0 := q.word.setWidth 32, h1 := (q.word >>> 32).setWidth 32, flags := x.flags &&& 0x6F#7, watchdog := 0, loaded := .hitRegs })) ∧
    (s.Ready e (engWord 0x3E 0 0 0) [] false →
      (∃ t : State, exec (.yield e) s = .next t ∧ s.Executed t e 1 (if vis = [] then { x1 with state := .sleeping, watchdog := 0 } else x1))) ∧
    (s.Ready e (engWord 0x36 0 a imm.toNat) [a] false →
      (∃ t : State, exec (.waitt e a imm lag) s = .next t ∧ s.Executed t e n (if (target - now).toInt ≤ 0 then { x2 with flags := x.flags ||| 0x40#7 }
        else { x2 with flags := x.flags &&& 0x3F#7, state := .waiting, waitTarget := target, watchdog := 0 })))) ∧
  (∀ (s : State) (e : Fin 128) (a b : Fin 16),
    let x := s.engines[e]
    let u := tileOfEng e
    let y := s.tiles[u]
    let n := 1 + x.waits [a, b] false
    let body : DWord := x.get b ++ x.get a
    s.Inv → x.pc.toNat < 0x7FF →
    (s.emitsFirst e 0x3A = true → exec (.emitp e a b) s = .next s) ∧ (s.emitsFirst e 0x3B = true → exec (.emits e a b) s = .next s) ∧
    (∀ op : Nat, s.emitsFirst e op = true ↔
      ∃ f : Fin 128, tileOfEng f = u ∧ f < e ∧ (s.engines[f]).word.toNat / 2 ^ 26 = op ∧ (s.engines[f]).inX s.therm.cycles = true) ∧
    (s.emitsFirst e 0x3A = false → s.Ready e (engWord3 0x3A 0 a b 0) [a, b] false →
      (y.prims.length < 4 → ∃ t : State, exec (.emitp e a b) s = .next t ∧ t.engines[e] = x.advanced s.therm.cycles n 0 (x.pc + 1) ∧
        t.tiles[u] = { y with prims := y.prims ++ [⟨BitVec.ofNat 16 (s.rd pDevNumber), BitVec.ofNat 7 e.val, BitVec.ofNat 4 (s.rd pDevArray), s.time.tick, body⟩] } ∧
        t.rd (pEngCntPrim e.val) = Nat.min (s.rd (pEngCntPrim e.val) + 1) 0xFFFFFFFF ∧
        { t with engines := s.engines, tiles := s.tiles, params := s.params, fresh := s.fresh } = s ∧ ∀ v : Fin 16, v ≠ u → t.tiles[v] = s.tiles[v]) ∧
      (4 ≤ y.prims.length → ∃ t : State, exec (.emitp e a b) s = .next t ∧ t.engines[e] = x.advanced s.therm.cycles n 0 (x.pc + 1) ∧
        (∀ f : Fin 128, f ≠ e → t.engines[f] = s.engines[f]) ∧ { t with engines := s.engines, params := s.params, fresh := s.fresh, fd := s.fd } = s ∧
        t.rd (pEngCntPrimLost e.val) = Nat.min (s.rd (pEngCntPrimLost e.val) + 1) 0xFFFFFFFF)) ∧
    (s.emitsFirst e 0x3B = false → s.Ready e (engWord3 0x3B 0 a b 0) [a, b] false → 8 ≤ y.records.length → ∃ t : State, exec (.emits e a b) s = .next t ∧
      t.engines[e] = x.heldUp s.therm.cycles n ∧ (∀ f : Fin 128, f ≠ e → t.engines[f] = s.engines[f]) ∧ { t with engines := s.engines, params := s.params, fresh := s.fresh } = s) ∧
    (s.emitsFirst e 0x3B = false → s.Ready e (engWord3 0x3B 0 a b 0) [a, b] false → y.records.length < 8 → ∃ t : State, exec (.emits e a b) s = .next t ∧
      t.engines[e] = x.advanced s.therm.cycles n 0 (x.pc + 1) ∧
      t.tiles[u] = { y with records := y.records ++ [⟨e.val, body, s.time.tick.setWidth 30, s.red.engineSeq[e]⟩] } ∧
      t.rd (pEngCntEmits e.val) = Nat.min (s.rd (pEngCntEmits e.val) + 1) 0xFFFFFFFF ∧
      t.red.engineSeq[e] = s.red.engineSeq[e] + 1 ∧ (∀ f : Fin 128, f ≠ e → t.red.engineSeq[f] = s.red.engineSeq[f]) ∧
      (∀ v : Fin 16, v ≠ u → t.tiles[v] = s.tiles[v]) ∧
      { t with engines := s.engines, tiles := s.tiles, params := s.params, fresh := s.fresh, red := { t.red with engineSeq := s.red.engineSeq } } = s))

/-- RAISE posts its record and HALT ends execution (R117, R123, R143, R144). The events of an engine that are no instructions (R118, R119, R124, R125, R130). A
fetched word with one flipped bit is corrected and counted, and the instruction then executes as from the clean word; an uncorrectable one is counted,
logged and posted, and the instruction traps with ECC (R110, R124, R288). -/
def Obligations.EngineEventsAndStates : Prop :=
  (∀ (s : State) (e : Fin 128) (a : Fin 16) (imm : BitVec 6),
    let x := s.engines[e]
    let n := 1 + x.waits [a] false
    s.Inv →
    (s.Ready e (engWord 0x3C 0 a imm.toNat) [a] false → x.pc.toNat < 0x7FF → (s.fd.sources.filter (fun r => r.1 = 256 + e.val)).length < 4 →
      ∃ t : State, exec (.raise e a imm) s = .next t ∧ s.Executed { t with fd := s.fd } e n (x.advanced s.therm.cycles n 0 (x.pc + 1)) ∧
        t.fd = { s.fd with sources := s.fd.sources ++ [(256 + e.val, eventRecord s.time.tick false (256 + e.val) (0x40 + imm.toNat) ((x.get a).toNat % 2 ^ 16))] }) ∧
    (s.Ready e (engWord 0x3F 0 0 0) [] false → (s.fd.sources.filter (fun r => r.1 = 256 + e.val)).length < 4 →
      ∃ t : State, exec (.halt e) s = .next t ∧ s.Executed { t with fd := s.fd } e 1 { x.advanced s.therm.cycles 1 0 x.pc with state := .halted } ∧
        t.fd = { s.fd with sources := s.fd.sources ++ [(256 + e.val, eventRecord s.time.tick false (256 + e.val) 2 x.pc.toNat)] })) ∧
  (∀ (s : State) (e : Fin 128) (lag : Fin 9),
    let x := s.engines[e]
    let now : BitVec 30 := (s.time.tick - BitVec.ofNat 64 lag.val).setWidth 30
    s.on (tileOfEng e).val = true →
    (x.state = .running → x.ready ≤ s.therm.cycles → legalWord x.word = false → x.pc.toNat ∉ x.imemBad →
      (x.pc.toNat ∉ x.imemCe → ∃ t : State, exec (.illegalInstruction e) s = .next t ∧ s.Trapped t e 2) ∧
      (x.pc.toNat ∈ x.imemCe → ∃ t : State, exec (.illegalInstruction e) s = .next t ∧ (s.correctFetch e).Trapped t e 2)) ∧
    (x.state ≠ .running ∨ s.therm.cycles < x.ready ∨ legalWord x.word = true → exec (.illegalInstruction e) s = .next s) ∧
    (x.state = .running → x.ready ≤ s.therm.cycles → x.loaded = .none → x.pc.toNat ∉ x.imemBad → x.pc.toNat ∉ x.imemCe →
      s.rd (pEngBudget e.val) ≠ 0 → s.rd (pEngBudget e.val) = x.watchdog + 1 →
      (legalWord x.word = true → s.ownTrap e = none → 0 ≤ x.target → x.target ≤ 0x7FF → s.stalls e = false →
        ∃ t : State, exec (.watchdogExpiry e) s = .next t ∧ (s.engCycles e 1).Trapped t e 1) ∧
      (legalWord x.word = false → ∃ t : State, exec (.watchdogExpiry e) s = .next t ∧ s.Trapped t e 2) ∧
      (legalWord x.word = true → s.ownTrap e = some (.inl 3) → ∃ t : State, exec (.watchdogExpiry e) s = .next t ∧ s.Trapped t e 3)) ∧
    (x.state = .trapped → x.restarts < s.rd (pEngAutorestart e.val) → x.trapCycle + 16 ≤ s.therm.cycles →
      ∃ t : State, exec (.automaticRestart e) s = .next t ∧ t.engines[e] = { x with
        state := .running, queue := [], late := [], v := Vector.replicate 16 0, h0 := 0, h1 := 0, flags := 0, watchdog := 0, restarts := x.restarts + 1
        pc := BitVec.ofNat 11 (s.rd (pEngEntry e.val)), loaded := .none, ready := s.therm.cycles } ∧
        (∀ f : Fin 128, f ≠ e → t.engines[f] = s.engines[f]) ∧
        t = ({ s with engines := t.engines } : State).postLedger (256 + e.val) 5 (x.restarts + 1)) ∧
    (x.state = .waiting → (x.waitTarget - now).toInt ≤ 0 → exec (.waittWake e lag) s = .next (s.setEng e { x with state := .running })) ∧
    (x.state = .sleeping → x.queue.filter (fun (q : QueueWord) => q.entered + 4 ≤ s.time.clock) ≠ [] →
      exec (.yieldWake e) s = .next (s.setEng e { x with state := .running, ready := s.therm.cycles + 2 }))) ∧
  (∀ (s : State) (e : Fin 128) (i : Instr) (w : Word) (d a b : Fin 16) (disp : BitVec 14),
    let x := s.engines[e]
    let clean : State := (s.setEng e { x with imemCe := x.imemCe.filter (fun k => k ≠ x.pc.toNat) }).bump pMemCntOnchipCe
    (i = .add e d a b ∧ w = engWord3 0x00 d a b 0) ∨ (i = .beq e a b disp ∧ w = engWord3 0x20 0 a b disp.toNat) ∨ (i = .ret e ∧ w = engWord 0x33 0 0 0) ∨
      (i = .poph e ∧ w = engWord 0x38 0 0 0) ∨ (i = .halt e ∧ w = engWord 0x3F 0 0 0) →
    s.on (tileOfEng e).val = true → x.state = .running → x.word = w → x.ready + x.loadUse ≤ s.therm.cycles →
    (x.pc.toNat ∈ x.imemCe → exec i s = exec i clean) ∧
    (x.pc.toNat ∈ x.imemBad → x.pc.toNat ∉ x.imemCe → s.rd (pEngBudget e.val) = 0 →
      ∃ t : State, exec i s = .next t ∧ (s.onchipUe e.val x.pc.toNat).Trapped t e 4))

/-! ### Hit channels (spec/02) -/

/-- DISCRIMINATOR_EDGE (R28–R32, R36, R50): on a RUNNING channel of an armed device a rise of the input above the upper switching point, in its polarity and in
analogue or digital mode, takes a derandomiser entry and starts a blind interval, a fall below the lower one times the trailing edge of the open hit; on a
DISABLED channel only the input changes. BLIND_INTERVAL_END and BLIND_EXTENSION_END (Table 2.3, R32, R33). -/
def Obligations.EdgesAndBlindIntervalsMakeHits : Prop :=
  (∀ (s : State) (ch : Fin 256) (v : Int) (raw : BitVec 10),
    let c := s.chans[ch]
    let in_ : Int := if c.front.polarity = 0 then v else -v
    let mid : Int := if c.front.mode = 2 then 0 else 25 * signed 12 c.front.thresh
    let half : Int := if c.front.mode = 2 then 1600 else 32 * c.front.hyst
    let edge : Edge := ⟨s.time.tick, s.time.fine, s.time.epoch, raw⟩
    let hit : HitEntry :=
      { lead := edge, trail := none, leadFine := none, trailFine := none, status := .openHit, pileup := false, offset := c.offset }
    let up := { c with volts := v, level := true, blind := some ⟨true, false, false⟩, stuckFrom := some s.time.clock }
    s.on (tileOf ch).val = true →
    (c.state = .disabled → exec (.discriminatorEdge ch v raw) s = .next (s.setChan ch { c with volts := v })) ∧
    (c.state = .running → s.streaming = true → c.blind = none → c.level = false → mid + half < in_ → c.entries.length < 8 →
      exec (.discriminatorEdge ch v raw) s = .next (s.setChan ch { up with entries := c.entries ++ [hit] })) ∧
    (c.state = .running → s.streaming = true → c.blind = none → c.level = false → mid + half < in_ → 8 ≤ c.entries.length →
      exec (.discriminatorEdge ch v raw) s = .next ((s.setChan ch { up with entries := c.entries.tail ++ [hit] }).bumpPostCount (pChanCntLost ch.val) ch.val 1)) ∧
    (c.state = .running → s.streaming = true → c.blind = none → c.level = true → in_ < mid - half → (∃ h ∈ c.entries, h.status = .openHit) →
      exec (.discriminatorEdge ch v raw) s = .next (s.setChan ch { c with
        volts := v, level := false, blind := some ⟨false, false, false⟩
        entries := c.entries.map (fun h => if h.status = .openHit then { h with trail := some edge, trailFine := none } else h) })) ∧
    (c.state = .running → s.streaming = true → ∀ b : Blind, c.blind = some b → c.level = false → mid + half < in_ →
      exec (.discriminatorEdge ch v raw) s = .next (s.setChan ch { c with volts := v, level := true, blind := some { b with transition := true } }))) ∧
  (∀ (s : State) (ch : Fin 256) (b : Blind),
    let c := s.chans[ch]
    let s0 := s.setChan ch { c with blind := none }
    let mark := c.entries.map (fun h => if h.status = .openHit then { h with pileup := true } else h)
    c.blind = some b →
    (b.extended = false → b.leading = true → c.level = true → b.transition = false → ∀ r : Bool, exec (.blindIntervalEnd ch r) s = .next s0) ∧
    (b.extended = false → b.leading = true → c.level = true → b.transition = true →
      ∀ r : Bool, exec (.blindIntervalEnd ch r) s = .next (s.setChan ch { c with blind := none, entries := mark })) ∧
    (b.extended = false → b.leading = true → c.level = false → exec (.blindIntervalEnd ch true) s = .next (s0.closeHit ch .totZero true)) ∧
    (b.extended = false → b.leading = false → c.level = false → ∀ r : Bool, exec (.blindIntervalEnd ch r) s = .next (s0.closeHit ch .normal b.transition)) ∧
    (b.extended = false → b.leading = false → c.level = true → exec (.blindIntervalEnd ch true) s = .next (s.setChan ch { c with
      blind := none
      entries := c.entries.map (fun h => if h.status = .openHit then { h with trail := none, trailFine := none, pileup := true } else h) })) ∧
    (b.extended = true → b.leading = true → c.level = false → exec (.blindExtensionEnd ch) s = .next s0) ∧
    (b.extended = true → b.leading = false → c.level = true → exec (.blindExtensionEnd ch) s = .next s0) ∧
    (b.extended = true → b.leading = true → c.level = true → exec (.blindExtensionEnd ch) s = .next ((s0.bump (pChanCntPileup ch.val)).waitInactive ch)) ∧
    (b.extended = true → b.leading = false → c.level = false → exec (.blindExtensionEnd ch) s = .next (s0.closeHit ch .totZero true)))

/-- The hit word of Table 2.5 and its ToT and LONG (R37–R39); both edges take the offset in force at the leading edge (R38). SAR_SLOT (R34–R36, R41, R42): the
oldest waiting cell of a channel with a table is linearised; a code outside the span is counted; a complete hit goes to the merger while it has room.
REORDER_HOLD_END (R19): after 80 ticks the word that has waited longest leaves the merger, and with it every word held with an earlier time, in the order of
their times, unless a closed hit from before a step that the word stands behind has still to come (R80): they enter the tile's output, which drains in its
order. -/
def Obligations.HitsAreConvertedOfferedAndReleased : Prop :=
  (∀ (ch : Fin 256) (h : HitEntry) (lf tf : BitVec 10) (e : Edge),
    let lead : Int := (h.lead.tick.toNat : Int) * 1024 + h.lead.base.toNat + lf.toNat + h.offset
    let trail : Int := (e.tick.toNat : Int) * 1024 + e.base.toNat + tf.toNat + h.offset
    let w := (hitWord ch.val h).1.toNat
    h.leadFine = some lf → h.trail = some e → h.trailFine = some tf → h.status = .normal → lead ≤ trail →
    (hitWord ch.val h).2 = lead ∧
    w / 2 ^ 56 = ch.val ∧ (w / 2 ^ 26 % 2 ^ 30 : Nat) = lead / 1024 % 2 ^ 30 ∧ (w / 2 ^ 16 % 2 ^ 10 : Nat) = lead % 1024 ∧
    (trail - lead < 65536 → (w / 2 ^ 4 % 2 ^ 12 : Nat) = (trail - lead) / 16 ∧ w / 2 ^ 3 % 2 = 0) ∧
    (65536 ≤ trail - lead → (w / 2 ^ 4 % 2 ^ 12 : Nat) = min 4095 ((trail - lead) / 1024) ∧ w / 2 ^ 3 % 2 = 1) ∧
    w / 2 ^ 2 % 2 = (if h.pileup then 1 else 0) ∧ w % 2 ^ 2 = 0) ∧
  (∀ (s : State) (ch : Fin 256) (h : HitEntry) (hs : List HitEntry) (tab : LinTable),
    let c := s.chans[ch]
    let raw := h.lead.raw.toNat
    let u := tileOf ch
    let y := s.tiles[u]
    s.on u.val = true → c.entries = h :: hs → c.table = some tab →
    (h.leadFine = none → h.status = .openHit → tab.spanLow ≤ raw → raw ≤ tab.spanHigh →
      exec (.sarSlot ch) s = .next (s.setChan ch { c with entries := { h with leadFine := some (BitVec.ofNat 10 (tab.fine raw)) } :: hs })) ∧
    (h.leadFine = none → h.status = .openHit → tab.spanLow ≤ tab.spanHigh → tab.spanHigh < raw →
      exec (.sarSlot ch) s = .next ((s.bumpPost (pChanCntOutrange ch.val) ch.val 6 raw).setChan ch { c with entries := { h with leadFine := some 0 } :: hs })) ∧
    (h.ready = true → hs = [] → (h.trail = none ∨ h.trailFine ≠ none) → y.held.length + y.output.length < 64 → y.lastLeft = none →
      exec (.sarSlot ch) s = .next (({ s with chans := s.chans.set ch.val { c with entries := [] } } : State).setTile u { y with
        held := y.held ++ [⟨(hitWord ch.val h).1, (hitWord ch.val h).2, 2 * h.lead.epoch, s.time.clock⟩] }))) ∧
  (∀ (s : State) (tile : Fin 16) (h : HeldWord) (hs : List HeldWord),
    s.on tile.val = true → (s.tiles[tile]).held = h :: hs → h.since + 80 ≤ s.time.clock → s.barred tile h = false →
    ∃ (t : State) (gone : List HeldWord), exec (.reorderHoldEnd tile) s = .next t ∧
      gone.Perm (hs.filter (fun x => keyLt (x.rank, x.time) (h.rank, h.time))) ∧ gone.Pairwise (fun a b => keyLt (b.rank, b.time) (a.rank, a.time) = false) ∧
      ((s.releaseUpTo tile h).tiles[tile]).output = (s.tiles[tile]).output ++ (gone ++ [h]).map (fun x => x.word) ∧ t = (s.releaseUpTo tile h).drainOutput tile ∧
      (t.tiles[tile]).held = hs.filter (fun x => !keyLt (x.rank, x.time) (h.rank, h.time)) ∧
      t.time = s.time ∧ t.fd.mbMem = s.fd.mbMem ∧ t.mram = s.mram ∧ t.chans = s.chans)

/-- The timers of a channel (R45, R49, R50, R52, R53): STUCK_LIMIT_EXPIRY quarantines unless the trailing edge has come, AUTOMATIC_READMISSION readmits,
BLANK_END lets the channel wait for an inactive input. RECALIBRATION_START, HISTOGRAM_COMPLETE and RECALIBRATION_ABANDON (R43, R45, R46, R51): the channel
whose turn it is goes to the calibration source; a complete run writes its image in a batch of 67 words and leaves it in the last 2,048 ticks of its blank
with the new table, a failed or abandoned one with the old table. That a due channel is taken at once whatever TILE.CAL_PERIOD holds, and that CALSRC_FAULT
is posted where check 6 is the first that fails, are the model's choices of log entry 74; that the image is a batch of its own, and that the run goes on
while it is deferred, those of log entry 21. -/
def Obligations.ChannelTimersAndRecalibrationRun : Prop :=
  (∀ (s : State) (ch : Fin 256) (b : Blank) (f : Nat),
    let c := s.chans[ch]
    (s.on (tileOf ch).val = true → s.streaming = true → c.stuckFrom = some f → f + s.rd (pChanStuckLimit ch.val) ≤ s.time.clock → c.state = .running →
      (∃ h ∈ c.entries, h.status = .openHit ∧ h.trail = none) → exec (.stuckLimitExpiry ch) s = .next ((s.closeHit ch .stuck false).quarantine ch 1)) ∧
    (c.state = .running → (∀ h ∈ c.entries, h.status = .openHit → h.trail ≠ none) → exec (.stuckLimitExpiry ch) s = .next s) ∧
    (s.on (tileOf ch).val = true → s.streaming = true → c.stuckFrom = some f → f + s.rd (pChanStuckLimit ch.val) ≤ s.time.clock → c.state = .waitInactive →
      exec (.stuckLimitExpiry ch) s = .next (s.quarantine ch 2)) ∧
    (c.state = .quarantined → s.streaming = true → s.rd (pChanAutoreadmit ch.val) = 1 → c.inactiveFrom = some f → f + 1024 ≤ s.time.clock →
      exec (.automaticReadmission ch) s = .next (s.readmit ch 1)) ∧
    (c.state = .blanked → c.blank = some b → b.ends ≤ s.time.clock → b.emitted = false → c.calOutcome = none → c.calWaiting = false →
      c.level = false → ∃ t : State, exec (.blankEnd ch) s = .next t ∧
        t = s.setChan ch { c with state := .running, blank := none, blind := none, stuckFrom := none, calOutcome := none }) ∧
    (c.state = .blanked → c.blank = some b → b.ends ≤ s.time.clock → b.emitted = false → c.calOutcome = some 3 → c.calWaiting = false →
      c.level = false → ∃ t : State, exec (.blankEnd ch) s = .next t ∧ (t.chans[ch]).state = .running ∧ (t.chans[ch]).blank = none ∧
        (t.chans[ch]).calOutcome = none ∧ { t with fd := s.fd, params := s.params, fresh := s.fresh, chans := s.chans } = s ∧
        t.fd = (s.post ch.val 5 3).fd ∧ t.params = (s.post ch.val 5 3).params)) ∧
  (∀ (s v : State) (ch : Fin 256) (hist : List Nat) (moved : Int) (source f : Nat) (tab : LinTable),
    let u := tileOf ch
    let c := s.chans[ch]
    let built := buildTable hist (2 ^ s.rd (pTileCalEdges u.val)) moved source 60 100 ch.val (signed 16 (s.rd (pTileTemp u.val))) (s.rd (pTileTacTrim u.val))
    (s.on u.val = true → s.aelkoRuns = true → (∀ k : Fin 16, (s.chans[chanOf u k]).state ≠ .calibrating) → c.calDue = true →
      (∀ k : Fin 16, chanOf u k ≠ ch → (s.chans[chanOf u k]).calDue = false) → (∀ k : Fin 16, (s.chans[chanOf u k]).calWaiting = false) → (c.state = .running ∨ c.state = .waitInactive) →
      exec (.recalibrationStart u) s = .next (s.startCal ch) ∧ ((s.startCal ch).chans[ch]).state = .calibrating) ∧
    (c.state = .calibrating → s.on u.val = true → s.aelkoFree = true → built = .inr tab → s.tryBatch 67 = (true, v) →
      exec (.histogramComplete ch hist moved source) s = .next ((({ v with mram := { v.mram with linImages := sset ch.val tab.image v.mram.linImages } } : State).modChan ch
        (fun x => { x with table := some tab, tableBuilt := some s.time.clock, calPosted := false })).endCal ch 0)) ∧
    (c.state = .calibrating → s.on u.val = true → s.aelkoFree = true → built = .inr tab → s.power.cutting = false → s.tryBatch 67 = (false, v) →
      exec (.histogramComplete ch hist moved source) s = .next v) ∧
    (c.state = .calibrating → s.on u.val = true → s.aelkoFree = true → built = .inl 6 →
      exec (.histogramComplete ch hist moved source) s = .next ((s.post (384 + u.val) 2 source).endCal ch 6)) ∧
    (c.state = .calibrating → s.on u.val = true → s.aelkoFree = true → built = .inl 2 → exec (.histogramComplete ch hist moved source) s = .next (s.endCal ch 2)) ∧
    (c.state = .calibrating → c.calStart = some f → f + secondTicks ≤ s.time.clock → exec (.recalibrationAbandon ⟨ch.val, by omega⟩) s = .next (s.endCal ch 7)) ∧
    ((s.endCal ch 7).chans[ch]).state = .blanked ∧ ((s.endCal ch 7).chans[ch]).table = c.table ∧ ((s.endCal ch 7).chans[ch]).calOutcome = some 7)

/-! ### Reference inputs and outputs (spec/03) -/

/-- REFIN_EDGE (R57, R58, R61, R62, R63, R65): a selected edge is stamped where the one of the two TACs whose turn it is is free, 25 ns after its last edge;
else it is only counted. In frequency mode an edge before the boundary is counted, and the first at or after the boundary opens the gate, or closes it and
opens the next; a pair closer than 4.5 ns sets OVERSPEED. In stamp mode the stamp is offered to the delay units. Nothing is taken with the input off, with
PD31 off or while the stamper calibrates. GATE_RESULT and GATE_BOUNDARY (R62, R63): the frequency, count, span and phase of a gate that closed with a stamp;
the invalid LOS result, of free values, of one with no edge, whose gate goes on awaiting its closing edge; REFIN_FREQ_SNAPSHOT copies a result into its
items. When a result enters the items, and what LOS leaves of an open gate, are the model's (log entry 75). -/
def Obligations.ReferenceGatesMeasure : Prop :=
  (∀ (s : State) (n : Fin 4) (raw : BitVec 10),
    let m : Fin 5 := ⟨n.val, by omega⟩
    let st := s.ref.stampers[m]
    let g := s.ref.gates[n]
    let f := s.stampFine m raw
    let wall := s.time.clock * 1024 + f
    let time : Int := (s.time.tick.toNat : Int) * 1024 + s.time.fine.toNat + f
    let next := s.nextBoundary n time
    let seen := fun (tacs : List Nat) => ({ s with ref := { s.ref with stampers := s.ref.stampers.set m.val { st with lastEdge := some wall, tacs := tacs } } } : State)
    let stamped := seen ((if st.tacs.length < 2 then st.tacs else st.tacs.tail) ++ [wall])
    let free := st.tacs.length < 2 ∨ ∃ l, st.tacs.head? = some l ∧ 262144 ≤ (wall - l) * 10
    let gates := fun (u : State) (g' : Gate) => ({ u with ref := { u.ref with gates := s.ref.gates.set n.val g' } } : State)
    (s.on 31 = false ∨ s.rd (pRefinMode n.val) = 0 ∨ st.calibrating = true → exec (.refinEdge m raw) s = .next s) ∧
    (s.on 31 = true → st.calibrating = false → (∀ l, st.lastEdge = some l → 4718592 ≤ (wall - l) * 1000) → free →
      (s.rd (pRefinMode n.val) = 1 → time < g.boundary → exec (.refinEdge m raw) s = .next (gates stamped { g with edges := g.edges + 1 })) ∧
      (s.rd (pRefinMode n.val) = 1 → g.boundary ≤ time → g.opened = none →
        exec (.refinEdge m raw) s = .next (gates stamped { g with
          opened := some time, edges := 0, boundary := next, lostTo := next, noStamp := false, overspeed := false, step := false
          holdover := s.inHoldover, calibrated := false })) ∧
      (s.rd (pRefinMode n.val) = 1 → g.boundary ≤ time → g.closing = none → ∀ t0 : Int, g.opened = some t0 →
        exec (.refinEdge m raw) s = .next (gates stamped { g with
          closing := some ⟨t0, g.boundary, some time, g.edges + 1, g.sound, g.flags⟩, opened := some time, boundary := next, lostTo := next, edges := 0
          first := false, noStamp := false, overspeed := false, step := false, holdover := s.inHoldover, calibrated := false })) ∧
      (s.rd (pRefinMode n.val) = 2 → exec (.refinEdge m raw) s = .next ((stamped.dmStart (5 + n.val) time).dmStop (256 + n.val) time))) ∧
    (s.on 31 = true → st.calibrating = false → s.rd (pRefinMode n.val) = 1 → time < g.boundary →
      (¬ free → (∀ l, st.lastEdge = some l → 4718592 ≤ (wall - l) * 1000) →
        exec (.refinEdge m raw) s = .next (gates ((seen st.tacs).bump (pRefinCntNostamp n.val)) { g with edges := g.edges + 1 })) ∧
      (free → g.overspeed = false → ∀ l, st.lastEdge = some l → l < wall → (wall - l) * 1000 < 4718592 →
        exec (.refinEdge m raw) s = .next
          (gates ((gates stamped { g with overspeed := true }).post (453 + n.val) 3 g.seq.toNat) { g with overspeed := true, edges := g.edges + 1 })))) ∧
  (∀ (s : State) (n : Fin 4) (b t0 t1 : Int) (edges flags : Nat) (sound : Bool),
    let g := s.ref.gates[n]
    let p := 2 ^ s.rd (pRefinPrescale n.val)
    let len : Int := (s.rd (pRefinGate n.val) * 2 ^ 20 : Nat)
    let f : Int := (p * edges * 2 ^ 20 * 10 ^ 6 * 2 ^ 24 : Nat) / (t1 - t0)
    let done : Gate := { g with
      closing := none, seq := g.seq + 1, freq := BitVec.ofInt 64 f, count := BitVec.ofNat 48 edges, span := BitVec.ofInt 64 (t1 - t0)
      phase := BitVec.ofInt 32 (t1 - b), status := BitVec.ofNat 16 ((if sound then 1 else 0) + flags), lost := false }
    let stood := fun (w : Nat) (now : Bool) => if now || g.late.any (fun x => decide (x.1 = w ∧ g.lostTo ≤ x.2)) then w else 0
    let silent : Gate := { g with
      lostTo := g.lostTo + len, first := g.first && g.opened.isSome, seq := g.seq + 1, lost := true
      status := BitVec.ofNat 16 (2 + (stood 8 false + stood 16 s.inHoldover + stood 32 (s.gateCalibrating n)))
      freq := Config.freeWord s.free, count := 0, span := Config.freeWord (s.free + 1), phase := (Config.freeWord (s.free + 2)).setWidth 32 }
    let gates := fun (u : State) (g' : Gate) => ({ u with ref := { u.ref with gates := u.ref.gates.set n.val g' } } : State)
    (g.closing = some ⟨t0, b, some t1, edges, sound, flags⟩ → t0 < t1 →
      (g.lost = false → exec (.gateResult n) s = .next (gates s done)) ∧
      (g.lost = true → exec (.gateResult n) s = .next ((gates s done).post (453 + n.val) 2 (g.seq + 1).toNat))) ∧
    (s.on 31 = true → s.rd (pRefinMode n.val) = 1 → g.closing = none → g.lostTo + len ≤ (s.time.tick.toNat : Int) * 1024 + s.time.fine.toNat →
      g.lost = true → exec (.gateBoundary n) s = .next (gates { s with free := s.free + 3 } silent)) ∧
    (s.on 31 = true → s.rd (pRefinMode n.val) = 1 → g.closing = none → g.lostTo + len ≤ (s.time.tick.toNat : Int) * 1024 + s.time.fine.toNat →
      g.lost = false → ∃ t : State, exec (.gateBoundary n) s = .next t ∧ t.ref.gates[n] = silent ∧
        (∀ k : Fin 4, k ≠ n → t.ref.gates[k] = s.ref.gates[k]) ∧ t.fd = (s.post (453 + n.val) 1 (g.seq + 1).toNat).fd ∧
        { t with ref := s.ref, fd := s.fd, params := s.params, fresh := s.fresh, free := s.free } = s ∧ { t.ref with gates := s.ref.gates } = s.ref) ∧
    (s.Inv → s.on 31 = true → ∃ t : State, exec (.refinFreqSnapshot n) s = .next t ∧
      t.rd (pRefinFreqLo n.val) + 2 ^ 32 * t.rd (pRefinFreqHi n.val) = g.freq.toNat ∧
      t.rd (pRefinCountLo n.val) + 2 ^ 32 * t.rd (pRefinCountHi n.val) = g.count.toNat ∧
      t.rd (pRefinSpanLo n.val) + 2 ^ 32 * t.rd (pRefinSpanHi n.val) = g.span.toNat ∧
      t.rd (pRefinPhase n.val) = g.phase.toNat ∧ t.rd (pRefinStatus n.val) / 2 ^ 16 = g.seq.toNat ∧ { t with params := s.params } = s))

/-- STAMPER_CAL_COMPLETE (R43, R60): a table that passes the checks is written in a batch of 67 words, put in use and CAL_DONE posted; one that fails leaves the
old table and posts the check, and so does a run of 1 s that is abandoned. The batch of its own, and that a batch deferred leaves the calibration running,
are the model's (log entry 21). DM_CONCLUDE and DM_N_SNAPSHOT (R65, R67): a measurement concludes with its earliest accepted stop and enters the
accumulators, or is void. -/
def Obligations.StampersAndDelayUnitsMeasure : Prop :=
  (∀ (s v : State) (n : Fin 5) (hist : List Nat) (moved : Int) (source : Nat) (tab : LinTable),
    let st := s.ref.stampers[n]
    let src := if n.val < 4 then 453 + n.val else 453
    let built := buildTable hist (2 ^ 20) moved source 225 275 (0x100 + n.val) (s.sensorTemp 16) s.stamperTrim
    let now : Int := (s.time.tick.toNat : Int) * 1024 + s.time.fine.toNat
    let note := fun (g : Gate) => ({ g with late := (32, now) :: g.late.filter (fun x => x.1 ≠ 32) } : Gate)
    let with' := fun (u : State) (x : Stamper) => ({ u with ref := { u.ref with
      stampers := u.ref.stampers.set n.val x
      gates := Vector.ofFn (fun (k : Fin 4) => if k.val = n.val then note u.ref.gates[k] else u.ref.gates[k]) } } : State)
    st.calibrating = true →
    (s.aelkoFree = true → built = .inr tab → s.tryBatch 67 = (true, v) → exec (.stamperCalComplete n hist moved source) s =
      .next ((with' { v with mram := { v.mram with linImages := sset (0x100 + n.val) tab.image v.mram.linImages } }
        { st with calibrating := false, table := some tab }).post src 4 (tab.spanHigh - tab.spanLow + 1))) ∧
    (s.aelkoFree = true → built = .inr tab → s.power.cutting = false → s.tryBatch 67 = (false, v) →
      exec (.stamperCalComplete n hist moved source) s = .next v) ∧
    (st.calStart + 1024000000 ≤ s.time.clock →
      exec (.recalibrationAbandon ⟨256 + n.val, by omega⟩) s = .next ((with' s { st with calibrating := false }).post src 5 7)) ∧
    (s.aelkoFree = true → ∀ k : Nat, built = .inl k →
      exec (.stamperCalComplete n hist moved source) s = .next ((with' s { st with calibrating := false }).post src 5 k))) ∧
  (∀ (s : State) (u : Fin 4) (st stop : Int),
    let x := s.ref.units[u]
    let i := stop - st
    let first := if x.n = 0 then i else x.first
    let units := fun (r : State) (y : DelayUnit) => ({ r with ref := { r.ref with units := r.ref.units.set u.val y } } : State)
    (x.start = some st → x.startClock + s.rd (pRefinDmClose u.val) + 256 ≤ s.time.clock →
      (x.stops = [stop] → x.stepped = false → -2 ^ 31 ≤ x.sum + (i - first) → x.sum + (i - first) < 2 ^ 31 →
        (x.sumsq.toNat : Int) + (i - first) ^ 2 < 2 ^ 64 → s.Inv → s.rd (pRefinDmCntIgnored u.val) ≤ 0xFFFFFFFF →
        exec (.dmConclude u) s = .next (units { s with free := s.free + 1 } { x with
          n := x.n + 1, first := first, sum := x.sum + (i - first), sumsq := BitVec.ofInt 64 ((x.sumsq.toNat : Int) + (i - first) ^ 2), last := i
          start := none, stops := [] })) ∧
      (x.stops = [] → s.Inv → s.rd (pRefinDmCntIgnored u.val) ≤ 0xFFFFFFFF →
        exec (.dmConclude u) s = .next (units (s.bump (pRefinDmCntVoid u.val)) { x with start := none, stops := [], stepped := false }))) ∧
    (s.Inv → s.on 31 = true → ∃ t : State, exec (.dmNSnapshot u) s = .next t ∧
      t.rd (pRefinDmN u.val) = x.n % 2 ^ 32 ∧ t.rd (pRefinDmFirst u.val) = (x.first % 2 ^ 32).toNat ∧ t.rd (pRefinDmSum u.val) = (x.sum % 2 ^ 32).toNat ∧
      t.rd (pRefinDmSumsqLo u.val) + 2 ^ 32 * t.rd (pRefinDmSumsqHi u.val) = x.sumsq.toNat ∧
      t.rd (pRefinDmLast u.val) = (x.last % 2 ^ 32).toNat ∧ { t with params := s.params } = s))

/-- The calibration outputs (R68, R69): a pulse is launched once device time reaches its launch time, stays active for its width, and TRAIN_DONE follows the
last. CLKOUT (R70): the staged setting takes effect at its second, from its first edge at or after that second on; rising edge j lies j × 1,024 × CK_D /
CK_M fine steps after it, and a stopped output goes low at its falling edge. PPSOUT and PPSIN (R71, R72): one pulse for each value of the second, of
REFIN.PPS_WIDTH µs, at the offset in force; an edge of PPSIN that is stamped near a second sets the offset, one outside the window is counted, and 1.5 s
without one clear VALID, which the next sets again. -/
def Obligations.PulsesClocksAndSecondsGoOut : Prop :=
  (∀ (s : State) (n : Fin 4) (t : Train) (ends : Nat),
    let o := s.ref.calout[n]
    let l : Int := t.fine * 8 + t.next * t.period * 1024
    let launch : Int := (t.tick.toNat : Int) * 1024 + l
    let outs := fun (y : CalOut) => ({ s with ref := { s.ref with calout := s.ref.calout.set n.val y } } : State)
    (o.train = some t → l ≤ (s.time.tick - t.tick).toInt * 1024 + s.time.fine.toNat + 1023 → t.next + 1 < t.count →
      exec (.caloutPulse n) s = .next ((outs { o with train := some { t with next := t.next + 1 }, launched := o.launched + 1, active := some (s.time.clock + t.width) }).dmStart
        (1 + n.val) launch)) ∧
    (o.train = some t → l ≤ (s.time.tick - t.tick).toInt * 1024 + s.time.fine.toNat + 1023 → t.count ≤ t.next + 1 → (∀ u : Fin 4, s.rd (pRefinDmStart u.val) ≠ 1 + n.val) →
      exec (.caloutPulse n) s = .next ((outs { o with train := none, launched := o.launched + 1, active := some (s.time.clock + t.width) }).post
        (453 + n.val) 8 ((o.launched + 1) % 2 ^ 16))) ∧
    (o.active = some ends → ends ≤ s.time.clock → exec (.caloutPulseEnd n) s = .next (outs { o with active := none }))) ∧
  (∀ (s : State) (m : Fin 2) (a d : Nat) (o : Int) (sec : DWord),
    let c := s.ref.clkout[m]
    let since : Int := (s.time.tick - sec).toInt * 1024 + s.time.fine.toNat + 1023
    let outs := fun (y : ClkOut) => ({ s with ref := { s.ref with clkout := s.ref.clkout.set m.val y } } : State)
    (c.staged = some (a, d, o) → (c.stagedAt - s.time.tick).toInt ≤ 0 →
      exec (.clkoutSettingApply m) s = .next (outs { c with staged := none, applied := some (a, d, o, c.stagedAt), edge := max 0 (-(o * a / (1024 * d))) })) ∧
    (c.applied = some (a, d, o, sec) → c.level = false → o + c.edge * 1024 * d / a ≤ since →
      exec (.clkoutEdge m true) s = .next (outs { c with level := true, edge := c.edge + 1 })) ∧
    (c.applied = some (a, d, o, sec) → c.level = true → o + (2 * c.edge - 1) * 512 * d / a ≤ since → c.stopping = false →
      exec (.clkoutEdge m false) s = .next (outs { c with level := false })) ∧
    (c.applied = some (a, d, o, sec) → c.level = true → o + (2 * c.edge - 1) * 512 * d / a ≤ since → c.stopping = true →
      exec (.clkoutEdge m false) s = .next (outs { c with level := false, stopping := false, applied := none }))) ∧
  (∀ (s : State) (raw : BitVec 10) (l : Nat),
    let p := s.ref.pps
    let now : Int := (s.time.tick.toNat : Int) * 1024 + s.time.fine.toNat
    let waits := p.staged.any (fun x => decide (0 < (x.2 - s.time.tick).toInt))
    let offset := if waits then p.offset else (p.staged.map (·.1)).getD p.offset
    let sec := (now + 1023 - offset) / 1048576000000
    let st := s.ref.stampers[4]
    let time := now + s.stampFine 4 raw
    let wall := s.time.clock * 1024 + s.stampFine 4 raw
    let tacs := (if st.tacs.length < 2 then st.tacs else st.tacs.tail) ++ [wall]
    let stamped : State := { s with ref := { s.ref with stampers := s.ref.stampers.set 4 { st with lastEdge := some wall, tacs := tacs } } }
    let taken := stamped.dmStart 9 time
    let near := (time + 524288000000) / 1048576000000
    let off := time - near * 1048576000000
    let pps := fun (u : State) (y : Pps) => ({ u with ref := { u.ref with pps := y } } : State)
    let inNow := pps taken { p with inValid := true, inLast := some s.time.clock, inOffset := off }
    (p.enabled = true → s.on 31 = true → s.time.everLocked = true → 0 ≤ sec → now ≤ sec * 1048576000000 + offset → (∀ l : Nat, p.lastSecond = some l → (l : Int) < sec) →
      exec .ppsoutPulse s = .next (pps s { p with
        level := true, started := s.time.clock, lastSecond := some sec.toNat, offset := offset, staged := if waits then p.staged else none })) ∧
    (p.enabled = true → p.lastSecond = some l → sec ≤ (l : Int) → exec .ppsoutPulse s = .next s) ∧
    (p.level = true → p.started + s.rd pRefinPpsWidth * 1024 ≤ s.time.clock → exec .ppsoutPulseEnd s = .next (pps s { p with level := false })) ∧
    (s.on 31 = true → st.calibrating = false → (∀ l, st.lastEdge = some l → 4718592 ≤ (wall - l) * 1000) →
      (st.tacs.length < 2 ∨ ∃ l, st.tacs.head? = some l ∧ 262144 ≤ (wall - l) * 10) →
      (off.natAbs ≤ s.rd pRefinPpsinWindow * 2 ^ 20 → p.inValid = true ∨ p.inLast = none → exec (.ppsinEdge raw) s = .next inNow.updateDrift) ∧
      (off.natAbs ≤ s.rd pRefinPpsinWindow * 2 ^ 20 → p.inValid = false → p.inLast = some l → exec (.ppsinEdge raw) s = .next (inNow.post 453 0x11 0).updateDrift) ∧
      (s.rd pRefinPpsinWindow * 2 ^ 20 < off.natAbs → exec (.ppsinEdge raw) s = .next (taken.bump pRefinPpsinCntIgnored))) ∧
    (p.inLast = some l → p.inValid = true → l + 1536000000 ≤ s.time.clock → exec .ppsinLost s = .next ((pps s { p with inValid := false }).post 453 0x10 0)))

/-! ### Network time (spec/04) -/

/-- SYNC, FOLLOW_UP and DELAY_REQ (R84, R85, R86): a Sync starts an exchange with t2 at its MARK, less the receiver's latency, and queues a Delay_Req of its own
sequence; one that finds an exchange still open counts that as bad. Follow_Up gives t1 to the exchange of the same sequence and to no other, and a master
answers a Delay_Req with Delay_Resp and t4. That the Delay_Req waits from its Sync on is the model's choice (log entry 43). DELAY_RESP (R85, R86): the mean
path delay and the offset of the exchange, which is then taken, or discarded and counted where a timestamp is spoilt, a step fell inside or the delay is
negative; of the active domain the runs of 64 and 16 of Table 4.6 end too. Which runs an invalid exchange breaks is the model's reading (log entry 44). A
valid exchange (R86, R87, R89, R91): the domain is heard, its exchange counted, towards the 16 of TRACKING too, and a LOST domain restored; with an offset
inside TIME.STEP_LIMIT, or one of fewer than three beyond it, and a delay inside TIME.PATH_LIMIT its flags stay clear, the third offset beyond the limit in
a row flags MASTER_JUMP, and the third delay in a row beyond its limit on one side flags PATH_CHANGED. Received timestamps (R76): a device timestamp is its
tick and fine part; a PTP timestamp of seconds, nanoseconds and 2⁻¹⁶ ns is truncated to them. -/
def Obligations.TimeExchangesMoveTheDomains : Prop :=
  (∀ (s : State) (d : Fin 2) (p : Fin 16) (m : TimeMeta) (k : FrameMeta) (seq : Half) (oneStep : Bool) (t1 : WireStamp) (arrival : Arrival),
    let x := s.time.domains[d]
    let e := x.exchange
    let now : Int := (s.time.tick.toNat : Int) * 1024 + s.time.fine.toNat + arrival.fine.toNat
    let h := s.heardTime d
    let begun : Exchange := { seq := some seq, t1 := if oneStep then some (wireNs16 t1) else none, t2 := some (fineToNs16 (now - s.rxDelay (domainPort d))),
                              reqSeq := s.time.nextSeq, reqSent := false, t3 := none, epoch := s.time.epoch, bad := false }
    let start := fun (u : State) (y : Domain) => (({ u with time := { u.time with
      nextSeq := s.time.nextSeq + 1
      domains := u.time.domains.set d.val { y with exchange := begun, phase := if s.syntonised d then some arrival.phase else none } } } : State).sendTime d s.time.nextSeq .delayReq)
    s.Inv →
    (s.HearsTime d m → s.dEnabled d = true → e.seq = none → exec (.sync d m seq oneStep t1 arrival) s = .next (start h x)) ∧
    (s.HearsTime d m → s.dEnabled d = true → e.seq ≠ none →
      exec (.sync d m seq oneStep t1 arrival) s = .next (start (h.badExchange d) ((h.badExchange d).time.domains[d]))) ∧
    (s.HearsTime d m → e.seq = some seq → e.t1 = none →
      exec (.followUp d m seq t1) s = .next (h.withDomain d { x with exchange := { e with t1 := some (wireNs16 t1) } })) ∧
    (s.HearsTime d m → e.seq ≠ some seq → exec (.followUp d m seq t1) s = .next h) ∧
    (s.on 30 = true → s.Hears (downPort p) k →
      exec (.delayReq p k seq arrival.fine) s = .next ((s.heard (downPort p)).enqueue (downPort p) (.time seq (.delayResp (toStamp (now - s.rxDelay (downPort p)))))))) ∧
  (∀ (s : State) (d : Fin 2) (m : TimeMeta) (seq q : Half) (t4 : WireStamp) (a b c : Int),
    let x := s.time.domains[d]
    let e := x.exchange
    let f := wireNs16 t4
    let delay := ((b - a) + (f - c)) / 2
    let off := (b - a) - delay - signed 32 (s.rd (pTimeDAsym d.val))
    let h := s.heardTime d
    let cleared := h.withDomain d { x with exchange := Exchange.reset, consecutive := 0, recent := [], jumps := [], within := 0, pathRun := [] }
    let bad := (if s.time.active = d then ({ cleared with time := { cleared.time with lockRun := 0, unlockRun := 0 } } : State) else cleared).bump (pTimeDCntBad d.val)
    s.Inv → s.dEnabled d = true → s.HearsTime d m → e.seq = some q → e.reqSent = true → e.reqSeq = seq →
    e.t1 = some a → e.t2 = some b → e.t3 = some c →
    (e.bad = false → e.epoch = s.time.epoch → 0 ≤ delay → exec (.delayResp d m seq t4) s = .next ((h.goodExchange d delay off).noteHealth d)) ∧
    (e.bad = true ∨ e.epoch ≠ s.time.epoch ∨ delay < 0 → exec (.delayResp d m seq t4) s = .next (bad.noteHealth d))) ∧
  (∀ (s : State) (d : Fin 2) (delay off : Int),
    let x := s.time.domains[d]
    let t := s.goodExchange d delay off
    let y := t.time.domains[d]
    s.Inv →
    y.lost = false ∧ y.missed = 0 ∧ y.exchange = Exchange.reset ∧ d ∈ t.time.seen ∧
    t.rd (pTimeDExchanges d.val) = (s.rd (pTimeDExchanges d.val) + 1) % 2 ^ 32 ∧
    t.time.tick = s.time.tick ∧ t.time.clock = s.time.clock ∧ t.time.domains[otherDomain d] = s.time.domains[otherDomain d] ∧
    (x.masterJump = false → x.pathChanged = false → off.natAbs ≤ s.stepLimit.toNat ∨ x.jumps.length < 2 → (delay - x.mpd).natAbs ≤ s.pathLimit.toNat →
      y.masterJump = false ∧ y.pathChanged = false ∧ y.consecutive = x.consecutive + 1 ∧ (y.tracking = true ↔ x.tracking = true ∨ 16 ≤ x.consecutive + 1)) ∧
    (x.masterJump = false → x.pathChanged = false → s.time.stepped = true → s.stepLimit.toNat < off.natAbs →
      s.stepLimit.toNat < (off + x.asymShift).natAbs → 2 ≤ x.jumps.length → (delay - x.mpd).natAbs ≤ s.pathLimit.toNat →
      y.masterJump = true ∧ y.tracking = false) ∧
    (∀ t1 t2 : Nat, ∀ d1 d2 : Int, x.masterJump = false → x.pathChanged = false → x.measured = true → off.natAbs ≤ s.stepLimit.toNat →
      x.pathRun = [(t1, d1), (t2, d2)] → s.pathLimit < d1 - x.mpd → s.pathLimit < d2 - x.mpd → s.pathLimit < delay - x.mpd →
      y.pathChanged = true ∧ y.tracking = false ∧ y.masterJump = false ∧ y.pathRef = some delay)) ∧
  (∀ (tick : DWord) (fine : BitVec 10) (sec : BitVec 48) (ns : Word) (sub : Half),
    let units := ns.toNat * 65536 + sub.toNat
    wireNs16 (.device ⟨tick, fine⟩) = fineToNs16 ((tick.toNat : Int) * 1024 + fine.toNat) ∧
    (ns.toNat < 10 ^ 9 → sec.toNat * 1024000000 + 1024000000 ≤ 2 ^ 64 →
      wireNs16 (.ptp sec ns sub) = fineToNs16 ((sec.toNat * 1048576000000 + units * 131072 / 8192000 : Nat) : Int)) ∧
    (∀ f : Int, fineToNs16 (2 * f) = f * 125 ∧ f * 125 / 2 ≤ fineToNs16 f ∧ fineToNs16 f ≤ f * 125 / 2 + 1))

/-- ANNOUNCE stores currentUtcOffset, and SIGNALING the L1_SYNC state (R83, R84); a message of a kind not supported is discarded without a count. Which flag
reports L1_SYNC is the model's (log entry 77). EXCHANGE_INTERVAL and REVERT_HOLD_EXPIRY (R84, R86, R90): masters send Sync, Announce and Signaling on every
link and a slave on 1000BASE-X sends Signaling, a domain without a valid exchange counts a miss and is LOST at TIME.LOST_COUNT, and a preferred domain
healthy for TIME.REVERT_HOLD becomes active. When Announce and Signaling go, and their free fields, are the model's (log entries 43, 77); a disabled domain
counts no miss (76). -/
def Obligations.AnnouncesAndIntervalsCheckTheDomains : Prop :=
  (∀ (s : State) (d : Fin 2) (p : Fin 16) (q : Fin 18) (m : TimeMeta) (utc : Half) (flags : Byte),
    s.Inv →
    (s.HearsTime d m → exec (.announce d m utc) s = .next ((s.heardTime d).wr pTimeUtcOffset utc.toNat) ∧
      exec (.signaling (domainPort d) m (some flags)) s = .next ((s.heardTime d).withDomain d { (s.time.domains[d]) with l1sync := flags.getLsbD 0 })) ∧
    (m.frame.checkOk = true → exec (.signaling q m none) s = .next s) ∧
    (s.Hears (downPort p) m.frame → exec (.signaling (downPort p) m (some flags)) s = .next (s.heard (downPort p)))) ∧
  (∀ (s : State) (d : Fin 2) (p : Fin 16) (f : Nat),
    let x := s.time.domains[d]
    let y := s.ports[downPort p]
    let missed := if s.time.seen.contains d then 0 else x.missed + 1
    (s.on 30 = true → s.Inv → ∃ t : State, exec .exchangeInterval s = .next t ∧ t.time.seen = [] ∧ t.time.tick = s.time.tick ∧ t.chans = s.chans ∧
      t.engines = s.engines ∧
      (s.linked (downPort p) = true → ∃ (a : Half) (b : Byte) (c : Byte) (e : Byte), t.ports[downPort p] = { y with
        timeSeq := y.timeSeq + 1
        tx := y.tx ++ [⟨.time y.timeSeq .sync, none, 0, false, 0⟩, ⟨.time y.timeSeq (.announce (BitVec.ofNat 16 (s.rd pTimeUtcOffset)) a b c), none, 0, false, 0⟩,
                       ⟨.time y.timeSeq (.signaling e), none, 0, false, 0⟩] }) ∧
      (s.onBasex d = true → s.dEnabled d = true → (s.lanes.basex[d]).linkUp = true → s.laneMac ≠ 0 → ∃ e : Byte, (t.ports[domainPort d]).tx =
        (s.ports[domainPort d]).tx ++ [⟨
        .mac ptpGroup (BitVec.ofNat 48 s.laneMac) (BitVec.ofNat 8 (s.rd pTimePtpDomain)) s.time.nextSeq (.signaling e), none, 0, false, 0⟩]) ∧
      (s.linked (downPort p) = false → t.ports[downPort p] = y) ∧
      (s.dEnabled d = true → (t.time.domains[d]).missed = missed ∧
        ((t.time.domains[d]).lost = true ↔ x.lost = true ∨ s.rd pTimeLostCount ≤ missed)) ∧
      (s.dEnabled d = false → (t.time.domains[d]).missed = x.missed ∧ (t.time.domains[d]).lost = x.lost)) ∧
    (s.on 30 = true → s.time.servo.follows = true → s.rd pTimeRevert = 1 → s.time.active ≠ s.preferred → s.healthy s.preferred = true →
      (s.time.domains[s.preferred]).healthySince = some f → f + 1024000000 * s.rd pTimeRevertHold ≤ s.time.clock →
      exec .revertHoldExpiry s = .next ((s.switchDomain s.preferred true).switchLedger (otherDomain s.preferred) s.preferred) ∧
      (s.switchDomain s.preferred true).time.active = s.preferred) ∧
    (s.rd pTimeRevert ≠ 1 → exec .revertHoldExpiry s = .next s))

/-! ### Acquisition (spec/07) -/

/-- MILESTONE (R78, R80, R92, R150, R151): arming and disarming take effect at their milestone, a pending re-step gives device time its new tick and fine base,
and outside a new milestone the command changes nothing. The switch-off of a CRITICAL device at its milestone (log entry 79) and that a milestone is one row
(21) are the model's. DISARM_MILESTONE_RELEASE, REDUCTION_RECORDS and PRETRIG_ELAPSED (R151, R165, R173). LAUNCH (R96, R152–R161, R184, R188): the first due
entry leaves the queue: a frame waits on its port at rank 2 with its launch tick where the port's state carries it (R233), or is posted as lost, and an
accept is refused with its cause or opens a booking that holds its window, its expected children and its close tick. The launch checks of Table 7.1 come in
order (R158, R159): the first that fails names the cause. A short tick, and a 32-bit count of 1,024 ticks as the room map holds it, are extended to the
64-bit tick nearest to device time: that is how the model reads R77's comparison of short ticks (DEDUCED, log entry 76). -/
def Obligations.MilestonesAndLaunchesAct : Prop :=
  (∀ (s : State) (r : Restep),
    let m := s.time.tick
    let total : Int := (m.toNat : Int) * 1024 + r.delta
    (s.on 30 = false ∨ m.toNat % 2 ^ 20 ≠ 0 ∨ s.time.lastMilestone = some m → exec .milestone s = .next s) ∧
    (s.on 30 = true → s.on 20 = true → m.toNat % 2 ^ 20 = 0 → s.time.lastMilestone ≠ some m → s.acq.criticalOff = none →
      (s.acq.state = .armPending → atOrBefore s.acq.armTick m = true → ∃ t : State, exec .milestone s = .next t ∧
        t.acq.state = .armed ∧ t.acq.armTick = m ∧
        ∀ ch : Fin 256, s.on (tileOf ch).val = true →
          ((s.chans[ch]).state = .running ∨ (s.chans[ch]).state = .waitInactive →
            (t.chans[ch]).state = if (s.chans[ch]).level then .waitInactive else .running) ∧
          ((s.chans[ch]).state = .disabled ∨ (s.chans[ch]).state = .quarantined ∨ (s.chans[ch]).state = .blanked →
            (t.chans[ch]).state = (s.chans[ch]).state)) ∧
      (s.acq.state = .armPending → atOrBefore s.acq.armTick m = false → ∃ t : State, exec .milestone s = .next t ∧ t.acq.state = .armPending) ∧
      (s.acq.state = .disarmPending → atOrBefore s.acq.disarmTick m = true → ∃ t : State, exec .milestone s = .next t ∧
        t.acq.state = .disarmed ∧ t.acq.disarmTick = m)) ∧
    (s.on 30 = true → m.toNat % 2 ^ 20 = 0 → s.time.lastMilestone ≠ some m → s.acq.criticalOff = none →
      s.time.restep = some r → r.adopt = false → atOrBefore r.milestone m = true → ∃ t : State, exec .milestone s = .next t ∧
        t.time.tick = BitVec.ofInt 64 (total / 1024) ∧ t.time.fine = BitVec.ofInt 10 (total % 1024) ∧ t.time.epoch = s.time.epoch + 1 ∧
        t.time.stepped = s.time.stepped ∧ t.time.restep = none ∧ t.time.clock = s.time.clock)) ∧
  (∀ (s : State) (tile : Fin 16) (w m : DWord),
    ((s.tiles[tile]).disarmWord = none → exec (.disarmMilestoneRelease tile) s = .next s) ∧
    ((s.tiles[tile]).disarmWord = some w → (∃ c : Fin 16, (s.chans[chanOf tile c]).entries ≠ []) → exec (.disarmMilestoneRelease tile) s = .next s) ∧
    ((s.tiles[tile]).disarmWord = some w → (∀ c : Fin 16, (s.chans[chanOf tile c]).entries = []) →
      ∃ t : State, exec (.disarmMilestoneRelease tile) s = .next t ∧ (t.tiles[tile]).disarmWord = none ∧ (t.tiles[tile]).held = [] ∧
        t.chans = s.chans ∧ t.time = s.time ∧ t.acq = s.acq ∧ t.mram = s.mram ∧ (∀ u : Fin 16, u ≠ tile → t.tiles[u] = s.tiles[u])) ∧
    (s.red.due = none → exec .reductionRecords s = .next s) ∧
    (s.red.due = some m → (∀ u : Fin 16, (s.tiles[u]).held = [] ∧ (s.tiles[u]).disarmWord = none) →
      ∃ t : State, exec .reductionRecords s = .next t ∧ t.red.due = none ∧ t.chans = s.chans ∧ t.time = s.time ∧
        (s.on 34 = false → t = { s with red := { s.red with due := none, ready := [] } })) ∧
    (s.streaming = true → (s.rd pAcqPretrig : Int) ≤ (s.time.tick - s.acq.armTick).toInt → ∃ t : State, exec .pretrigElapsed s = .next t ∧
      t.acq.deadMask = s.deadConditions ∧ { t with acq := s.acq, fd := s.fd, params := s.params, fresh := s.fresh } = s) ∧
    (s.streaming = false → exec .pretrigElapsed s = .next s)) ∧
  (∀ (s : State) (tick : DWord) (q : Fin 16) (tag : Half) (word route : Word) (mb : BitVec 3) (hops : BitVec 4) (block : Block) (a : Accept) (r : Receipt) (c : Nat),
    let taken := fun (e : LaunchEntry) => ({ s with time := { s.time with queue := s.time.queue.erase e } } : State)
    let f := LaunchEntry.frame tick q (.test word) tag
    let g := LaunchEntry.frame tick q (.ctrl mb hops route block) tag
    let b := LaunchEntry.booking a none r
    let port := s.ports[downPort q]
    (s.on 30 = false ∨ s.dueLaunch = none → exec .launch s = .next s) ∧
    let queued := fun (e : LaunchEntry) (body : TxBody) => ({ taken e with
      ports := s.ports.set (downPort q).val { port with tx := port.tx ++ [⟨body, some tick, tag, false, 0⟩] } } : State)
    (s.on 30 = true → s.dueLaunch = some f → port.state = .admitted → exec .launch s = .next (queued f (.test word))) ∧
    (s.on 30 = true → s.dueLaunch = some f → port.state ≠ .admitted → exec .launch s = .next ((taken f).post 452 2 tag.toNat)) ∧
    (s.on 30 = true → s.dueLaunch = some g → port.state = .admitted ∨ port.state = .standby → exec .launch s = .next (queued g (.ctrl ⟨false, false, mb, hops, route, 0, 0, block⟩))) ∧
    (s.on 30 = true → s.dueLaunch = some g → port.state ≠ .admitted → port.state ≠ .standby → exec .launch s = .next ((taken g).post 452 2 tag.toNat)) ∧
    (s.on 30 = true → s.on 20 = true → s.dueLaunch = some b → (taken b).launchCause a r = some c →
      exec .launch s = .next ((taken b).refuseAccept c a false)) ∧
    (s.on 30 = true → s.on 20 = true → s.Inv → s.dueLaunch = some b → (taken b).launchCause a r = none →
      ∃ (t : State) (x : Booking), exec .launch s = .next t ∧ t.time.queue = s.time.queue.erase b ∧ t.booking (a.event.toNat % 65536) = some x ∧
        x.event = a.event ∧ x.start = a.start ∧ x.length = a.length ∧ x.launch = a.launch ∧
        x.close = a.start + a.length.setWidth 64 + BitVec.ofNat 64 r.tail ∧ x.index = none ∧
        (∀ k : Fin 16, x.expected.getLsbD k.val = ((s.ports[downPort k]).state == .admitted && !(s.ports[downPort k]).lapsed)) ∧ x.reported = 0 ∧ x.absent = 0 ∧
        t.rd pAcqCntAccepts = min (s.rd pAcqCntAccepts + 1) 0xFFFFFFFF ∧ t.porter.bookings.length = s.porter.bookings.length + 1)) ∧
  (∀ (s : State) (a : Accept) (r : Receipt),
    let cause := s.launchCause a r
    let notArmed := s.streaming = false ∨ (s.acq.state = .disarmPending ∧ 0 ≤ (a.launch - s.acq.disarmTick).toInt)
    let early := (a.launch - s.acq.armTick).toInt < r.pretrig
    let shallow := ∃ t : Fin 16, s.included t = true ∧ 0 < ((s.porter.chains[t.val]).held - a.start).toInt
    let slot := (s.booking (a.event.toNat % 65536)) ≠ none ∨ a.event.toNat % 65536 ∈ s.porter.heldSlots
    (cause = some 6 ↔ notArmed) ∧ (cause = some 7 ↔ ¬notArmed ∧ early) ∧ (cause = some 8 ↔ ¬notArmed ∧ ¬early ∧ shallow) ∧
    (cause = some 9 ↔ ¬notArmed ∧ ¬early ∧ ¬shallow ∧ slot) ∧
    (cause = some 10 ↔ ¬notArmed ∧ ¬early ∧ ¬shallow ∧ ¬slot ∧ s.porter.bookings.length = r.maxBookings) ∧
    (cause = none → s.belowLow = false ∧ s.openBookings < 15)) ∧
  (∀ (s : State) (t : BitVec 30) (m : Nat),
    let x := s.extend30 t
    (m < 2 ^ 32 → (s.extend32 m).toNat / 1024 % 2 ^ 32 = m ∧
      ∃ d : Int, -2 ^ 31 ≤ d ∧ d < 2 ^ 31 ∧ s.extend32 m = BitVec.ofInt 64 (((s.now.toNat : Int) / 1024 + d) * 1024)) ∧
    shortTick x = t ∧ -2 ^ 29 ≤ (x - s.now).toInt ∧ (x - s.now).toInt < 2 ^ 29 ∧
    ∀ y : DWord, shortTick y = t → -2 ^ 29 ≤ (y - s.now).toInt → (y - s.now).toInt < 2 ^ 29 → y = x)

/-- ACCEPT_FRAME (R24, R152, R157, R160): an accept whose launch lies ahead goes to every admitted child, and then enters the launch queue or is refused with
its cause and a PARTIAL waybill. That ACQ.TAIL is taken at the receipt (log entry 21) and the place of an accept among those of its cycle (71) are the
model's. A refusal (R160): counted in all and under its cause, posted at the first, and answered upstream with a waybill alone unless it is a DUPLICATE or
of a station. PRIM_FRAME, PRIMITIVE_TAKE and ENGINE_RECORD_TAKE (R115, R116, R164, R172): primitives join the device's queue of 32 or are dropped and
counted, and an engine record leaves its tile for the monitor stream. -/
def Obligations.AcceptsPrimitivesAndRecordsAreTaken : Prop :=
  (∀ (s : State) (p : Fin 18) (q : Fin 16) (m : FrameMeta) (f : Accept),
    let h := s.heard p
    let received := h.modAcqAcc (fun x => { x with received := x.received + 1 })
    let leaf := ∀ k : Fin 16, (s.ports[downPort k]).state ≠ .admitted
    let late := 0 ≤ (s.time.tick - f.launch).toInt
    s.Inv → s.HearsAny p m → p = s.dataPort → (s.ports[p]).state = .admitted → s.on 20 = true →
    (¬late → leaf → f.length ≠ 0 → f.length.toNat ≤ s.rd pAcqWindowMax → f.event.msb = false → s.duplicate f.event = false → s.time.queue.length < 256 →
      s.rd pAcqStation ≠ 1 →
      (∀ (g : Accept) (e : Option (Fin 128)) (x : Receipt), .booking g e x ∈ s.time.queue → x.entered ≠ s.time.clock ∨ x.place ≤ p.val) →
      exec (.acceptFrame p m f) s = .next { received with time := { s.time with
        queue := s.time.queue ++ [.booking f none ⟨s.rd pAcqPretrig, s.rd pAcqMaxBookings, s.rd pAcqTail, s.time.clock, p.val⟩] } }) ∧
    (¬late → leaf → f.length = 0 → exec (.acceptFrame p m f) s = .next (received.refuseAccept 1 f false)) ∧
    (late → f.length ≠ 0 → f.length.toNat ≤ s.rd pAcqWindowMax → f.event.msb = false → s.duplicate f.event = false →
      exec (.acceptFrame p m f) s = .next ((received.launchMissed 1 (f.event.toNat % 65536)).refuseAccept 3 f false)) ∧
    (¬late → (s.ports[downPort q]).state = .admitted → ∃ t : State, exec (.acceptFrame p m f) s = .next t ∧
      (t.ports[downPort q]).tx = (s.ports[downPort q]).tx ++ [⟨.accept f, none, 0, false, 0⟩])) ∧
  (∀ (s : State) (c : Nat) (a : Accept) (station : Bool), s.Inv → 1 ≤ c → c ≤ 12 →
    let t := s.refuseAccept c a station
    let w : Waybill := { children := 0, kind := 1, compressed := false, corrupt := false, truncated := false, partialFlag := true, step := false, suspect := false,
                         source := BitVec.ofNat 16 (s.rd pDevNumber), incarnation := s.mram.incarnation, codec := 0, absent := s.enabledMask &&& ~~~s.standbyMask,
                         event := a.event, start := a.start, length := a.length, payload := 0 }
    t.rd pAcqCntRefused = min (s.rd pAcqCntRefused + 1) 0xFFFFFFFF ∧ t.rd (pAcqCntRef c) = min (s.rd (pAcqCntRef c) + 1) 0xFFFFFFFF ∧
    t.porter.headWaybills = s.porter.headWaybills ++ (if station = true ∨ c = 2 then [] else [w]) ∧
    (s.rd pAcqCntRefused ≠ 0 → t.fd = s.fd) ∧ (s.rd pAcqCntRefused = 0 → s.hasRoom 498 = true → t.fd = (s.putRecord 498 1 c).fd) ∧
    { t with params := s.params, fd := s.fd, red := s.red, porter := s.porter, fresh := s.fresh } = s) ∧
  (∀ (s : State) (p : Fin 18) (m : FrameMeta) (f : PrimFrame) (fs : List PrimFrame) (r : EmitsRecord) (rs : List EmitsRecord) (t : Fin 16),
    let h := s.heard p
    let up := (s.ports[s.dataPort]).state
    let y := s.tiles[t]
    let without := fun (x : TileState) => ({ s with tiles := s.tiles.set t.val x } : State)
    s.Inv →
    (s.HearsAny p m → p.val < 16 → (s.ports[p]).state = .admitted → up = .admitted → s.acq.prims.length < 32 →
      exec (.primFrame p m f) s = .next { h with acq := { s.acq with prims := s.acq.prims ++ [f] } }) ∧
    (s.HearsAny p m → p.val < 16 → (s.ports[p]).state = .admitted → up ≠ .admitted ∨ 32 ≤ s.acq.prims.length →
      exec (.primFrame p m f) s = .next (h.bumpPostCount pAcqCntPrimDropped 500 1)) ∧
    (s.on 20 = true → y.prims = f :: fs → (∀ u : Fin 16, u ≠ t → (s.tiles[u]).prims = []) →
      (s.rd pAcqPrimUp = 1 → s.acq.prims.length < 32 → up = .admitted →
        exec .primitiveTake s = .next { without { y with prims := fs } with acq := { s.acq with prims := s.acq.prims ++ [f], primTile := (t.val + 1) % 16 } }) ∧
      (s.rd pAcqPrimUp = 1 → 32 ≤ s.acq.prims.length → up = .admitted → exec .primitiveTake s = .next s) ∧
      (s.rd pAcqPrimUp = 1 → up ≠ .admitted → exec .primitiveTake s =
        .next (({ without { y with prims := fs } with acq := { s.acq with primTile := (t.val + 1) % 16 } } : State).bumpPostCount pAcqCntPrimDropped 500 1)) ∧
      (s.rd pAcqPrimUp ≠ 1 → exec .primitiveTake s = .next { without { y with prims := fs } with acq := { s.acq with primTile := (t.val + 1) % 16 } })) ∧
    (s.on 34 = true → y.records = r :: rs → (∀ u : Fin 16, u ≠ t → (s.tiles[u]).records = []) →
      let left := { without { y with records := rs } with red := { s.red with tileNext := (t.val + 1) % 16 } }
      (s.streaming = false → exec .engineRecordTake s = .next left) ∧
      (s.streaming = true → exec .engineRecordTake s = .next (left.emitRecord r.engine 2 3 (r.seq % 2 ^ 24) 0
        (r.body.toNat % 2 ^ 32 * 2 ^ 30) (r.body.toNat / 2 ^ 32 * 2 ^ 30 + r.tick.toNat)))))

/-! ### Rooms, bookings and the porter (spec/08, spec/09) -/

/-- ROOM_GRANT (R178, R181, R193): a tile chain's request is granted the head of the free list, which becomes its open room, and a booking's request an INDEX
room, which it pins; with PD20 off nothing happens. The words that wait for rooms are taken as none. That an INDEX room is granted through the allocator is
the model's (log entry 79). The free list (R178, R179): rooms never used are taken in ascending number, then the rooms freed, first in, first out; a freed
room joins the tail and keeps its SUSPECT flag and its spare. ROOMS_MAP_SNAPSHOT (R177, Table 8.1): a read of ROOMS.MAP_W0 gives word 0 of the selected room
and keeps the other three. -/
def Obligations.RoomsAreGrantedAndShown : Prop :=
  (∀ (s u : State) (k : Fin 16) (r slot : Nat) (b : Booking),
    let c := s.porter.chains[k.val]
    let quiet := s.on 20 = true ∧ s.streaming = true ∧ s.porter.monQueue = [] ∧ ∀ t : Fin 16, (s.tiles[t]).output = []
    (s.on 20 = false → exec .roomGrant s = .next s) ∧
    (quiet → s.porter.requests = [(k.val, 1)] → s.atReserve = false → s.takeHead = some (r, u) → c.rooms = [] →
      ∃ t : State, exec .roomGrant s = .next t ∧ (t.porter.chains[k.val]).rooms = [r] ∧ (t.room r).state = .opened ∧ (t.room r).chain = k.val ∧
        t.porter.freeCount = s.porter.freeCount - 1 ∧ t.porter.requests = [(k.val, 1)] ∧ t.porter.pointer = k.val + 1 ∧
        t.chans = s.chans ∧ t.engines = s.engines ∧ t.time = s.time) ∧
    (quiet → s.porter.requests = [(33, 1)] → s.takeHead = some (r, u) → s.porter.bookings = [(slot, b)] → b.index = none →
      ∃ (t : State) (x : Booking), exec .roomGrant s = .next t ∧ t.porter.bookings = [(slot, x)] ∧ x.index = some r ∧
        x.suspect = (b.suspect || (s.room r).suspect) ∧ x.ranges = b.ranges ∧ (t.room r).state = .index ∧ (t.room r).pins = 1 ∧
        t.porter.requests = [] ∧ t.porter.pointer = 0 ∧ t.chans = s.chans ∧ t.time = s.time)) ∧
  (∀ (s : State) (r x : Nat) (xs : List Nat),
    let f := s.freeRoom r
    f.porter.freed = s.porter.freed ++ [r] ∧ f.porter.freeCount = s.porter.freeCount + 1 ∧ (s.Inv → r < s.roomsFit → f.room r = { Room.reset with suspect := (s.room r).suspect, spare := (s.room r).spare }) ∧
    (s.porter.freeCount = 0 → s.takeHead = none) ∧
    (s.porter.freeCount ≠ 0 → s.porter.fresh < s.roomsFit → (s.room s.porter.fresh).state ≠ .out → ∃ t : State, s.takeHead = some (s.porter.fresh, t) ∧
      t.porter.fresh = s.porter.fresh + 1 ∧ t.porter.freed = s.porter.freed ∧ t.porter.freeCount = s.porter.freeCount - 1) ∧
    (s.porter.freeCount ≠ 0 → s.roomsFit ≤ s.porter.fresh → s.porter.freed = x :: xs → ∃ t : State, s.takeHead = some (x, t) ∧
      t.porter.freed = xs ∧ t.porter.freeCount = s.porter.freeCount - 1 ∧ t.porter.fresh = s.porter.fresh)) ∧
  (∀ s : State,
    let x := s.room (s.rd pRoomsMapSel)
    let b := fun (v : Bool) => if v then 1 else 0
    let w1 := x.chain + 2 ^ 5 * x.count + 2 ^ 16 * x.slot
    s.mapSnapshot.1 = x.next.getD 0 + 2 ^ 18 * b x.next.isNone + 2 ^ 19 * x.pins + 2 ^ 23 * b x.suspect + 2 ^ 24 * b x.spare.isSome + 2 ^ 25 * b x.truncated +
      2 ^ 26 * x.state.code ∧
    (s.on 20 = true → exec .roomsMapSnapshot s = .next { s with porter := { s.porter with mapSnapshot := (BitVec.ofNat 32 w1, BitVec.ofNat 32 x.min, BitVec.ofNat 32 x.max) } }) ∧
    (s.on 20 = false → exec .roomsMapSnapshot s = .next s))

/-- BOOKING_CLOSE and COMPLETE_TIMEOUT (R190, R243): at C a booking is READY where it expects no child and CLOSED where one is still missing; at C +
PORT.COMPLETE_TIMEOUT the missing ports are absent and the booking is READY. BOOKING_FETCH (R189): a record that is not cached is counted and its 8 words
are read; the last of them decides: a record that passes its CRC-32C enters the cache, of one that fails a waybill PARTIAL and CORRUPT goes up and the
booking is lost. That the words of a record wait at level 2 and decide with the eighth is the model's (log entry 79). -/
def Obligations.BookingsCloseAndFetch : Prop :=
  (∀ (s : State) (slot : Half) (b : Booking),
    let k := slot.toNat
    let missing := b.expected &&& ~~~(b.reported ||| b.absent)
    (s.booking k = none → exec (.bookingClose slot) s = .next s ∧ exec (.completeTimeout slot) s = .next s) ∧
    (s.booking k = some b → b.state = .opened → 0 < (b.close - s.time.tick).toInt → exec (.bookingClose slot) s = .next s) ∧
    (s.booking k = some b → b.state = .opened → 0 ≤ (s.time.tick - b.close).toInt → s.porter.cached.length < 2048 → ∃ (t : State) (x : Booking), exec (.bookingClose slot) s = .next t ∧
      t.booking k = some x ∧ (x.state = if b.expected = 0 ∨ missing = 0 then .ready else .closed) ∧ x.ownBytes = s.ownBytes (.booking k) ∧
      k ∈ t.porter.cached ∧ { x with state := b.state, ownBytes := b.ownBytes } = b ∧ t.chans = s.chans ∧ t.time = s.time ∧ t.ports = s.ports) ∧
    (s.booking k = some b → b.state = .closed → 0 ≤ (s.time.tick - (b.close + BitVec.ofNat 64 (1024 * s.rd pPortCompleteTimeout))).toInt →
      (∀ p : Fin 18, (s.ports[p]).rx = none) → missing ≠ 0 → ∃ (t : State) (x : Booking), exec (.completeTimeout slot) s = .next t ∧
        t.booking k = some x ∧ x.absent = b.absent ||| missing ∧ x.state = .ready ∧ x.reported = b.reported)) ∧
  (∀ (s : State) (slot : Half) (word : Fin 8) (flips : BitVec 72) (b : Booking) (x : Fetch),
    let k := slot.toNat
    let bytes := (List.range 8).flatMap (fun i => natLe 8 (((x.words.find? (fun w => w.1 = i)).map (fun w => w.2.toNat)).getD 0))
    let without : State := { s with porter := { s.porter with fetches := s.porter.fetches.filter (fun y => y.slot ≠ k) } }
    s.booking k = some b →
    (k ∈ s.porter.cached ∨ s.on 20 = false → exec (.bookingFetch slot word flips) s = .next s) ∧
    (k ∉ s.porter.cached → s.on 20 = true → (∀ y ∈ s.porter.fetches, y.slot ≠ k) → s.Inv → ∃ t : State, exec (.bookingFetch slot word flips) s = .next t ∧
      t.porter = { s.porter with fetches := s.porter.fetches ++ [⟨k, 8, [], false, false⟩] } ∧
      t.rd pRoomsCntCacheMiss = min (s.rd pRoomsCntCacheMiss + 1) 0xFFFFFFFF ∧ { t with porter := s.porter, params := s.params, mem := s.mem, fresh := s.fresh } = s) ∧
    (x.slot = k → x.walking = false → x.bad = false → withCrc32c (bytes.take 60) = bytes → s.fetchEnd x = without.touch k) ∧
    (x.slot = k → x.walking = false → x.bad = true ∨ withCrc32c (bytes.take 60) ≠ bytes → b.index = none →
      (s.fetchEnd x).booking k = none ∧ (s.fetchEnd x).porter.headWaybills.length = s.porter.headWaybills.length + 1 ∧
      (∃ w ∈ (s.fetchEnd x).porter.headWaybills, w.event = b.event ∧ w.corrupt = true ∧ w.partialFlag = true ∧ w.payload = 0)))

/-- READOUT_START (R191, R192, R199, R207): with one class waiting its first source is taken; a fragment to be coded takes the lowest idle unit with its
settings latched, and waits where none is idle; a booking whose record is not cached waits for its fetch, and a fragment that a unit's reset discarded goes
first, once the crossing is out of reset. With both classes waiting a class whose deficit is spent gains its weight × 4,096 bytes in turn, and the first
above 0 is served. DATA_RECORD_SENT (R186, R190, R192): the end of a booking's record releases the booking and frees the data path for the next record. -/
def Obligations.ReadoutsStartAndRelease : Prop :=
  (∀ (s : State) (k : Nat) (u : Fin 4) (dT dM : Int) (turn : Bool) (src x : ReadSource),
    let choice := s.chooseReadout
    let gT : Int := s.roomsItem pRoomsWTrig * 4096
    let gM : Int := s.roomsItem pRoomsWMon * 4096
    let pT := s.porter.deficitT
    let pM := s.porter.deficitM
    let bT : Int := s.fragmentBytes src
    let bM : Int := s.fragmentBytes x
    let clear := (∀ o ∈ s.porter.readouts, o.stage ≠ .again) ∨ (s.on 21 = true ∧ s.on 22 = false ∧ s.on 23 = false)
    (firstWaiting s.waitingT = none → firstWaiting s.waitingM = none → choice = none) ∧
    (firstWaiting s.waitingT = some src → firstWaiting s.waitingM = none → choice = some (src, 0, 0, false)) ∧
    (firstWaiting s.waitingT = none → firstWaiting s.waitingM = some src → choice = some (src, 0, 0, true)) ∧
    (firstWaiting s.waitingT = some src → firstWaiting s.waitingM = some x →
      (s.porter.turnM = false → 0 < pT → choice = some (src, pT - bT, pM, false)) ∧
      (s.porter.turnM = true → 0 < pM → choice = some (x, pT, pM - bM, true)) ∧
      (s.porter.turnM = false → pT ≤ 0 → 0 < gM → 0 < pM + gM → choice = some (x, pT, pM + gM - bM, true)) ∧
      (s.porter.turnM = false → pT ≤ 0 → 0 < gT → pM + gM ≤ 0 → 0 < pT + gT → choice = some (src, pT + gT - bT, pM + gM, false)) ∧
      (s.porter.turnM = true → pM ≤ 0 → 0 < gT → 0 < pT + gT → choice = some (src, pT + gT - bT, pM, false)) ∧
      (s.porter.turnM = true → pM ≤ 0 → 0 < gM → pT + gT ≤ 0 → 0 < pM + gM → choice = some (x, pT + gT, pM + gM - bM, true))) ∧
    (s.on 20 = false → exec .readoutStart s = .next s) ∧
    (s.on 20 = true → ∀ o : Readout, s.porter.readouts.find? (fun o => o.stage = .again) = some o → s.on 21 = false ∨ s.on 22 = true ∨ s.on 23 = true → exec .readoutStart s = .next (s.beginReadout o.source)) ∧
    (s.on 20 = true → clear → s.lookDeficits.chooseReadout = none → exec .readoutStart s = .next s.lookDeficits) ∧
    (s.on 20 = true → clear → s.lookDeficits.chooseReadout = some (.booking k, dT, dM, turn) → k ∉ s.porter.cached →
      exec .readoutStart s = .next (s.lookDeficits.startFetch k)) ∧
    (s.on 20 = true → clear → s.lookDeficits.chooseReadout = some (.booking k, dT, dM, turn) → k ∈ s.porter.cached →
      s.wantedCodec (.booking k) ≠ 0 → s.noUnit = false → s.idleUnitNo = none → exec .readoutStart s = .next s.lookDeficits) ∧
    (s.on 20 = true → clear → s.lookDeficits.chooseReadout = some (.booking k, dT, dM, turn) → k ∈ s.porter.cached →
      s.wantedCodec (.booking k) ≠ 0 → s.noUnit = false → s.idleUnitNo = some u → s.readout (.booking k) = none → ∃ (t : State) (r : Readout), exec .readoutStart s = .next t ∧
        t.readout (.booking k) = some r ∧ r.stage = .pass1 ∧ r.unit = some u.val ∧ r.codec = s.wantedCodec (.booking k) ∧ r.depth = s.rd pCmpChainDepth ∧
        (t.comp.units[u]).state = .pass1 ∧ (∀ b : Booking, s.booking k = some b → ∃ y : Booking, t.booking k = some y ∧ y.state = .sending ∧ y.event = b.event) ∧
        t.porter.deficitT = dT ∧ t.porter.deficitM = dM ∧ t.porter.readouts.length = s.porter.readouts.length + 1)) ∧
  (∀ (s : State) (k : Nat) (b : Booking) (r : TxRecord) (o : Readout),
    let p := s.dataPort
    let x := s.ports[p]
    (x.record = none → exec .dataRecordSent s = .next s) ∧
    (x.record = some r → (r.started = false ∨ r.sent < r.content.length ∨ s.time.clock < x.sendingUntil) → exec .dataRecordSent s = .next s) ∧
    (x.record = some r → r.started = true → r.content.length ≤ r.sent → x.sendingUntil ≤ s.time.clock → r.source = some (.booking k) →
      s.readout (.booking k) = some o → o.stage = .handed → s.booking k = some b → ∃ t : State, exec .dataRecordSent s = .next t ∧ t.booking k = none ∧
        k ∉ t.porter.cached ∧ t.readout (.booking k) = none ∧ (t.ports[p]).record = none ∧ (t.ports[p]).sending = none ∧
        (∀ q : Fin 18, q ≠ p → t.ports[q] = s.ports[q]) ∧ t.time = s.time ∧ t.chans = s.chans) ∧
    (x.record = some r → r.started = true → r.content.length ≤ r.sent → x.sendingUntil ≤ s.time.clock → r.source = none →
      ∃ t : State, exec .dataRecordSent s = .next t ∧ (t.ports[p]).record = none ∧ t.porter.bookings = s.porter.bookings ∧ t.porter.freeCount = s.porter.freeCount))

/-- PASS_1_END and PASS_2_END (R207–R210): after a clean first pass the unit keeps the sizes and marks of its streams and reads the fragment again, after a
second pass that agrees the fragment is whole and the unit idle; a mismatch is counted and the third quarantines the unit. DECOMPRESSION_JOB_END and
DECOMPRESSION_WAIT_TIMEOUT (R212–R214, R331): a job's end frees its decompressor and answers its command with the bytes asked for; one that met error n of
Table 9.5 before them is counted and posted, and answers BADARG with code 16 + n; a stream that ends before the window answers code 22 (the model's choice,
log entry 38), one with a poisoned word MEMERR; a job that waited too long completes TIMEOUT. -/
def Obligations.CompressionAndDecompressionEnd : Prop :=
  (∀ (s : State) (u : Fin 4) (r : Readout) (mismatch : Bool),
    let x := s.comp.units[u]
    let raw := s.fragment r.source r.words
    s.on 21 = true → s.unitReadout u = some r → r.unit = some u.val → (∀ o ∈ s.porter.readouts, o.source = r.source → o = r) →
    (r.stage = .pass1 → x.state = .pass1 → r.awaiting = 0 → ∃ (t : State) (y : Readout), exec (.pass1End u false) s = .next t ∧
      t.readout r.source = some y ∧ y.stage = .pass2 ∧ y.size = (codePayload r.codec r.huffman r.depth r.streamKib false false raw).1.length ∧
      y.streams = (codedStreams r.codec r.huffman r.depth r.streamKib raw).map streamMark ∧
      (t.comp.units[u]).state = .pass2 ∧ (t.comp.units[u]).mismatches = x.mismatches ∧ { t with porter := s.porter, comp := s.comp, mem := s.mem } = s) ∧
    (r.stage = .pass1 → 0 < r.awaiting → exec (.pass1End u mismatch) s = .next s) ∧
    (r.stage = .pass2 → 0 < r.awaiting → exec (.pass2End u mismatch) s = .next s) ∧
    (r.stage = .pass2 → x.state = .pass2 → r.awaiting = 0 → r.differs = false → s.Inv → ∃ (t : State) (y : Readout), exec (.pass2End u false) s = .next t ∧
      t.readout r.source = some y ∧ y.stage = .handed ∧ y.unit = none ∧ y.payload = r.payload ∧ (t.comp.units[u]).state = .idle ∧
      t.rd (pCmpUCntFragments u.val) = min (s.rd (pCmpUCntFragments u.val) + 1) 0xFFFFFFFF ∧
      t.comp.rawBytes = s.comp.rawBytes + BitVec.ofNat 64 (8 * r.raw.length) ∧ t.comp.outBytes = s.comp.outBytes + BitVec.ofNat 64 r.payload.length) ∧
    (r.stage = .pass1 → x.state = .pass1 → r.awaiting = 0 → s.Inv → ∃ t : State, exec (.pass1End u true) s = .next t ∧
      (t.comp.units[u]).mismatches = x.mismatches + 1 ∧ ((t.comp.units[u]).state = if 3 ≤ x.mismatches + 1 then .quarantined else .idle) ∧
      t.rd (pCmpUCntMismatch u.val) = min (s.rd (pCmpUCntMismatch u.val) + 1) 0xFFFFFFFF ∧
      t.rd pCmpCntFallback = min (s.rd pCmpCntFallback + 1) 0xFFFFFFFF) ∧
    (r.stage = .pass2 → x.state = .pass2 → r.awaiting = 0 → mismatch = true ∨ r.differs = true → s.Inv → ∃ t : State, exec (.pass2End u mismatch) s = .next t ∧
      (t.comp.units[u]).mismatches = x.mismatches + 1 ∧ ((t.comp.units[u]).state = if 3 ≤ x.mismatches + 1 then .quarantined else .idle) ∧
      t.rd (pCmpUCntMismatch u.val) = min (s.rd (pCmpUCntMismatch u.val) + 1) 0xFFFFFFFF ∧ t.rd pCmpCntFallback = min (s.rd pCmpCntFallback + 1) 0xFFFFFFFF)) ∧
  (∀ (s : State) (k : Fin 2) (j : Job) (js : List Job) (f : InFlight) (off len n : Nat),
    let out := (expand j.format j.limit j.source).1
    let err := (expand j.format j.limit j.source).2
    let tag := j.tag.toNat % 4096
    let freed := (s.freeDecompressor k).bump (pCmpDCntJobs k.val)
    let aborted := (({ freed with comp := { freed.comp with errors := freed.comp.errors.set k.val n } } : State).bump (pCmpDCntAborts k.val)).post (408 + k.val) 1 (n + 16 * tag)
    let badArg := fun (t : State) (code : Nat) => t.finish j.mailbox f .badarg 0 (natLe 2 code ++ natLe 2 tag)
    (s.comp.jobs[k] = none → exec (.decompressionJobEnd k) s = .next s) ∧
    (s.comp.jobs[k] = some j → s.aelkoRuns = true → s.keeper.inFlight[j.mailbox] = some f → f.cont = false → j.window = some (off, len) → j.memErr = false →
      (off + len ≤ out.length → exec (.decompressionJobEnd k) s = .next (freed.finish j.mailbox f .ok 0 ((out.drop off).take len))) ∧
      (out.length < off + len → err = some n → exec (.decompressionJobEnd k) s = .next (badArg aborted (16 + n))) ∧
      (out.length < off + len → err = none → off < out.length → exec (.decompressionJobEnd k) s = .next (freed.finish j.mailbox f .ok 0 (out.drop off))) ∧
      (out.length < off + len → err = none → out.length ≤ off → exec (.decompressionJobEnd k) s = .next (badArg freed 22))) ∧
    (s.comp.jobs[k] = some j → s.aelkoRuns = true → s.keeper.inFlight[j.mailbox] = some f → j.window = none → j.memErr = false → err = some n →
      (∃ b : TransferBlock, f.cmd = .engLoad b) → exec (.decompressionJobEnd k) s = .next (badArg (aborted.endTransfer j.mailbox) (16 + n))) ∧
    (s.comp.jobs[k] = some j → s.aelkoRuns = true → s.keeper.inFlight[j.mailbox] = some f → j.memErr = true →
      exec (.decompressionJobEnd k) s = .next ((freed.endTransfer j.mailbox).finish j.mailbox f .memerr 0 [])) ∧
    (s.comp.waiting = [] → exec .decompressionWaitTimeout s = .next s) ∧
    (s.comp.waiting = j :: js → s.aelkoRuns = true → s.keeper.inFlight[j.mailbox] = some f → ∃ t : State,
      exec .decompressionWaitTimeout s = .next (t.finish j.mailbox f .timeout 0 []) ∧ t.comp.waiting = js ∧ t.comp.jobs = s.comp.jobs ∧
      t.keeper.transfers[j.mailbox] = none))

/-! ### Links (spec/10) -/

/-- R221: a received frame is discarded under the first case that holds, counted there, and posted at the first of its kind; a port whose lanes are down or
unpowered receives nothing. Violations are counted on their lane whatever becomes of the frame, and spoil the exchange of a port that carries TIME frames
(R86). Stated of TEST, which travels downward only and is not taken on a STANDBY link. TEST, LANTERN and CREDIT frames (R228, R231, R237): what each leaves
on its port, and that a CREDIT limit outside 4–16 is refused. -/
def Obligations.FramesAreCheckedAndTaken : Prop :=
  (∀ (s : State) (p : Fin 18) (m : FrameMeta) (tag : Word),
    let k := p.val
    let x := s.ports[p]
    let d : Fin 2 := if p = 17 then 1 else 0
    let y := s.time.domains[d]
    let n := s.noteViols p m
    let out := fun (t : State) => exec (.testFrame p m tag) s = .next t
    let counted := s.bumpBy (pLaneCntViol (portLane p)) (m.laneViols 0)
    ((∀ i : Nat, m.laneViols i = 0) → n = s) ∧
    ((s.lanes.ports[p]).width = 1 → m.laneViols 0 ≠ 0 → k < 16 ∨ s.on 30 = false → n = counted) ∧
    ((s.lanes.ports[p]).width = 1 → m.laneViols 0 ≠ 0 → 16 ≤ k → s.on 30 = true →
      n = counted.withDomain d { y with exchange := { y.exchange with bad := y.exchange.bad || y.exchange.seq.isSome } }) ∧
    (x.cut = none → s.on (portDomain p) = false ∨ s.lanesUp p = false → out s) ∧
    (x.cut = none → s.on (portDomain p) = true → s.lanesUp p = true →
      (m.checkOk = false → out (n.bumpPost (pPortPCntCheck k) (portSource p) 0x27 10)) ∧
      (m.checkOk = true → m.codeViolation = true → out (n.bumpPost (pPortPCntCode k) (portSource p) 0x28 0)) ∧
      (m.checkOk = true → m.codeViolation = false → m.formOk = false ∨ k < 16 ∨ s.linked p = false → out (n.bump (pPortPCntRefusedFrame k))) ∧
      (m.checkOk = true → m.codeViolation = false → m.formOk = true → 16 ≤ k → s.linked p = true → m.link ≠ x.inc → x.oldInc = none →
        out (n.bumpPostCount (pPortPCntStale k) (portSource p) 0x23)) ∧
      (s.Hears p m → 16 ≤ k → x.state = .standby → out (s.bump (pPortPCntRefusedFrame k))))) ∧
  (∀ (s : State) (p : Fin 18) (m : FrameMeta) (tag summary granted : Word) (seq device : Half) (limit : Nat),
    let h := s.heard p
    let x := s.ports[p]
    let port := fun (t : State) (y : Port) => ({ t with ports := s.ports.set p.val y } : State)
    s.Hears p m →
    (16 ≤ p.val → x.state = .admitted → exec (.testFrame p m tag) s =
      .next (port (h.bump (pPortPCntTest p.val)) { x with testTag := tag, testTick := s.time.tick.setWidth 32 })) ∧
    exec (.lanternFrame p m seq device summary) s = .next (port h { x with lanternAt := s.time.clock, lapsed := false, summary := summary, partner := device }) ∧
    (16 ≤ p.val → x.state = .admitted → 4 ≤ limit → limit ≤ 16 → exec (.creditFrame p m limit granted) s = .next (port h { x with limit := limit, granted := granted })) ∧
    (limit < 4 ∨ 16 < limit → exec (.creditFrame p m limit granted) s = .next (s.bump (pPortPCntRefusedFrame p.val))))

/-- The columns of a frame (R218, R219): its bytes are striped over the lanes of its port, each special symbol fills a column on every lane, and of 4,096
columns in a row one is SKIP; the columns counted are those formed. That every 4,096th column is SKIP is the model's (log entry 80). The six check-value
units (R226): a CRC-32C run in a unit of the courier leaves its running value there, and the value of a port whose frame has not ended is parked; Aelko's
units run from the value they are given. Which unit serves which port, and the values at rest, are the model's (log entry 80). -/
def Obligations.FramesAreStripedAndChecked : Prop :=
  (∀ (n i : Nat) (b : TxBody) (bytes : List Byte), 0 < n →
    let cols := frameColumns n b bytes
    b.size % 4 = 0 ∧
    (bytes.length % n = 0 → ∀ c ∈ cols, c.length = n) ∧
    cols.length = frameCols n b bytes.length ∧
    (b ≠ .abort → cols.getLast? = some (List.replicate n (.special .eof))) ∧
    (insertSkips n i cols).length = withSkips i cols.length ∧
    (insertSkips n i cols).filter (fun c => c ≠ List.replicate n (.special .skip)) = cols) ∧
  (∀ (s : State) (p : Fin 18) (k : Fin 6) (from_ : Word) (bs cs : List Byte),
    let u : Fin 4 := ⟨p.val % 4, by omega⟩
    let t := s.courierUnit p bs
    t.checks.running[u.val] = crc32cRun crc32cSeed bs ∧ t.checks.owner[u] = some p.val ∧
    (∀ i : Fin 6, i.val ≠ u.val → t.checks.running[i] = s.checks.running[i]) ∧ { t with checks := s.checks } = s ∧
    (s.checks.owner[u] = none → ∀ e ∈ t.checks.parked, e ∈ s.checks.parked) ∧
    (∀ q : Fin 18, s.checks.owner[u] = some q.val → q ≠ p → s.time.clock < (s.ports[q]).busyUntil → (q.val, s.checks.running[u.val]) ∈ t.checks.parked) ∧
    crc32c (bs ++ cs) = crc32cRun (crc32cRun crc32cSeed bs) cs ^^^ crc32cSeed ∧
    ((s.aelkoUnit k from_ bs).checks.running[k] = crc32cRun from_ bs ∧ { (s.aelkoUnit k from_ bs) with checks := s.checks } = s))

/-- CTRL and EVQ frames (R226, R229, R298): a child's goes up with the route built, a command of no more hops is delivered into its mailbox, and one with hops
left goes down the port its route names; a direction whose queue holds 16 frames drops the frame and counts it, and a hop count above 8 or a mailbox above 4
is refused (R221). The frame's check runs in the unit of its port. The values at rest of the check units are the model's (log entry 80). A command block
delivered to a FREE mailbox is stored, posts it and raises Aelko's signal (R357); on any other it is dropped, FD_MB_ERR flags it and OVERRUN is posted
(R298). -/
def Obligations.ControlAndEventFramesAreRouted : Prop :=
  (∀ (s : State) (p q : Fin 18) (m : FrameMeta) (f : CtrlFrame) (g : EvqFrame) (mb : Fin 8),
    let c := (s.courierUnit p ((TxBody.ctrl f).bytes m.link 0)).heard p
    let h := s.heard p
    let up := s.dataPort
    let room := fun (t : Fin 18) => s.forwarding (decide (t.val < 16)) < 16
    let sent := fun (u : State) (t : Fin 18) (b : TxBody) => ({ u with ports := s.ports.set t.val { (s.ports[t]) with tx := (s.ports[t]).tx ++ [⟨b, none, 0, true, 0⟩] } } : State)
    s.Inv → s.Hears p m →
    (p.val < 16 → f.up = true → f.hops.toNat < 8 → f.mailbox.toNat < 5 → room up → exec (.ctrlFrame p m f) s =
      .next (sent c up (.ctrl { f with route := f.route <<< 4 ||| BitVec.ofNat 32 p.val, hops := f.hops + 1 }))) ∧
    (p.val < 16 → f.up = true → f.hops.toNat < 8 → f.mailbox.toNat < 5 → ¬room up → exec (.ctrlFrame p m f) s = .next (c.bumpPost (pPortPCntDropped p.val) (portSource p) 0x29 1)) ∧
    (16 ≤ p.val → f.up = false → f.hops = 0 → f.bcast = false → mb.val < 5 → f.mailbox.toNat = mb.val → mbPort mb = p →
      exec (.ctrlFrame p m f) s = .next (c.deliver mb f.block)) ∧
    (16 ≤ p.val → f.up = false → 0 < f.hops.toNat → f.hops.toNat ≤ 8 → f.mailbox.toNat < 5 → q.val = f.route.toNat % 16 → s.linked q = true → room q →
      exec (.ctrlFrame p m f) s = .next (sent c q (.ctrl { f with route := f.route >>> 4, hops := f.hops - 1 }))) ∧
    (8 < f.hops.toNat ∨ 4 < f.mailbox.toNat → exec (.ctrlFrame p m f) s =
      .next ((s.courierUnit p ((TxBody.ctrl f).bytes m.link 0)).bump (pPortPCntRefusedFrame p.val))) ∧
    (p.val < 16 → (s.ports[p]).state = .admitted → 1 ≤ g.records.length → g.records.length ≤ 8 → g.hops.toNat < 8 → room up → exec (.evqFrame p m g) s =
      .next (sent h up (.evq { g with route := g.route <<< 4 ||| BitVec.ofNat 32 p.val, hops := g.hops + 1 }))) ∧
    (p.val < 16 → (s.ports[p]).state = .admitted → 9 ≤ g.records.length ∨ 8 < g.hops.toNat → exec (.evqFrame p m g) s = .next (s.bump (pPortPCntRefusedFrame p.val)))) ∧
  (∀ (s : State) (mb : Fin 8) (block : List Byte), s.Inv → block.length % 4 = 0 →
    let t := s.deliver mb block
    let base := 512 * mb.val
    (s.fd.mb[mb] = .free → t.fd.mb = s.fd.mb.set mb.val .posted ∧
      (∀ k : Nat, t.fd.mbMem.get k = if h : base ≤ k ∧ k < base + block.length then block[k - base]'(by omega) else s.fd.mbMem.get k) ∧
      (¬ s.aelkoIsland ∈ s.power.signals → { t with fd := s.fd } = { s with power := { s.power with signals := s.aelkoIsland :: s.power.signals } }) ∧
      (s.aelkoIsland ∈ s.power.signals → { t with fd := s.fd } = s.islandBit s.aelkoIsland 0) ∧ { t.fd with mb := s.fd.mb, mbMem := s.fd.mbMem } = s.fd) ∧
    (s.fd.mb[mb] ≠ .free → t = ({ s with fd := { s.fd with mbErr := s.fd.mbErr ||| (1#16 <<< (8 + mb.val)) }, fresh := s.setNow 0 (1#16 <<< (8 + mb.val)) } : State).post 505 2 mb.val))

/-- LANTERN_SEND, LANTERN_TIMEOUT, EVQ_FRAME_SEND and CREDIT_PERIOD (R230, R231, R237). A partner whose lanterns lapse is declared absent as the tick ends (the
model's, log entry 80); while free rooms are above ROOMS.RESERVE the grant rises to PORT.P_CREDIT_MAX units beyond what has left the buffer. FRAME_TRANSMIT
(R219, R223, R224, R231): while the wire is busy nothing starts; of the frames that the port's state carries (R233) that of the highest rank leaves the
queue first, among equals the first that arrived, and holds the wire for its columns; it pre-empts a DATA frame in progress at its 32-bit boundary, which is
counted once and ends later; a second one back to back follows without a further PREEMPT; DATA is cut from its record, within the credit granted, when
nothing else waits. -/
def Obligations.FramesAreSentByRankAndCredit : Prop :=
  (∀ (s : State) (p : Fin 18) (q : Fin 16),
    let x := s.ports[p]
    let y := s.ports[downPort q]
    let up := s.dataPort
    let now := s.time.clock
    (s.time.tick.toNat % 16384 ≠ 0 ∨ s.on 30 = false → exec .lanternSend s = .next s) ∧
    (s.time.tick.toNat % 16384 = 0 → s.on 30 = true → ∃ t : State, exec .lanternSend s = .next t ∧ { t with ports := s.ports } = s ∧
      (s.linked p = false → t.ports[p] = x) ∧
      (s.linked p = true → t.ports[p] = { x with
        lanternDue := now
        tx := x.tx.filter (fun f => f.body.start ≠ .lantern) ++ [⟨.lantern 0 (BitVec.ofNat 16 (s.rd pDevNumber)) s.summary, none, 0, false, 0⟩] })) ∧
    (s.linked p = true → x.lanternAt + 65536 ≤ now → exec (.lanternTimeout p) s = .next (s.setPort p { x with lapsed := true })) ∧
    (s.linked p = true → x.lapsed = true → (∀ k : Fin 18, k ≠ p → (s.ports[k]).lapsed = false) → s.lapse = s.declareAbsent p 1 5) ∧
    (s.linked p = false ∨ now < x.lanternAt + 65536 → exec (.lanternTimeout p) s = .next s) ∧
    ((s.ports[up]).state ≠ .admitted ∨ s.fd.upstream = [] ∨ (s.fd.upstream.length < 8 ∧ now < s.fd.upstreamAt + 1024) → exec .evqFrameSend s = .next s) ∧
    ((s.ports[up]).state = .admitted → s.fd.upstream ≠ [] → 8 ≤ s.fd.upstream.length ∨ s.fd.upstreamAt + 1024 ≤ now → exec .evqFrameSend s =
      .next (({ s with fd := { s.fd with upstream := s.fd.upstream.drop 8, upstreamAt := now } } : State).enqueue up (.evq
        { hops := 0, route := 0, source := BitVec.ofNat 16 (s.rd pDevNumber), array := BitVec.ofNat 4 (s.rd pDevArray), records := s.fd.upstream.take 8 }))) ∧
    (y.state ≠ .admitted ∨ now < y.creditAt + 16384 → exec (.creditPeriod q) s = .next s) ∧
    (y.state = .admitted → y.creditAt + 16384 ≤ now → s.atReserve = true → exec (.creditPeriod q) s =
      .next ((s.setPort (downPort q) { y with announced := y.granted, creditAt := now }).enqueue (downPort q) (.credit (s.rd (pPortPCreditMax q.val)) y.granted))) ∧
    (y.state = .admitted → s.atReserve = false → y.rxWait = [] →
      let target := y.consumed + BitVec.ofNat 32 (s.rd (pPortPCreditMax q.val))
      let up := fun (u : State) => (u.setPort (downPort q) { y with granted := target, announced := target, creditAt := now }).enqueue (downPort q)
        (.credit (s.rd (pPortPCreditMax q.val)) target)
      (0 < (target - y.granted).toInt → 4 ≤ (target - y.announced).toNat → s.raiseGrant q = up s) ∧
      (0 < (target - y.granted).toInt → (target - y.announced).toNat < 4 → s.raiseGrant q = s.setPort (downPort q) { y with granted := target }) ∧
      (0 < (target - y.granted).toInt → (target - y.announced).toNat < 4 → y.creditAt + 16384 ≤ now → exec (.creditPeriod q) s = .next (up s)))) ∧
  (∀ (s : State) (p : Fin 18) (fine : BitVec 10) (f : TxFrame) (tag : Word) (d : DataFrame) (r : TxRecord),
    let x := s.ports[p]
    let now := s.time.clock
    let waits := x.tx.filter (fun g => x.carries g.body)
    let seg := (r.content.drop r.sent).take (s.segmentMax p)
    let size := 44 + (seg.length + 3) / 4 * 4
    let units := (size + 255) / 256
    let w := s.wireWidth p
    let cut : DataFrame := { first := !r.started, last := decide (r.content.length ≤ r.sent + seg.length), offset := r.sent, waybill := r.waybill, waybillOk := true, segment := seg }
    let own := 2 + (16 + w - 1) / w
    let left : Port := { x with tx := x.tx.erase f, lastSent := some { f with link := x.inc } }
    (firstOfRank x.tx = some f → f ∈ x.tx ∧ ∀ g ∈ x.tx, f.rank ≤ g.rank) ∧
    (s.sendable p = false → exec (.frameTransmit p fine) s = .next s) ∧
    (s.sendable p = true → p ≠ s.dataPort → now ≤ x.lanternDue + 4096 → now < x.busyUntil → exec (.frameTransmit p fine) s = .next s) ∧
    (s.sendable p = true → p ≠ s.dataPort → now ≤ x.lanternDue + 4096 → x.busyUntil ≤ now →
      firstOfRank waits = some f → f.body = .test tag → f.launched = none → s.clearOfLaunch p (.test tag) = true →
      (x.sending = none → exec (.frameTransmit p fine) s = .next (s.setPort p { left with busyUntil := now + s.columnTicks p own, inserted := false })) ∧
      (x.sending = some d → now < x.sendingUntil → x.inserted = false → exec (.frameTransmit p fine) s = .next ((s.setPort p { left with
        busyUntil := now + s.columnTicks p (s.toBoundary p + 1 + own), inserted := true
        sendingUntil := x.sendingUntil + s.columnTicks p (own + 2) }).bump (pPortPCntPreempt p.val))) ∧
      (x.sending = some d → now < x.sendingUntil → x.inserted = true → x.busyUntil = now → exec (.frameTransmit p fine) s = .next (s.setPort p { left with
        busyUntil := now + s.columnTicks p own, inserted := true, sendingUntil := x.sendingUntil + s.columnTicks p own }))) ∧
    (s.sendable p = true → p ≠ s.dataPort → now ≤ x.lanternDue + 4096 → firstOfRank waits = some f → f.launched = none → s.clearOfLaunch p f.body = false →
      exec (.frameTransmit p fine) s = .next s) ∧
    (s.sendable p = true → p = s.dataPort → now ≤ x.lanternDue + 4096 → x.busyUntil ≤ now → x.tx = [] → s.acq.prims = [] → x.record = some r → x.state = .admitted →
      x.sending = none → r.sent < r.content.length → (∀ o ∈ s.porter.readouts, r.source ≠ some o.source) →
      ((units : Int) ≤ (x.granted - x.consumed).toInt → exec (.frameTransmit p fine) s = .next (s.setPort p { x with
        consumed := x.consumed + BitVec.ofNat 32 units, sending := some cut, inserted := false
        sendingUntil := now + s.columnTicks p (frameCols w (.data cut) size)
        lastSent := some ⟨.data cut, none, 0, false, x.inc⟩, record := some { r with sent := r.sent + seg.length, started := true } })) ∧
      ((x.granted - x.consumed).toInt < (units : Int) → exec (.frameTransmit p fine) s = .next s)))

/-- DATA_FRAME and DATA_FRAME_ABORT (R222, R224, R242, R243): the first frame of an expected record opens it in its booking, the last reports its port, a record
for no booking is late, a waybill that fails its check is counted, a frame whose head fails its check damages the record in progress, and an abort discards
what was received. What a frame that fails its check does to its record and flags is the model's (log entry 70). -/
def Obligations.DataFramesFillTheirBooking : Prop :=
  ∀ (s : State) (q : Fin 16) (p : Fin 18) (m : FrameMeta) (f : DataFrame) (b : Booking) (r : RxRecord),
    let c := downPort q
    let x := s.ports[c]
    let w := f.waybill
    let slot := w.event.toNat % 65536
    let units := (44 + (f.segment.length + 3) / 4 * 4 + 255) / 256
    s.Inv →
    (s.Hears c m → x.state = .admitted → f.waybillOk = true → f.first = true → f.offset = 0 → f.last = false → x.rx = none → x.rxWait = [] → w.kind = 1 →
      (s.booking slot = some b → b.event = w.event → b.state = .opened ∨ b.state = .closed → b.expected.getLsbD q.val = true → b.absent.getLsbD q.val = false →
        b.reported.getLsbD q.val = false → w.source = x.partner → w.start = b.start → w.length = b.length → (∀ k ∈ b.children, k.port ≠ q.val) →
        ∃ (t : State) (y : Booking), exec (.dataFrame c m f) s = .next t ∧ (t.ports[c]).rx = some ⟨.booking slot, w, f.segment.length⟩ ∧
          (t.ports[c]).rxWait = [⟨.booking slot, 0, waybillBytes w ++ f.segment, units⟩] ∧ (t.ports[c]).consumed = x.consumed + BitVec.ofNat 32 units ∧
          t.booking slot = some y ∧ y = { b with children := b.children ++ [⟨q.val, w, 0, []⟩] } ∧ t.chans = s.chans ∧ t.time = s.time) ∧
      (s.booking slot = none → ∃ t : State, exec (.dataFrame c m f) s = .next t ∧ (t.ports[c]).rx = some ⟨.drop, w, 0⟩ ∧
        t.rd (pPortPCntLate q.val) = min (s.rd (pPortPCntLate q.val) + 1) 0xFFFFFFFF ∧ t.porter.bookings = s.porter.bookings)) ∧
    (s.Hears c m → x.state = .admitted → f.waybillOk = true → f.first = false → f.last = true → x.rx = some r → r.target = .booking slot → f.waybill = r.waybill →
      f.offset = r.stored → r.stored + f.segment.length = w.payload → s.booking slot = some b →
      ∃ (t : State) (y : Booking), exec (.dataFrame c m f) s = .next t ∧ (t.ports[c]).rx = none ∧ t.booking slot = some y ∧
        y.reported = b.reported ||| (1#16 <<< q.val) ∧ (b.state = .closed → b.expected &&& ~~~(y.reported ||| b.absent) = 0 → y.state = .ready)) ∧
    (s.Hears c m → x.state = .admitted → f.waybillOk = false → x.rx = none → ∃ t : State, exec (.dataFrame c m f) s = .next t ∧ (t.ports[c]).rx = none ∧
      t.rd (pPortPCntCheck q.val) = min (s.rd (pPortPCntCheck q.val) + 1) 0xFFFFFFFF ∧ t.porter.bookings = s.porter.bookings ∧ t.mem = s.mem) ∧
    (16 ≤ p.val → s.HearsAny p m → exec (.dataFrame p m f) s = .next (s.bump (pPortPCntRefusedFrame p.val))) ∧
    (s.linked c = true → x.cut = none → x.rx = some r → r.target = .drop → ∃ t : State, exec (.dataFrameAbort c units) s = .next t ∧ (t.ports[c]).rx = none ∧
      t.rd (pPortPCntAborts q.val) = min (s.rd (pPortPCntAborts q.val) + 1) 0xFFFFFFFF ∧ t.porter.bookings = s.porter.bookings) ∧
    (s.linked c = true → x.cut = none → x.rx = some r → r.target = .booking slot → s.booking slot = some b → ∃ (t : State) (y : Booking), exec (.dataFrameAbort c units) s = .next t ∧
      (t.ports[c]).rx = none ∧ t.booking slot = some y ∧ (∀ k ∈ y.children, k.port ≠ q.val) ∧ y.reported = b.reported) ∧
    (s.on (portDomain c) = true → s.lanesUp c = true → m.checkOk = false → x.cut = none → x.state = .admitted → x.rx = some r → r.target = .booking slot → s.booking slot = some b →
      ∃ (t : State) (y : Booking), exec (.dataFrame c m f) s = .next t ∧ (t.ports[c]).rx = some ⟨.drop, r.waybill, 0⟩ ∧ t.booking slot = some y ∧
        y.absent = b.absent ||| (1#16 <<< q.val) ∧ y.corrupt = true ∧
        t.rd (pPortPCntCheck q.val) = min (s.rd (pPortPCntCheck q.val) + 1) 0xFFFFFFFF ∧ t.rd (pPortPCntDamaged q.val) = min (s.rd (pPortPCntDamaged q.val) + 1) 0xFFFFFFFF)

/-- REQUEST and CONFIRM (R234, R235, Table 10.17): a parent grants a child it may admit, or refuses with the first cause of the table; the CONFIRM admits the
link with the role granted, gives a DATA link its credit, and flushes what a STANDBY link does not carry, launches queued on it among it (R233, R328). GRANT
and REFUSE at the child (R232–R235): a GRANT of the incarnation and role asked for admits the link as its role says and is confirmed; a refusal is counted,
and on STALE the child takes its next incarnation. The first admission after a move of the data path releases every booking launched before it (R347). That
a link which takes the role DATA releases the bookings launched before it is the model's (log entry 67). -/
def Obligations.AdmissionIsRequestedAndGranted : Prop :=
  (∀ (s : State) (q : Fin 16) (m : FrameMeta) (f : AdmitFrame) (at_ : Nat),
    let p := downPort q
    let x := s.ports[p]
    let h := s.heard p
    let grants := (h.setPort p { x with state := .admitting, inc := f.link, role := f.argument.toNat, partner := f.device, partnerArray := f.array
                                        granted := 0, consumed := 0, announced := 0, grantAt := some s.time.clock }).sendAdmit p .grant f.link f.argument
    let refuses := fun (c : Nat) => exec (.request p m f) s = .next ((h.sendAdmit p .refuse f.link (BitVec.ofNat 8 c)).noteRefusal p f.link.toNat c)
    s.Inv → s.on (portDomain p) = true → s.lanesUp p = true → m.checkOk = true → m.codeViolation = false → (∀ n : Nat, m.laneViols n = 0) → m.formOk = true →
    (s.linked p = false →
      (s.rd (pPortPEnable p.val) = 0 → refuses 1) ∧
      (s.rd (pPortPEnable p.val) = 1 → x.lastInc = some f.link ∨ f.link = 0 → refuses 2) ∧
      (s.rd (pPortPEnable p.val) = 1 → x.lastInc ≠ some f.link → f.link ≠ 0 → f.stepping ≠ 0xB1 ∨ f.release ≠ s.fd.release → refuses 3) ∧
      (s.rd (pPortPEnable p.val) = 1 → x.lastInc ≠ some f.link → f.link ≠ 0 → f.stepping = 0xB1 → f.release = s.fd.release → f.argument ≠ 1 → f.argument ≠ 2 → refuses 4) ∧
      (s.rd (pPortPEnable p.val) = 1 → x.lastInc ≠ some f.link → f.link ≠ 0 → f.stepping = 0xB1 → f.release = s.fd.release → f.argument = 1 ∨ f.argument = 2 →
        exec (.request p m f) s = .next grants)) ∧
    (f.link = x.inc → x.grantAt = some at_ → x.role = 1 → x.state = .admitting → ∃ t : State, exec (.confirm p m f) s = .next t ∧ (t.ports[p]).state = .admitted ∧
      (t.ports[p]).lanternAt = s.time.clock ∧ (t.ports[p]).grantAt = none ∧ (t.ports[p]).inc = x.inc ∧
      (∀ k : Fin 18, k ≠ p → t.ports[k] = s.ports[k]) ∧ t.chans = s.chans ∧ ((∀ b ∈ s.porter.bookings, b.2.launch ≠ s.time.tick) → t.porter = s.porter)) ∧
    (f.link = x.inc → x.grantAt = some at_ → x.role = 2 → ∃ t : State, exec (.confirm p m f) s = .next t ∧ (t.ports[p]).state = .standby ∧
      (t.ports[p]).tx = x.tx.filter (fun g => ({ x with state := .standby } : Port).carries g.body) ∧
      (∀ (tick : DWord) (g : LaunchFrame) (tag : Half), x.state = .admitted → .frame tick q g tag ∉ t.time.queue) ∧ (x.state ≠ .admitted → t.time.queue = s.time.queue) ∧
      t.chans = s.chans ∧ t.engines = s.engines) ∧
    (f.link ≠ x.inc ∨ x.grantAt = none → exec (.confirm p m f) s = .next h)) ∧
  (∀ (s : State) (p : Fin 18) (m : FrameMeta) (f : AdmitFrame),
    let x := s.ports[p]
    let h := s.heard p
    let noted := (h.bump (pPortPCntRefused p.val)).postLedger (portSource p) 0x21 (f.link.toNat + 256 * f.argument.toNat)
    s.on (portDomain p) = true → s.lanesUp p = true → m.checkOk = true → m.codeViolation = false → (∀ n : Nat, m.laneViols n = 0) → m.formOk = true → 16 ≤ p.val → x.state = .admitting →
    (f.link = x.inc → f.argument.toNat = x.role → s.keeper.dpAwaits = true → p = s.dataPort → f.argument = 1 → ∃ t : State, exec (.grant p m f) s = .next t ∧ (t.ports[p]).state = .admitted ∧
      t.porter.bookings = [] ∧ t.keeper.dpAwaits = false ∧ t.chans = s.chans ∧ t.time = s.time) ∧
    (f.link = x.inc → f.argument.toNat = x.role → s.Inv → s.keeper.dpAwaits = false ∨ p ≠ s.dataPort ∨ f.argument ≠ 1 → exec (.grant p m f) s = .next ((({ h with
      keeper := { s.keeper with noStandby := s.keeper.noStandby && p != s.dataPort }
      ports := s.ports.set p.val { x with granted := 0, consumed := 0, partner := f.device, partnerArray := f.array, state := if f.argument = 1 then .admitted else .standby
                                          role := f.argument.toNat, lanternAt := s.time.clock, grantAt := none, askedAt := none } } : State)).dropPrims.sendAdmit
        p .confirm x.inc f.argument)) ∧
    (f.link ≠ x.inc ∨ f.argument.toNat ≠ x.role → exec (.grant p m f) s = .next h) ∧
    (f.argument = 2 → exec (.refuse p m f) s = .next ((noted.setPort p { x with
      state := .down, askedAt := none, renewAt := none, oldInc := none, windowEnd := none }).takeIncarnation)) ∧
    (f.argument ≠ 2 → exec (.refuse p m f) s = .next (noted.setPort p { x with refusedAt := some s.time.clock, askedAt := none })))

/-- CLOSE, ROLE and RENEW (R233, R236, R237): a CLOSE declares the partner absent; the parent answers a new role with GRANT; a renewal takes the new incarnation
with the old still heard for 16,384 ticks, or is refused as STALE. A child declared absent (R237–R239): its port is ABSENT with its incarnation kept as the
last, nothing waits on it but the CLOSE, and every booking that still expects it marks it absent; one launched in the same tick does not expect it (R240).
The retries of admission (R234–R236): REQUEST, GRANT and RENEW are sent again every 16,384 ticks, a child whose parent was declared absent with its lanes up
asks afresh, a refused child asks again after 1,048,576, and the renewal window ends. An absence and a last EOF of one tick (R240): a frame that ends a
record in the tick in which its port was declared absent still counts as received, and so does one in the tick of its booking's timeout; nothing is counted
as a timeout then. -/
def Obligations.LinksCloseRenewAndRetry : Prop :=
  (∀ (s : State) (q : Fin 16) (p : Fin 18) (m : FrameMeta) (f : AdmitFrame),
    let c := downPort q
    let x := s.ports[c]
    let h := s.heard c
    let renewed := ((h.setPort c { x with inc := f.link, oldInc := some x.inc, windowEnd := some (s.time.clock + 16384) }).sendAdmit c .grant f.link (BitVec.ofNat 8 x.role)).postLedger
      (portSource c) 0x2A (f.link.toNat + 256 * x.inc.toNat)
    m.checkOk = true → m.codeViolation = false → (∀ n : Nat, m.laneViols n = 0) → m.formOk = true →
    (s.on (portDomain p) = true → s.lanesUp p = true → exec (.close p m f) s = .next ((s.heard p).declareAbsent p 3 5)) ∧
    (s.on (portDomain c) = true → s.lanesUp c = true → s.linked c = true →
      (f.link = x.inc → f.argument = 1 ∨ f.argument = 2 → exec (.role c m f) s = .next ((h.setPort c { x with
        role := f.argument.toNat, grantAt := some s.time.clock }).sendAdmit c .grant f.link f.argument)) ∧
      (f.link ≠ x.inc → exec (.role c m f) s = .next h) ∧
      (f.argument = x.inc → f.link ≠ 0 → f.link ≠ f.argument → x.lastInc ≠ some f.link → exec (.renew c m f) s = .next renewed) ∧
      (f.argument ≠ x.inc ∨ f.link = 0 ∨ f.link = f.argument ∨ x.lastInc = some f.link →
        exec (.renew c m f) s = .next ((h.sendAdmit c .refuse f.link 2).noteRefusal c f.link.toNat 2)))) ∧
  (∀ (s : State) (q : Fin 16) (why cause k : Nat) (b : Booking),
    let p := downPort q
    let x := s.ports[p]
    let t := s.declareAbsent p why cause
    (s.linked p = false → t = s) ∧
    (s.Inv → s.linked p = true → x.rx = none →
    (t.ports[p]).state = .absent ∧ (t.ports[p]).lastInc = some x.inc ∧ (t.ports[p]).granted = 0 ∧ (t.ports[p]).sending = none ∧
    ((t.ports[p]).tx.length = if s.lanesUp p then 1 else 0) ∧ t.rd (pPortPCntAbsent p.val) = min (s.rd (pPortPCntAbsent p.val) + 1) 0xFFFFFFFF ∧
    (∀ u : Fin 18, u ≠ p → t.ports[u] = s.ports[u]) ∧
    (s.porter.bookings = [(k, b)] → b.state = .opened ∨ b.state = .closed → b.expected.getLsbD q.val = true → b.reported.getLsbD q.val = false →
      ∃ y : Booking, t.booking k = some y ∧
        (b.launch ≠ s.time.tick → y.expected = b.expected ∧ y.absent = b.absent ||| (1#16 <<< q.val)) ∧
        (b.launch = s.time.tick → y.expected = b.expected &&& ~~~(1#16 <<< q.val) ∧ y.absent = b.absent) ∧
        (b.state = .closed → y.expected &&& ~~~(b.reported ||| y.absent) = 0 → y.state = .ready)))) ∧
  (∀ (s : State) (p : Fin 18) (q : Fin 16) (n : Nat) (o : Byte),
    let x := s.ports[p]
    let y := s.ports[downPort q]
    let now := s.time.clock
    let role : Byte := if p = s.dataPort then 1 else 2
    let asks := (s.setPort p { x with state := .admitting, inc := s.mram.incarnation, role := role.toNat, askedAt := some now, refusedAt := none }).sendAdmit p .request
      s.mram.incarnation role
    let able := 16 ≤ p.val ∧ s.lanesUp p = true ∧ s.rd (pPortPEnable p.val) = 1 ∧ s.incarnationWaits = false ∧ s.mram.incarnation ≠ 0
    (able → x.state = .admitting → x.askedAt = some n → n + 16384 ≤ now → exec (.requestRetry p) s = .next asks) ∧
    (able → x.state = .absent → x.askedAt = none → x.refusedAt = none → exec (.requestRetry p) s = .next asks) ∧
    (x.askedAt = none → x.state ≠ .absent ∨ x.refusedAt ≠ none → exec (.requestRetry p) s = .next s) ∧
    (x.askedAt = some n → x.state ≠ .admitting ∨ now < n + 16384 → exec (.requestRetry p) s = .next s) ∧
    (able → x.refusedAt = some n → n + 1048576 ≤ now → exec (.requestAfterRefuse p) s = .next asks) ∧
    (x.refusedAt = some n → now < n + 1048576 → exec (.requestAfterRefuse p) s = .next s) ∧
    (y.grantAt = some n → n + 16384 ≤ now → exec (.grantRetry q) s =
      .next ((s.setPort (downPort q) { y with grantAt := some now }).sendAdmit (downPort q) .grant y.inc (BitVec.ofNat 8 y.role))) ∧
    (y.grantAt = none → exec (.grantRetry q) s = .next s) ∧
    (x.renewAt = some n → x.oldInc = some o → s.linked p = true → n + 16384 ≤ now → exec (.renewRetry p) s =
      .next ((s.setPort p { x with renewAt := some now }).sendAdmit p .renew x.inc o)) ∧
    (x.renewAt = none → exec (.renewRetry p) s = .next s) ∧
    (x.windowEnd = some n → n ≤ now → exec (.renewalWindowEnd p) s = .next (s.setPort p { x with oldInc := none, windowEnd := none })) ∧
    (x.windowEnd = none → exec (.renewalWindowEnd p) s = .next s)) ∧
  (∀ (s : State) (q : Fin 16) (m : FrameMeta) (f : DataFrame) (b : Booking) (r : RxRecord) (timed : List (Nat × Word)) (rx : Option RxRecord),
    let c := downPort q
    let x := s.ports[c]
    let slot := f.waybill.event.toNat % 65536
    s.Inv → s.on (portDomain c) = true → x.cut = some ⟨.admitted, rx, [slot], timed⟩ → x.state = .absent → rx = some r →
    m.checkOk = true → m.codeViolation = false → (∀ n : Nat, m.laneViols n = 0) → m.formOk = true → m.link = x.inc →
    f.waybillOk = true → f.first = false → f.last = true → f.waybill.kind = 1 → f.waybill = r.waybill → f.offset = r.stored → r.target = .booking slot →
    r.stored + f.segment.length = f.waybill.payload → s.booking slot = some b → b.reported.getLsbD q.val = false →
    ∃ (t : State) (y : Booking), exec (.dataFrame c m f) s = .next t ∧ t.booking slot = some y ∧
      y.reported = b.reported ||| (1#16 <<< q.val) ∧ y.absent = b.absent &&& ~~~(1#16 <<< q.val) ∧ (t.ports[c]).state = .absent ∧
      (t.ports[c]).cut = some ⟨.admitted, none, [], []⟩)

/-! ### Serial lanes (spec/11) -/

/-- Steps 1 to 4 of Table 11.5 (R256, R257, R260): signal on every lane, comma lock and three CAP sets with SEEN on every lane lead a port from LOCKING through
CAPS to TRAINING at the lowest rung both ends offer; a mismatch is posted and waits, and the time limits restart the port or leave it without work. What
step 1 does (R252, R255, R256, R262): LOCKING at the width set, at rung 0, offering the lowest LANE.MAX_RUNG of its lanes and at most L1 without an
equalisation table, its lanes counted and their first entries loaded; without REFCLK128 the port stays OFF and the absence is posted. Ports of its group
that come into service with it start too (log entry 81). What a lane sends (R251, R255, R256, R258, R260): nothing without a port, in OFF, IDLE or SLEEP;
commas while it locks, relocks or ends its training; CAP, STEP, ACK and VERDICT sets with the fields of Table 11.4; the pattern while a rung is verified,
the columns of its port in RUNNING, and the clause 37 base page of full duplex alone in BASEX. -/
def Obligations.PortsLockAndAgreeOnARung : Prop :=
  (∀ (s : State) (p : Fin 18) (lane : Fin 4) (l : Fin 21) (lock : LaneLock) (set_ : TrainSet) (skew : Nat) (present : Bool) (pairs : BitVec 4),
    let b := s.lanes.ports[p]
    let x := s.lanes.lanes[l]
    let ports := fun (t : State) (y : Bringup) => ({ t with lanes := { t.lanes with ports := s.lanes.ports.set p.val y } } : State)
    let lanes := fun (y : Lane) => ({ s with lanes := { s.lanes with lanes := s.lanes.lanes.set l.val y } } : State)
    (s.portOfLane l = none → exec (.signalDetectChange l present) s = .next (lanes { x with signal := present })) ∧
    (s.portOfLane l = some p → (present = true ∨ b.state ≠ .locking) → exec (.signalDetectChange l present) s = .next (lanes { x with signal := present })) ∧
    (s.portOfLane l = some p → b.state = .locking → exec (.signalDetectChange l false) s = .next (ports (lanes { x with signal := false }) { b with stage := .none })) ∧
    (b.state = .locking → b.stage = .none → (∀ k ∈ s.myLanes p, (s.lanes.lanes[k]).signal = true) →
      exec (.signalQualified p) s = .next (ports s { b with stage := .search, wokenByRetry := false })) ∧
    ((∃ k ∈ s.myLanes p, (s.lanes.lanes[k]).signal = false) → exec (.signalQualified p) s = .next s) ∧
    (b.state = .locking → b.stage = .search → s.basexPort p = false → s.rd (pPortPEnable p.val) = 1 → ∃ t : State, exec (.laneLock p lock) s = .next t ∧
      t.lanes.ports = s.lanes.ports.set p.val { b with state := .caps, stage := .none, partnerOffer := 4, mismatch := false, noWork := false } ∧
      (∀ k : Fin 21, t.lanes.lanes[k] = if k ∈ s.myLanes p then
        { (s.lanes.lanes[k]) with inverted := (s.lanes.lanes[k]).inverted || lock.inverted.getLsbD (k.val - portLane p), comma := (lock.commas[k.val - portLane p]?).getD 0, capSets := 0, capSeen := 0 }
        else s.lanes.lanes[k]) ∧
      { t with lanes := s.lanes } = s) ∧
    (b.state = .locking → b.stage = .search → s.basexPort p = false → s.rd (pPortPEnable p.val) ≠ 1 →
      exec (.laneLock p lock) s = .next (((s.recordCommas p lock.commas).invert p lock.inverted).lowPower p)) ∧
    (b.state = .locking → b.stage = .search → s.basexPort p = true → s.lanes.refclk125 = true → exec (.laneLock p lock) s = .next { s with lanes := { s.lanes with
      lanes := ((s.recordCommas p lock.commas).invert p lock.inverted).lanes.lanes, ports := s.lanes.ports.set p.val { b with state := .basex, stage := .none }
      basex := s.lanes.basex.set (basexIdx p).val ⟨true, false, false, 0⟩, basexLast := portLane p } }) ∧
    (b.state ≠ .locking ∨ b.stage ≠ .search → exec (.laneLock p lock) s = .next s) ∧
    (b.state = .locking → s.basexPort p = false → exec (.lockTimeout ⟨p, pairs⟩) s =
      .next ((ports ((if b.stage = .search then s.invert p pairs else s).post (412 + portLane p) 3 0) { b with noWork := true }).lowPower p)) ∧
    (∀ k : Fin 21, ((s.invert p pairs).lanes.lanes[k]).inverted = ((s.lanes.lanes[k]).inverted || (decide (k ∈ s.myLanes p) && pairs.getLsbD (k.val - portLane p)))) ∧
    (b.state ≠ .locking → exec (.lockTimeout ⟨p, pairs⟩) s = .next s) ∧
    (b.state = .caps → b.mismatch = false → set_.ok = true → lane.val < b.width → portLane p + lane.val = l.val →
      (set_.width.toNat ≠ b.width → exec (.capSet p lane set_ skew) s = .next (ports (s.post (412 + portLane p) 6 1) { b with mismatch := true })) ∧
      (set_.width.toNat = b.width → set_.laneIndex.toNat = lane.val → set_.fromChild = decide (p.val < 16) → skew ≤ 16 → b.width = 1 → b.state = .caps →
        (x.capSeen = 2 → set_.seen = true → ∃ t : State, exec (.capSet p lane set_ skew) s = .next t ∧
          t.lanes.ports[p] = { b with partnerOffer := Nat.min b.partnerOffer set_.rung.toNat, state := .training, stage := .start, rung := 0
                                      target := Nat.min b.offer (Nat.min b.partnerOffer set_.rung.toNat), resume := false, ownPass := none } ∧ { t with lanes := s.lanes } = s) ∧
        (x.capSeen < 2 → ∃ t : State, exec (.capSet p lane set_ skew) s = .next t ∧ (t.lanes.ports[p]).state = .caps ∧
          (t.lanes.lanes[l]).capSets = x.capSets + 1 ∧ { t with lanes := s.lanes } = s)) ∧
      (set_.width.toNat = b.width → set_.laneIndex.toNat = lane.val → set_.fromChild = decide (p.val < 16) → 16 < skew →
        exec (.capSet p lane set_ skew) s = .next ((s.post (412 + portLane p) 5 (min skew 65535)).startBringup p))) ∧
    (set_.ok = false → exec (.capSet p lane set_ skew) s = .next s) ∧
    (b.state = .caps → b.mismatch = true → ∃ t : State, exec (.capMismatchRetry p) s = .next t ∧
      t.lanes.ports = s.lanes.ports.set p.val { b with mismatch := false, partnerOffer := 4 } ∧
      (∀ k ∈ s.myLanes p, (t.lanes.lanes[k]).capSets = 0 ∧ (t.lanes.lanes[k]).capSeen = 0) ∧ { t with lanes := s.lanes } = s) ∧
    (b.state = .caps → b.mismatch = false → exec (.capsTimeout p) s = .next (s.startBringup p)) ∧
    (b.state ≠ .caps → exec (.capsTimeout p) s = .next s ∧ exec (.capMismatchRetry p) s = .next s)) ∧
  (∀ (s : State) (p : Fin 18) (l : Fin 21),
    let w := s.portWidth p
    let t := s.startOne p
    let offer := (lanesOf p w).foldl (fun a k => Nat.min a (s.rd (pLaneMaxRung k.val))) 4
    let settled := p.val < 16 ∨ s.onBasex (basexIdx p) = decide (s.rd (pTimeDTransport (basexIdx p).val) = 1)
    let alone := s.lanesFree p (portLane p) 1 = true ∧ ∀ q : Fin 16, p.val < q.val → q.val < p.val + w → (s.lanes.ports[downPort q]).width = 0
    (16 ≤ p.val → s.startBringup p = t) ∧
    (p.val < 16 → (∀ q : Fin 16, q.val / 4 = p.val / 4 → (t.lanes.ports[downPort q]).width ≠ 0 ∨ t.portWidth (downPort q) = 0 ∨
      t.lanesFree (downPort q) q.val (t.portWidth (downPort q)) = false) → s.startBringup p = t) ∧
    (s.on (portDomain p) = false → t = s) ∧
    (s.on (portDomain p) = true → settled → alone → s.basexPort p = false → w ≠ 0 → s.lanes.refclk128 = true → s.Inv →
      t.lanes.ports[p] = { state := .locking, width := w, stage := .none, rung := 0, target := 0, offer := if s.lanes.eqTable = none then min offer 1 else offer
                           partnerOffer := 4, table := s.lanes.eqTable, resume := false, ownPass := none, mismatch := false, wokenByRetry := false, noWork := false } ∧
      (l ∈ lanesOf p w → t.rd (pLaneCntBringup l.val) = min (s.rd (pLaneCntBringup l.val) + 1) 0xFFFFFFFF ∧ (t.lanes.lanes[l]).eq = eqEntry s.lanes.eqTable l.val 0 ∧
        (t.lanes.lanes[l]).capSets = 0 ∧ (t.lanes.lanes[l]).inverted = false ∧ (t.lanes.lanes[l]).verdictPass = none ∧ (t.lanes.lanes[l]).sent = []) ∧
      (l ∉ lanesOf p w → t.lanes.lanes[l] = s.lanes.lanes[l]) ∧ { t with lanes := s.lanes, params := s.params, fresh := s.fresh } = s) ∧
    (s.on (portDomain p) = true → settled → alone → s.basexPort p = false → w ≠ 0 → s.lanes.refclk128 = false → t = ({ s with lanes := { s.lanes with
      basex := if p.val < 16 then s.lanes.basex else s.lanes.basex.set (basexIdx p).val ⟨false, false, false, 0⟩
      ports := s.lanes.ports.set p.val { (s.lanes.ports[p]) with state := .off, width := w, stage := .none } } } : State).post (412 + portLane p) 0xC 1)) ∧
  (∀ (s : State) (p : Fin 18) (l : Fin 21),
    let b := s.lanes.ports[p]
    let x := s.lanes.lanes[l]
    let out := s.laneOut l
    let sends := fun (k : SetKind) (rung : Nat) => ∃ t : TrainSet, out = .set k t ∧ t.ok = true ∧ t.rung = BitVec.ofNat 3 rung ∧
      t.laneIndex = BitVec.ofNat 2 (l.val - portLane p) ∧ t.width = BitVec.ofNat 3 b.width ∧ t.fromChild = decide (16 ≤ p.val) ∧
      t.seen = decide (3 ≤ x.capSets) ∧ t.device = BitVec.ofNat 16 (s.rd pDevNumber) ∧
      (k = .verdict → t.errors = x.errors ∧ (t.pass = true ↔ x.pass = some true)) ∧ (k ≠ .verdict → t.errors = 0 ∧ t.pass = false)
    (s.portOfLane l = none → out = .silent) ∧
    (s.portOfLane l = some p →
      (b.state = .off ∨ b.state = .idle ∨ b.state = .sleep → out = .silent) ∧
      (b.state = .locking → s.basexPort p = false → out = .commas) ∧
      (b.state = .caps → sends .cap b.offer) ∧
      (b.state = .running → out = .columns) ∧
      (b.state = .basex → out = .pcs 0x0020) ∧
      (b.state = .training → b.stage = .start ∨ b.stage = .prbs → out = .pattern) ∧
      (b.state = .training → b.stage = .verdict → sends .verdict b.rung) ∧
      (b.state = .training → b.stage = .stepping → p.val < 16 → sends .step (b.rung + 1)) ∧
      (b.state = .training → b.stage = .acking → sends .ack (b.rung + 1)) ∧
      (b.state = .training → b.stage = .relock ∨ b.stage = .waitRetry ∨ b.stage = .finalCommas → out = .commas)))

/-- Steps 5 to 9 of Table 11.5 (R256, R258): a rung is verified by PRBS and VERDICT on every lane; one that passes below the target is followed by STEP, ACK, GO
and a relock at the next, the target by the final commas and RUNNING; a failed one by the rung below or, at L0, by a restart. What follows a rung (R256,
R258): a pass leads to STEP below the target and to the final commas at it or in a resume check; a failure above L0 falls one rung for a resume check, and
at L0 waits to restart; each switch loads the rung's entries. -/
def Obligations.RungsAreVerifiedAndClimbed : Prop :=
  (∀ (s : State) (p : Fin 18) (lane : Fin 4) (l : Fin 21) (set_ : TrainSet) (skew : Nat) (errors commas : List Nat),
    let b := s.lanes.ports[p]
    let x := s.lanes.lanes[l]
    let ports := fun (t : State) (y : Bringup) => ({ t with lanes := { t.lanes with ports := s.lanes.ports.set p.val y } } : State)
    let lanes := fun (y : Lane) => ({ s with lanes := { s.lanes with lanes := s.lanes.lanes.set l.val y } } : State)
    let passed := b.ownPass = some true ∧ ∀ k ∈ s.myLanes p, (s.lanes.lanes[k]).verdictPass = some true
    let next := set_.rung.toNat = b.rung + 1
    b.state = .training → portLane p + lane.val = l.val → lane.val < b.width → set_.ok = true →
    (b.stage = .start → set_.rung.toNat = b.rung → skew ≤ 16 → exec (.startSet p lane set_ skew) s = .next (ports (lanes { x with
      skew := skew, errors := 0, partnerErrors := 0, verdictPass := none, seeded := true }) { b with stage := .prbs })) ∧
    (b.stage = .prbs → ∃ t : State, exec (.prbsEnd p errors) s = .next t ∧ { t with lanes := s.lanes } = s ∧
      t.lanes.ports[p] = { b with stage := .verdict, ownPass := some (decide (∀ k ∈ s.myLanes p, (s.lanes.lanes[k]).seeded = true ∧
        (errors[k.val - portLane p]?).getD 0 ≤ s.rd pLanePrbsMax)) } ∧
      (∀ k ∈ s.myLanes p, (t.lanes.lanes[k]).errors.toNat = min ((errors[k.val - portLane p]?).getD 0) 65535)) ∧
    (b.stage = .verdict → set_.rung.toNat = b.rung → set_.pass = true → exec (.verdictSet p lane set_) s = .next (lanes { x with
      partnerErrors := set_.errors, verdictPass := some true })) ∧
    (b.stage = .verdict → set_.rung.toNat = b.rung → set_.pass = false → exec (.verdictSet p lane set_) s = .next ((lanes { x with
      partnerErrors := set_.errors, verdictPass := some false }).rungFail p 2 set_.errors.toNat)) ∧
    (b.stage = .verdict → passed → exec (.verdictPeriodEnd p) s = .next (s.rungUp p)) ∧
    (b.stage = .verdict → ¬passed → b.ownPass ≠ some false → exec (.verdictPeriodEnd p) s = .next (ports s { b with stage := .verdictLate })) ∧
    (b.stage = .verdict → b.ownPass = some false → exec (.verdictPeriodEnd p) s =
      .next (s.rungFail p 2 ((s.myLanes p).foldl (fun a k => Nat.max a (s.lanes.lanes[k]).errors.toNat) 0))) ∧
    (b.stage = .verdict ∨ b.stage = .verdictLate → ¬passed → exec (.verdictTimeout p) s = .next (s.rungFail p 3 0)) ∧
    (passed → exec (.verdictTimeout p) s = .next s) ∧
    (16 ≤ p.val → b.stage = .stepping → next → exec (.stepSet p lane set_) s = .next (ports s { b with stage := .acking })) ∧
    (16 ≤ p.val → b.stage = .acking → next → exec (.goSet p lane set_) s = .next (s.switchRung p (b.rung + 1))) ∧
    (p.val < 16 → b.stage = .stepping → next → b.width = 1 → x.ackCount < 2 → exec (.ackSet p lane set_) s = .next (lanes { x with ackCount := x.ackCount + 1 })) ∧
    (p.val < 16 → b.stage = .stepping → next → b.width = 1 → 2 ≤ x.ackCount → exec (.ackSet p lane set_) s =
      .next ((lanes { x with ackCount := x.ackCount + 1 }).switchRung p (b.rung + 1))) ∧
    (b.stage = .relock → exec (.relockComplete ⟨p, commas⟩) s = .next ((s.recordCommas p commas).beginVerify p) ∧
      exec (.relockTimeout p) s = .next (s.rungFail p 1 0)) ∧
    (b.stage = .waitRetry → exec (.bringupRetry p) s = .next (s.startBringup p)) ∧
    (b.stage = .finalCommas → exec (.portRunning p) s = .next ((((ports s { b with state := .running, stage := .none }).postLedger
      (412 + portLane p) 1 (b.rung + 16 * b.width)).reachStage 5).askAdmission p))) ∧
  (∀ (s : State) (p : Fin 18) (l : Fin 21) (cause errors n : Nat),
    let b := s.lanes.ports[p]
    let up := s.rungUp p
    let fail := s.rungFail p cause errors
    let sw := s.switchRung p n
    (b.resume = false → b.rung < b.target → up.lanes.ports[p] = { b with stage := .stepping, ownPass := none }) ∧
    (b.resume = true ∨ b.target ≤ b.rung → up.lanes.ports[p] = { b with stage := .finalCommas, resume := false }) ∧
    { up with lanes := s.lanes } = s ∧
    (b.rung = 0 → fail.lanes.ports[p] = { b with stage := .waitRetry, ownPass := none }) ∧
    (b.rung ≠ 0 → fail.lanes.ports[p] = { b with rung := b.rung - 1, resume := true, ownPass := none, stage := .relock } ∧
      (l ∈ s.myLanes p → (fail.lanes.lanes[l]).eq = eqEntry b.table l.val (b.rung - 1))) ∧
    (s.Inv → l ∈ s.myLanes p → fail.rd (pLaneCntRungFail l.val) = min (s.rd (pLaneCntRungFail l.val) + 1) 0xFFFFFFFF) ∧
    sw.lanes.ports[p] = { b with rung := n, stage := .relock, ownPass := none } ∧ (l ∈ s.myLanes p → (sw.lanes.lanes[l]).eq = eqEntry b.table l.val n) ∧
    { sw with lanes := s.lanes } = s)

/-- Loss of lock, with which an upstream port's domain is LOST, low power and auto-negotiation (R86, R237, R259–R261, R264). -/
def Obligations.PortsLoseLockAndSleep : Prop :=
  ∀ (s : State) (p : Fin 18) (l : Fin 21) (cause : Fin 4) (d : Fin 2) (page : Half),
    let b := s.lanes.ports[p]
    let signal := ∃ k ∈ s.myLanes p, (s.lanes.lanes[k]).signal = true
    let ports := fun (y : Bringup) => ({ s with lanes := { s.lanes with ports := s.lanes.ports.set p.val y } } : State)
    let up : Fin 18 := if d = 0 then 16 else 17
    let lost := fun (u : State) => if p = 16 then u.loseDomain 0 else if p = 17 then u.loseDomain 1 else u
    let linked := fun (full : Bool) => ({ s with lanes := { s.lanes with
      basex := s.lanes.basex.set d.val { sync := (s.lanes.basex[d]).sync, anComplete := true, linkUp := full, partner := page }, basexLast := portLane up } } : State)
    (s.portOfLane l = some p → b.state = .running → exec (.lockLost l cause) s = .next ((((lost (({ s with lanes := { s.lanes with
      ports := s.lanes.ports.set p.val { b with state := .locking, stage := .none } } } : State).declareAbsent p 2 5)).postLedger (412 + l.val) 2 (cause.val + 1)).bump
        (pLaneCntLockLost l.val)).startBringup p)) ∧
    (s.portOfLane l = some p → b.state = .basex → exec (.lockLost l cause) s =
      .next ((((s.basexDown (basexIdx p) 1).postLedger (412 + l.val) 2 (cause.val + 1)).bump (pLaneCntLockLost l.val)).startBringup p)) ∧
    (idx? 21 (portLane p) = some l → b.state = .basex → s.retrainPort p =
      (((s.basexDown (basexIdx p) 1).postLedger (412 + l.val) 2 5).bump (pLaneCntLockLost l.val)).startBringup p) ∧
    (s.portOfLane l = some p → b.state ≠ .running → b.state ≠ .basex → exec (.lockLost l cause) s = .next s) ∧
    (b.state = .idle ∨ b.state = .sleep → signal → exec (.wake p) s = .next ((s.post (412 + portLane p) 8 1).startBringup p)) ∧
    (¬signal → exec (.wake p) s = .next s) ∧
    (b.state = .idle ∨ b.state = .sleep → exec (.lowpowerRetry p) s =
      .next (((s.post (412 + portLane p) 8 2).startBringup p).modBringup p (fun y => { y with wokenByRetry := y.state == .locking }))) ∧
    (b.state ≠ .idle → b.state ≠ .sleep → exec (.lowpowerRetry p) s = .next s) ∧
    (b.state = .locking → b.wokenByRetry = true → ¬signal → exec (.wakeNoSignal p) s = .next (s.lowPower p)) ∧
    (signal → exec (.wakeNoSignal p) s = .next s) ∧
    (s.rd (pLaneLowpower (portLane p)) = 1 → s.lowPower p = ports { b with state := .idle, stage := .none, rung := 0, wokenByRetry := false }) ∧
    (s.rd (pLaneLowpower (portLane p)) = 2 → s.lowPower p = ports { b with state := .sleep, stage := .none, rung := 0, wokenByRetry := false }) ∧
    (s.rd (pLaneLowpower (portLane p)) = 0 → b.state = .locking → s.lowPower p = ports { b with wokenByRetry := false }) ∧
    (s.rd (pLaneLowpower (portLane p)) = 0 → b.state ≠ .locking → s.lowPower p = s.startBringup p) ∧
    ((s.lanes.ports[up]).state = .basex → (s.lanes.basex[d]).linkUp = false → page.getLsbD 5 = true →
      exec (.anComplete d page) s = .next ((linked true).post (412 + portLane up) 9 0)) ∧
    ((s.lanes.ports[up]).state = .basex → (s.lanes.basex[d]).linkUp = false → page.getLsbD 5 = false →
      exec (.anComplete d page) s = .next ((linked false).post (412 + portLane up) 0xB page.toNat)) ∧
    ((s.lanes.ports[up]).state ≠ .basex → exec (.anComplete d page) s = .next s)

/-! ### External memory (spec/12) -/

/-- The code of the memory words (R274, R275): a word reads good as it was written, any single upset data or check bit is found and the data repaired, and two
upset data bits are never taken for anything but a damaged word. What every reader does with a damaged word (R276–R278): a correctable word is counted and
its write-back waits at level 1; a fresh uncorrectable one is counted, logged and its poison rewrite waits; so is a poison codeword that was never written
as poison, with kind 5; poison is counted where it is consumed. A poison word that the controller did not write counts as uncorrectable (log entry 79).
MERGE_ENTRY_TIMEOUT and NIGHT_WATCH_READ (R282–R284): the entry written least recently leaves the merge buffer, whole as a write and in part as a read-
modify-write, which waits at level 3; the night watch takes a channel's words in turn, counts its passes, and its read waits at level 4. The level of a
complete entry's write is the model's (log entry 79). -/
def Obligations.DamagedWordsAreCorrectedAndWatched : Prop :=
  (∀ (d : DWord) (i k : Fin 64) (j : Fin 8),
    classify d (checkBits d) = .good ∧
    classify (d ^^^ (1#64 <<< i.val)) (checkBits d) = .corrected d i.val ∧
    classify d (checkBits d ^^^ (1#8 <<< j.val)) = .corrected d (64 + j.val) ∧
    (i ≠ k → classify (d ^^^ (1#64 <<< i.val) ^^^ (1#64 <<< k.val)) (checkBits d) = .bad ∨
      classify (d ^^^ (1#64 <<< i.val) ^^^ (1#64 <<< k.val)) (checkBits d) = .poison)) ∧
  (∀ (s : State) (w level kind reason : Nat) (d : DWord) (b : Nat),
    let n := w % 4
    let m : Fin 4 := ⟨w % 4, Nat.mod_lt _ (by decide)⟩
    let r := s.readWord w level kind reason true
    let c := s.mem.channels[m]
    s.Inv →
    (s.mem.read w = .good → r = (.data (s.mem.word w), s)) ∧
    (s.mem.read w = .corrected d b → s.rd pMemLogCe = 0 → r.1 = .data d ∧ r.2.mem.data = s.mem.data ∧ r.2.mem.check = s.mem.check ∧
      (r.2.mem.channels[m]).general = c.general ++ [⟨1, w, .corrected d⟩] ∧ r.2.rd (pMemCCntCe n) = Nat.min (s.rd (pMemCCntCe n) + 1) 0xFFFFFFFF ∧ r.2.mram = s.mram) ∧
    (s.mem.read w = .bad ∨ (s.mem.read w = .poison ∧ w ∉ s.mem.poisoned) → s.mram.logBuffer.length < 64 → r.1 = .bad true ∧ r.2.mem.data = s.mem.data ∧ r.2.mem.check = s.mem.check ∧
      (r.2.mem.channels[m]).general = c.general ++ [⟨1, w, .poison⟩] ∧ r.2.rd (pMemCCntUe n) = Nat.min (s.rd (pMemCCntUe n) + 1) 0xFFFFFFFF ∧
      r.2.mram.logHead = s.mram.logHead + 1 ∧ r.2.mram.logBuffer.length = s.mram.logBuffer.length + 1 ∧
      (r.2.mram.logBuffer.getLast?).map (fun e => (e.kind, e.channel, e.reader)) = some (if s.mem.read w = .bad then kind else 5, n, level) ∧
      (∀ k : Nat, s.roomOfAddr (8 * w) = some k → (r.2.room k).suspect = true)) ∧
    (s.mem.read w = .poison → w ∈ s.mem.poisoned → r.1 = .bad false ∧ r.2.rd (pMemCCntPoison n) = Nat.min (s.rd (pMemCCntPoison n) + 1) 0xFFFFFFFF ∧
      { r.2 with params := s.params, fd := s.fd, fresh := s.fresh } = s)) ∧
  (∀ (s : State) (m : Fin 4) (e : MergeEntry) (pre es : List MergeEntry) (flips : BitVec 72),
    let c := s.mem.channels[m]
    let w := 4 * c.scrub + m.val
    let top := if c.density = 1 then 2 ^ 21 else 2 ^ 20
    let next := if top ≤ c.scrub + 1 then 0 else c.scrub + 1
    let left := fun (op : MemOp) => s.setChannel m { c with merge := pre ++ es, general := c.general ++ [⟨3, e.word, op⟩] }
    let asked := s.setChannel m { c with scrub := next, general := c.general ++ [⟨4, w, .read .night⟩] }
    let read := asked.setMem (asked.mem.upset w flips)
    (c.merge = [] → exec (.mergeEntryTimeout m) s = .next s) ∧
    (c.merge = pre ++ e :: es → (∀ x ∈ pre, e.last < x.last) → (∀ x ∈ es, e.last ≤ x.last) → e.word % 4 = m.val → (∀ x ∈ pre ++ es, x.word ≠ e.word) →
      ((∃ i : Fin 8, ∀ b ∈ e.bytes, b.1 ≠ i.val) → exec (.mergeEntryTimeout m) s = .next (left (.modify e.bytes))) ∧
      ((∀ i : Fin 8, ∃ b ∈ e.bytes, b.1 = i.val) → ∃ d : DWord, exec (.mergeEntryTimeout m) s = .next (left (.write d)) ∧
        ∀ i : Fin 8, some (BitVec.ofNat 8 (d.toNat / 256 ^ i.val)) = (e.bytes.find? (fun b => b.1 = i.val)).map (·.2))) ∧
    (c.state ≠ .ready ∨ s.rd pMemScrubPeriod = 0 → exec (.nightWatchRead m flips) s = .next s) ∧
    (c.state = .ready → s.rd pMemScrubPeriod ≠ 0 → (∀ x ∈ c.merge, x.word ≠ w) → exec (.nightWatchRead m flips) s =
      .next (if next = 0 ∧ m = 0 then read.wr pMemScrubPasses ((s.rd pMemScrubPasses + 1) % 2 ^ 32) else read)))

/-- HIT_WRITE_SLOT (R181, R271, R272): the oldest hit word of the port is stored in its room with its check bits and enters COUNT, MIN and MAX, no other byte of
external memory changes, and a slot without one carries general traffic. G_SLOT (R273–R276, R279, R282): the waiting access of the lowest level leaves its
queue; a write stores its word and check bits, a poison rewrite the poison word, a narrow write merges its bytes with a correct word, a read hands the word
to its reader, and bits upset since the last access are upset before it. A room takes note of a word written into it. MEM_TRAINING_DONE and
ADDRESS_PARITY_ERROR (R270, R281, R289): a trained channel whose parts match MEM.DENSITY is READY, any other faults; a parity error is counted and logged,
and the sixteenth within 1 ms faults the channel. Which access in progress it has inhibited, the port's front hit write, its first general access or one of
Aelko's, is a free choice (the model's, log entry 79). -/
def Obligations.MemoryChannelsTrainServeAndFault : Prop :=
  (∀ (s : State) (m : Fin 4) (p : MemPort) (h : HitWrite),
    let c := s.mem.channels[m]
    let w := s.hitWordNo h
    let x := s.room h.room
    (c.state ≠ .ready → exec (.hitWriteSlot m p) s = .next s) ∧
    (c.state = .ready → s.frontHit m p = none → exec (.hitWriteSlot m p) s = exec (.gSlot m p 0) s) ∧
    (c.state = .ready → s.frontHit m p = some h → s.Inv → ∃ t : State, exec (.hitWriteSlot m p) s = .next t ∧
      (∀ k : Nat, t.mem.data.get k = if 8 * w ≤ k ∧ k < 8 * w + 8 then BitVec.ofNat 8 (h.data.toNat / 256 ^ (k - 8 * w)) else s.mem.data.get k) ∧
      (∀ k : Nat, t.mem.check.get k = if k = w then checkBits h.data else s.mem.check.get k) ∧
      ((∀ u : Fin 16, (s.tiles[u]).output = []) → (t.mem.channels[m]).hits = c.hits.erase h) ∧
      t.chans = s.chans ∧ t.engines = s.engines ∧ t.time = s.time ∧ t.mram = s.mram ∧
      ((∀ u : Fin 16, (s.tiles[u]).output = []) → s.porter.monQueue = [] → (∀ (k : Fin 17) (r : Nat), k.val = h.chain → (s.porter.chains[k]).rooms.getLast? = some r → (s.room r).count < 31) →
        (∀ e ∈ x.wroteAt, e.1 ≠ h.index) → x.dated = true →
        (t.room h.room).count = Nat.min 32 (x.count + 1) ∧ (t.room h.room).min = (if before32 h.tick x.min then h.tick else x.min) ∧
        (t.room h.room).max = (if before32 x.max h.tick then h.tick else x.max) ∧ (x.fresh = true → (t.room h.room).suspect = false) ∧
        ∀ k : Nat, k ≠ h.room → (t.room k).count = (s.room k).count ∧ (t.room k).min = (s.room k).min ∧ (t.room k).max = (s.room k).max))) ∧
  (∀ (s : State) (m : Fin 4) (p : MemPort) (a : Access) (d : DWord) (bytes : List (Nat × Byte)) (src : ReadSource) (room index slot : Nat) (flips : BitVec 72),
    let c := s.mem.channels[m]
    let taken := s.setChannel m { c with general := c.general.erase a }
    let stores := fun (t : State) (x : DWord) (chk : Byte) =>
      (∀ k : Nat, t.mem.data.get k = if 8 * a.word ≤ k ∧ k < 8 * a.word + 8 then BitVec.ofNat 8 (x.toNat / 256 ^ (k - 8 * a.word)) else s.mem.data.get k) ∧
      (∀ k : Nat, t.mem.check.get k = if k = a.word then chk else s.mem.check.get k)
    let quiet := fun (t : State) => ({ t with mem := s.mem } : State) = s
    let written := fun (t : State) => ({ t with mem := s.mem, porter := s.porter, params := s.params, fresh := s.fresh } : State) = s ∧
      (s.roomOfAddr (8 * a.word) = none → t.porter = s.porter) ∧
      (∀ r : Nat, s.roomOfAddr (8 * a.word) = some r → (∀ k : Nat, k ≠ r → t.room k = s.room k) ∧
        ((∀ e ∈ (s.room r).wroteAt, e.1 ≠ a.word % 32) → (t.room r).count = Nat.min 32 ((s.room r).count + 1)))
    (c.state ≠ .ready → exec (.gSlot m p 0) s = .next s) ∧
    (c.state = .ready → s.frontAccess m p = none → exec (.gSlot m p 0) s = .next s) ∧
    (c.state = .ready → s.frontAccess m p = some a → s.Inv →
      (exec (.gSlot m p flips) s = exec (.gSlot m p 0) (s.setMem (s.mem.upset a.word flips))) ∧
      (a.op = .write d → ∃ t : State, exec (.gSlot m p 0) s = .next t ∧ stores t d (checkBits d) ∧ written t ∧ t.params = s.params ∧ t.fresh = s.fresh) ∧
      (a.op = .corrected d → ∃ t : State, exec (.gSlot m p 0) s = .next t ∧ stores t d (checkBits d) ∧ quiet t ∧ t.mem.channels = taken.mem.channels) ∧
      (a.op = .poison → ∃ t : State, exec (.gSlot m p 0) s = .next t ∧ stores t 0 0x03 ∧ quiet t ∧ a.word ∈ t.mem.poisoned ∧
        t.mem.channels = taken.mem.channels) ∧
      (a.op = .modify bytes → s.mem.read a.word = .good → ∃ (t : State) (x : DWord), exec (.gSlot m p 0) s = .next t ∧ stores t x (checkBits x) ∧
        (∀ i : Fin 8, BitVec.ofNat 8 (x.toNat / 256 ^ i.val) = ((bytes.find? (fun b => b.1 = i.val)).map (·.2)).getD (s.mem.data.get (8 * a.word + i.val))) ∧
        t.rd (pMemCCntMerge (a.word % 4)) = Nat.min (s.rd (pMemCCntMerge (a.word % 4)) + 1) 0xFFFFFFFF ∧ written t) ∧
      (a.op = .read (.own src room index) → s.mem.read a.word = .good → exec (.gSlot m p 0) s = .next
        ((taken.modReadout src (fun r => { r with awaiting := r.awaiting - 1, words := r.words ++ [(room, index, s.mem.word a.word)] })).readDone src)) ∧
      (a.op = .read (.record slot index) → s.mem.read a.word = .good →
        exec (.gSlot m p 0) s = .next (taken.fetched slot index (.data (s.mem.word a.word)))) ∧
      (a.op = .read .night → s.mem.read a.word = .good → exec (.gSlot m p 0) s = .next taken) ∧
      (a.op = .read .none → exec (.gSlot m p 0) s = .next taken))) ∧
  (∀ (s : State) (m : Fin 4) (p : MemPort) (big : Bool) (reader w : Nat),
    let c := s.mem.channels[m]
    let inhibited := (s.parityAccesses m p)[(Config.freeWord s.free).toNat % (s.parityAccesses m p).length]?
    let recent := (c.parity.filter (fun t => s.time.clock < t + 1024000)) ++ [s.time.clock]
    let noted := (((({ s with free := s.free + 2 } : State).setChannel m { c with parity := recent }).bump (pMemCCntAp m.val)).logError 6 m.val reader 0 (8 * w) 0x7F).post
      (400 + m.val) 6 (s.mram.logHead.toNat % 65536)
    (c.state ≠ .training → ∀ ok : Bool, exec (.memTrainingDone m ok big) s = .next s) ∧
    (c.state = .training → s.porter.rebuild = false → big = decide (c.density = 1) →
      exec (.memTrainingDone m true big) s = .next ((s.setChannel m { c with state := .ready }).postLedger (400 + m.val) 7 c.freq)) ∧
    (c.state = .training → exec (.memTrainingDone m false big) s =
      .next ((s.setChannel m { c with state := .fault, cause := 1 }).postLedger (400 + m.val) 8 1)) ∧
    (c.state = .training → big ≠ decide (c.density = 1) → exec (.memTrainingDone m true big) s =
      .next ((s.setChannel m { c with state := .fault, cause := 2 }).postLedger (400 + m.val) 8 2)) ∧
    (∀ e : Nat × Nat, e ∈ s.parityAccesses m p ↔ (∃ h : HitWrite, s.frontHit m p = some h ∧ e = (8, s.hitWordNo h)) ∨
      (∃ a : Access, s.frontAccess m p = some a ∧ e = (a.level, a.word)) ∨
      (s.aelkoRuns = true ∧ e = (5, 4 * (2 * ((Config.freeWord (s.free + 1)).toNat % 2 ^ (if c.density = 1 then 20 else 19)) + (if p = .a then 0 else 1)) + m.val))) ∧
    (s.parityAccesses m p = [] → exec (.addressParityError m p) s = .next s) ∧
    (c.state = .ready → c.ap = 1 → inhibited = some (reader, w) → recent.length < 16 → exec (.addressParityError m p) s = .next noted) ∧
    (c.state = .ready → c.ap = 1 → inhibited = some (reader, w) → 16 ≤ recent.length → s.streaming = false →
      ∃ t : State, exec (.addressParityError m p) s = .next t ∧ (t.mem.channels[m]).state = .fault ∧ (t.mem.channels[m]).cause = 3) ∧
    (c.state ≠ .ready ∨ c.ap ≠ 1 → exec (.addressParityError m p) s = .next s))

/-! ### The front desk (spec/13) -/

/-- R297, R301, R302: an origin writes the words of its own mailboxes while they are FREE or DONE, its doorbell posts them, and clearing a bit of FD_MB_DONE
frees a DONE mailbox, whoever clears it; an access to a POSTED or BUSY mailbox only sets its flag, and one to another's mailbox or past a closed front desk
does nothing. A bit of FD_MB_DONE that the device set in the same tick stays set (R12), and a doorbell raises Aelko's signal (R357). What the doorbell does
on a DONE mailbox, and what the wires carry between words, is the model's (log entry 83). -/
def Obligations.MailboxesAreWrittenPostedAndCleared : Prop :=
  ∀ (s : State) (o : Origin) (mb : Fin 8) (index : Fin 128) (value : Word),
    let free := fun (k : Fin 8) => s.fd.mb[k] = .free ∨ s.fd.mb[k] = .done
    let mine := fun (k : Fin 8) => mbAllowed o k.val = true
    let fd := fun (f : FrontDesk) => ({ s with fd := f } : State)
    (s.Inv → s.fdOpen o = true → mine mb → free mb → ∃ m : Memory, exec (.mailboxWrite o mb index value) s = .next (fd { s.fd with mbMem := m }) ∧
      ∀ k : Nat, m.get k = if 512 * mb.val + 4 * index.val ≤ k ∧ k < 512 * mb.val + 4 * index.val + 4 then
        (value >>> (8 * (k - (512 * mb.val + 4 * index.val)))).setWidth 8 else s.fd.mbMem.get k) ∧
    (s.fdOpen o = true → mine mb → ¬free mb → exec (.mailboxWrite o mb index value) s =
      .next { fd { s.fd with mbErr := s.fd.mbErr ||| (1#16 <<< mb.val) } with fresh := s.setNow 0 (1#16 <<< mb.val) }) ∧
    (s.fdOpen o = false ∨ ¬mine mb → exec (.mailboxWrite o mb index value) s = .next s) ∧
    (s.fdOpen o = true → ∃ (t : State) (f : FrontDesk), exec (.doorbell o value) s = .next t ∧ f = t.fd ∧ { f with mb := s.fd.mb, mbDone := s.fd.mbDone, mbErr := s.fd.mbErr } = s.fd ∧
      { t with fd := s.fd, fresh := s.fresh, power := s.power, params := s.params } = s ∧ { t.power with signals := s.power.signals } = s.power ∧
      (∀ a : Nat, a ≠ pPwrIStatus s.aelkoIsland → t.rd a = s.rd a) ∧
      ∀ k : Fin 8,
        (value.getLsbD k.val = true → mine k → free k → f.mb[k] = .posted ∧ s.aelkoIsland ∈ t.power.signals ∧ f.mbDone.getLsbD k.val = false ∧
          f.mbErr.getLsbD (8 + k.val) = s.fd.mbErr.getLsbD (8 + k.val)) ∧
        (value.getLsbD k.val = true → mine k → ¬free k → f.mb[k] = s.fd.mb[k] ∧ f.mbDone.getLsbD k.val = s.fd.mbDone.getLsbD k.val ∧
          f.mbErr.getLsbD (8 + k.val) = true) ∧
        (value.getLsbD k.val = false ∨ ¬mine k → f.mb[k] = s.fd.mb[k] ∧ f.mbDone.getLsbD k.val = s.fd.mbDone.getLsbD k.val ∧
          f.mbErr.getLsbD (8 + k.val) = s.fd.mbErr.getLsbD (8 + k.val)) ∧
        f.mbErr.getLsbD k.val = s.fd.mbErr.getLsbD k.val) ∧
    (s.fdOpen o = true → ∃ f : FrontDesk, exec (.mbDoneClear o value) s = .next (fd f) ∧ { f with mb := s.fd.mb, mbDone := s.fd.mbDone } = s.fd ∧
      f.mbDone = s.fd.mbDone &&& (~~~(value.setWidth 8) ||| s.fresh.done) ∧
      ∀ k : Fin 8, f.mb[k] = if value.getLsbD k.val = true ∧ s.fd.mbDone.getLsbD k.val = true ∧ s.fresh.done.getLsbD k.val = false ∧ s.fd.mb[k] = .done then .free else s.fd.mb[k]) ∧
    (s.fdOpen o = false → exec (.doorbell o value) s = .next s ∧ exec (.mbDoneClear o value) s = .next s)

/-- R303, R305, R306: reads and writes of the front-desk registers, and the event queue: the front desk takes the record of the first source at or after its
pointer, drops it where EVQ.MASK names its source, and keeps 1,024, of which the oldest gives way; a read of FD_EVQ_LO takes the oldest. -/
def Obligations.RegistersAndEventQueueActAsWritten : Prop :=
  ∀ (s : State) (o : Origin) (addr : Half) (value : Word) (mb : Fin 8) (index : Fin 128) (k : Nat) (r : DWord),
    let a := addr.toNat / 4 * 4
    let fd := fun (t : State) (f : FrontDesk) => ({ t with fd := f } : State)
    let taken := { s.fd with sources := s.fd.sources.eraseP (fun x => x.1 = k), sourceNext := (k + 1) % 512 }
    let flush := ((fd s { s.fd with events := [], evqHi := 0 }).post 507 1 s.fd.events.length).ledgerLater (s.entry o.code 10 0 0x60 s.fd.events.length 1 0)
    (s.fdOpen o = true →
      (a = 0x30 → exec (.fdRegisterWrite o addr value) s = exec (.doorbell o value) s) ∧
      (a = 0x38 → exec (.fdRegisterWrite o addr value) s = exec (.mbDoneClear o value) s) ∧
      (a = 0x3C → exec (.fdRegisterWrite o addr value) s = .next (fd s { s.fd with mbErr := s.fd.mbErr &&& (s.fresh.err ||| ~~~(value.setWidth 16)) })) ∧
      (a = 0x44 → exec (.fdRegisterWrite o addr value) s = .next (fd s { s.fd with attnEn := value.setWidth 8 })) ∧
      (a = 0x60 → exec (.fdRegisterWrite o addr value) s = .next (if value.getLsbD 0 then flush else s)) ∧
      (a < 0x1000 → a ≠ 0x30 → a ≠ 0x38 → a ≠ 0x3C → a ≠ 0x44 → a ≠ 0x60 → exec (.fdRegisterWrite o addr value) s = .next s) ∧
      (a = 0x1000 + 512 * mb.val + 4 * index.val → exec (.fdRegisterWrite o addr value) s = exec (.mailboxWrite o mb index value) s) ∧
      (0x2000 ≤ a → exec (.fdRegisterWrite o addr value) s = .next s) ∧ exec (.evqFlush o) s = .next flush) ∧
    (s.fdOpen o = false → exec (.fdRegisterWrite o addr value) s = .next s ∧ exec (.evqFlush o) s = .next s) ∧
    (s.power.poreset = false →
      exec .fdNowSnapshot s = .next (fd s { s.fd with nowHi := (s.time.tick >>> 32).setWidth 32 }) ∧
      exec .evqRead s = .next (fd s (match s.fd.events with
        | e :: es => { s.fd with events := es, evqHi := (e >>> 32).setWidth 32 }
        | [] => { s.fd with evqHi := 0 })) ∧
      (s.fd.sources = [] → exec .evqTake s = .next s) ∧
      (s.nextSource = some k → s.fd.sources.find? (fun x => x.1 = k) = some (k, r) → s.masked k = true → exec .evqTake s = .next (fd s taken)) ∧
      (s.nextSource = some k → s.fd.sources.find? (fun x => x.1 = k) = some (k, r) → s.masked k = false → s.rd pEvqUp ≠ 1 →
        (s.fd.events.length < 1024 → exec .evqTake s = .next (fd s { taken with events := s.fd.events ++ [r] })) ∧
        (∀ (e₀ e₁ : DWord) (es : List DWord), s.fd.events = e₀ :: e₁ :: es → es.length = 1022 → exec .evqTake s = .next { fd s { taken with
          events := (e₁ ||| (1#64 <<< 33)) :: es ++ [r], evqLost := min (s.fd.evqLost + 1) 0xFFFFFFFF } with fresh := s.counted evqLostKey s.fd.evqLost 1 })) ∧
      (s.nextSource = some k → s.fd.sources.find? (fun x => x.1 = k) = some (k, r) → s.masked k = false → s.rd pEvqUp = 1 → s.fd.events.length < 1024 →
        s.fd.upstream.length < 64 → exec .evqTake s = .next (fd s { taken with
          events := s.fd.events ++ [r], upstream := s.fd.upstream ++ [r], upstreamAt := if s.fd.upstream = [] then s.time.clock else s.fd.upstreamAt }))) ∧
    (s.power.poreset = true → exec .fdNowSnapshot s = .next s ∧ exec .evqRead s = .next s ∧ exec .evqTake s = .next s) ∧
    ((∀ x ∈ s.fd.sources, x.1 < 512) → s.fd.sourceNext < 512 → s.nextSource = some k →
      (∃ x ∈ s.fd.sources, x.1 = k) ∧ ∀ x ∈ s.fd.sources, (k + 512 - s.fd.sourceNext) % 512 ≤ (x.1 + 512 - s.fd.sourceNext) % 512)

/-- R226, R293, R296, R299, R309, R319, R327: Aelko, with no batch in progress, acknowledges its signals and takes the posted mailboxes in a round, their check
values run in unit 5, a list of writes is checked at its start, and the second command with an object completes BUSY; buffered ledger entries are committed
in order with the next sequence number, each in the slot of the ring of 65,536 that its number names (R310); granted maintenance and an abandoned transfer
end at their times. The values at rest of the check units (log entry 80), when a list is checked (82) and what a transfer that is replaced or outlives its
limit leaves (61) are the model's. -/
def Obligations.RoundsCommitsAndTimeLimits : Prop :=
  ∀ (s : State) (mb : Fin 8) (f : InFlight) (t : State) (jtag : Bool) (e : LedgerEntry) (es : List LedgerEntry) (x y : Fin 8 × InFlight),
    let code := leNat (s.mbBytes mb 0 2)
    let flags := leNat (s.mbBytes mb 10 2)
    let len := leNat (s.mbBytes mb 4 4)
    let payload := s.mbBytes mb 16 len
    let heard : Power := { s.power with signals := s.power.signals.filter (fun i => i ≠ 43 ∧ i ≠ 44) }
    let busy := ({ s with
      power := heard
      fd := { s.fd with mb := s.fd.mb.set mb.val .busy }
      checks := { s.checks with running := s.checks.running.set 5 (crc32cRun crc32cSeed (s.mbBytes mb 0 12 ++ payload)) } } : State)
    let good := (crc32c (s.mbBytes mb 0 12 ++ payload)).toNat = leNat (s.mbBytes mb 12 4)
    (s.aelkoRuns = false ∨ s.mram.running.isSome = true → exec .ledgerCommit s = .next s) ∧
    (s.aelkoRuns = true → s.mram.running = none → s.mram.buffer = e :: es → s.mram.gap = none → s.Affords 4 →
      exec .ledgerCommit s = .next { s with
        mram := { s.mram with ledger := { e with seq := s.mram.ledgerHead } :: s.mram.ledger.filter (fun x => x.seq.toNat % 65536 ≠ s.mram.ledgerHead.toNat % 65536), ledgerHead := s.mram.ledgerHead + 1, buffer := es }
        keeper := { s.keeper with ckptCommitted := s.keeper.ckptCommitted + 1 } }) ∧
    (s.mram.buffer = e :: es → s.power.testEnded = false → exec .ledgerCommit s = .next s) ∧
    (s.aelkoFree = false ∨ (∃ k : Fin 8, s.unstarted k = true) → exec .mailboxRound s = .next s) ∧
    (s.aelkoFree = true → (∀ k : Fin 8, s.unstarted k = false) → s.keeper.window = [] → (∀ k : Fin 8, s.fd.mb[k] ≠ .posted) →
      exec .mailboxRound s = .next { s with power := heard }) ∧
    (s.aelkoFree = true → (∀ k : Fin 8, s.unstarted k = false) → s.keeper.window = [] → (∀ k : Fin 8, s.fd.mb[k] = .posted ↔ k = mb) → len ≤ 496 →
      (good → flags = 0 → parseCmd code false payload = some f.cmd → f.code.toNat = code → f.tag.toNat = leNat (s.mbBytes mb 2 2) → f.cont = false →
        f.origin = mbOrigin mb → s.mayIssue f.origin code payload = true → exec .mailboxRound s = .next { busy with keeper := { s.keeper with
          transfers := s.keeper.transfers.set mb.val none, inFlight := s.keeper.inFlight.set mb.val (some { f with verdict := (busy.setTransfer mb none).listVerdict f }) } }) ∧
      (good → flags = 0 → cmdLength code = none → exec .mailboxRound s = .next
        ((busy.setTransfer mb none).reply mb (BitVec.ofNat 16 code) (BitVec.ofNat 16 (leNat (s.mbBytes mb 2 2))) .unknown 0 [])) ∧
      (¬good → exec .mailboxRound s = .next
        ((busy.post 505 1 mb.val).reply mb (BitVec.ofNat 16 code) (BitVec.ofNat 16 (leNat (s.mbBytes mb 2 2))) .badarg 4 []))) ∧
    (clash (s.objects y.2.cmd) (s.objects x.2.cmd) = true → (s.serveAll [x, y]).2 =
      ({ s with keeper := { s.keeper with inFlight := s.keeper.inFlight.set x.1.val (some { x.2 with verdict := s.listVerdict x.2 }) } } : State).reply y.1 y.2.code y.2.tag .busy 0 []) ∧
    (∀ (n c : Nat), s.fd.maint[maintIdx jtag] = some ⟨false, some c, n⟩ →
      (s.time.clock < c → exec (.maintExpiry jtag) s = .next s) ∧
      (c ≤ s.time.clock → exec (.maintExpiry jtag) s = .next (((s.setMaint jtag none).post 506 2 ((if jtag then 5 else 4) + 32)).ledgerLater
        (s.entry 1 8 0 (if jtag then 5 else 4) n 0 0)))) ∧
    (s.fd.maint[maintIdx jtag] = none → exec (.maintExpiry jtag) s = .next s) ∧
    (∀ (z : Transfer), s.keeper.transfers[mb] = some z →
      (z.at_ + 10 * 1024000000 ≤ s.time.clock → s.aelkoRuns = true → exec (.transferTimeout mb) s = .next { s with keeper := { s.keeper with
        transfers := s.keeper.transfers.set mb.val none } }) ∧
      (s.time.clock < z.at_ + 10 * 1024000000 → exec (.transferTimeout mb) s = .next s)) ∧
    (s.keeper.transfers[mb] = none → exec (.transferTimeout mb) s = .next s)

/-! ### Aelko's commands (spec/13, spec/14) -/

/-- R297, R298, R314: a command that completes leaves its mailbox; its reply, a header with status, tag and CRC-32C and then the payload, is written over the
request. Mailboxes 5 to 7 become DONE with their bit of FD_MB_DONE; 0 to 4 become FREE and the reply leaves as a CTRL frame. R297, R299: a command runs only
where Aelko runs, the mailbox holds it, and no mailbox of a lower number holds one not yet started; one that writes to MRAM waits for the batch in progress
(R369). Elsewhere its row does nothing. -/
def Obligations.CommandsStartInTurnAndReply : Prop :=
  (∀ (s : State) (mb : Fin 8) (f : InFlight) (st : Status) (flags : Nat) (payload : List Byte), s.Inv → payload.length ≤ 496 → payload.length % 4 = 0 → flags < 8 →
    let t := s.finish mb f st flags payload
    let head := natLe 2 f.code.toNat ++ natLe 2 f.tag.toNat ++ natLe 4 payload.length ++ natLe 2 st.code ++ natLe 2 (1 + flags)
    let block := head ++ natLe 4 (crc32c (head ++ payload)).toNat ++ payload
    let frame : CtrlFrame := { up := true, bcast := false, mailbox := BitVec.ofNat 3 mb.val, hops := 0, route := 0
                               source := BitVec.ofNat 16 (s.rd pDevNumber), array := BitVec.ofNat 4 (s.rd pDevArray), block := block }
    (∃ m : Memory, ∀ k : Nat, m.get k = (if 512 * mb.val ≤ k ∧ k < 512 * mb.val + block.length then block[k - 512 * mb.val]?.getD 0 else s.fd.mbMem.get k) ∧
      (5 ≤ mb.val → t = { s with
        fd := { s.fd with mbMem := m, mb := s.fd.mb.set mb.val .done, mbDone := s.fd.mbDone ||| (1#8 <<< mb.val) }
        fresh := s.setNow (1#8 <<< mb.val) 0
        keeper := { s.keeper with inFlight := s.keeper.inFlight.set mb.val none } }) ∧
      (mb.val < 5 → t.fd = { s.fd with mbMem := m, mb := s.fd.mb.set mb.val .free } ∧
        (s.linked (mbPort mb) = true → (t.ports[mbPort mb]).tx = (s.ports[mbPort mb]).tx ++ [⟨.ctrl frame, none, 0, false, 0⟩]) ∧
        (s.linked (mbPort mb) = false → t.ports = s.ports) ∧ (∀ p : Fin 18, p ≠ mbPort mb → t.ports[p] = s.ports[p]) ∧
        { t with ports := s.ports, fd := s.fd, keeper := s.keeper } = s ∧ t.keeper = { s.keeper with inFlight := s.keeper.inFlight.set mb.val none }))) ∧
  (∀ (s : State) (mb : Fin 8) (w v : Word) (d d' : DWord) (b c : Byte) (h h' : Half) (bl : TransferBlock) (ps : List (Word × Word)) (ws : List Word) (lb : LaunchBody),
    (∀ (x : AelkoCmd) (f : InFlight), s.starts mb x = some f ↔ s.aelkoRuns = true ∧ s.keeper.inFlight[mb] = some f ∧ f.cmd = x ∧ s.cmdWaits mb = false ∧
      (batchCommand f.code.toNat = true → s.mram.running = none) ∧
      ∀ k : Fin 8, k < mb → s.unstarted k = false) ∧
    ∀ x ∈ ([(.sysIdentify mb, .sysIdentify), (.sysFdRead mb h h', .sysFdRead h h'), (.sysFdWrite mb h w, .sysFdWrite h w), (.sysReset mb w, .sysReset w),
      (.sysImageWrite mb bl, .sysImageWrite bl), (.sysImageRead mb b c h w h', .sysImageRead b c h w h'), (.sysBootSelect mb b, .sysBootSelect b),
      (.sysConfigSave mb, .sysConfigSave), (.maintGrant mb b w, .maintGrant b w), (.maintRevoke mb b, .maintRevoke b), (.sealPart mb w, .sealPart w),
      (.paramWrite mb w v, .paramWrite w v), (.paramRead mb w, .paramRead w), (.paramWriteList mb ps, .paramWriteList ps),
      (.paramReadList mb ws, .paramReadList ws), (.acqArm mb d, .acqArm d), (.acqDisarm mb d, .acqDisarm d), (.acqLaunch mb b d lb, .acqLaunch b d lb),
      (.acqStatus mb, .acqStatus), (.acqBookingRead mb h, .acqBookingRead h), (.acqRoomRead mb w b c, .acqRoomRead w b c), (.engLoad mb bl, .engLoad bl),
      (.engRead mb b c w h, .engRead b c w h), (.engStatus mb b, .engStatus b), (.timeStatus mb, .timeStatus), (.timeSwitch mb b, .timeSwitch b),
      (.timeRestep mb d b c d', .timeRestep d b c d'), (.timeAsymConfirm mb b, .timeAsymConfirm b), (.timeRestepCancel mb, .timeRestepCancel),
      (.memLogRead mb w b, .memLogRead w b), (.memRetire mb ws, .memRetire ws), (.memRetireRead mb w b, .memRetireRead w b), (.memRead mb w h, .memRead w h),
      (.memInflate mb w v b w v h, .memInflate w v b w v h), (.ledgerRead mb w b, .ledgerRead w b), (.ledgerNote mb w v w, .ledgerNote w v w),
      (.pwrDomain mb d b, .pwrDomain d b), (.pwrStatus mb, .pwrStatus), (.thermStatus mb, .thermStatus), (.laneStatus mb b, .laneStatus b),
      (.portStatus mb b, .portStatus b), (.pfeStart mb b, .pfeStart b), (.pfeResult mb, .pfeResult), (.pfeCoefWrite mb b ws, .pfeCoefWrite b ws),
      (.pfeCoefRead mb b, .pfeCoefRead b), (.redStatus mb, .redStatus), (.redCheckpoint mb, .redCheckpoint), (.redReadmit mb, .redReadmit),
      (.redSwitch mb w, .redSwitch w), (.redSelftest mb, .redSelftest)] : List (Instr × AelkoCmd)),
      s.starts mb x.2 = none → exec x.1 s = .next s)

/-- R293, R294, R315, R321, R322: the commands on the device itself: its identity, its front-desk registers, SYS_RESET, maintenance and the seal. What SYS_RESET
clears (51), the strap's maintenance under SEAL (50) and the value that the ledger gives a register before (58) follow the log entries named. -/
def Obligations.SystemCommandsAnswer : Prop :=
  ∀ (s : State) (mb : Fin 8) (addr : Half) (value key : Word) (origins : Byte) (j : Bool) (n : Nat),
    let a := addr.toNat / 4 * 4
    let o := 4 + bit j
    let held := s.fd.maint[maintIdx j]
    let until_ : Option Nat := if key = 0 then none else some (s.time.clock + key.toNat * 1024000000)
    s.Answers (.sysIdentify mb) mb .sysIdentify .ok (natLe 4 0x4C479128 ++ natLe 4 (0xB1 + 0x10000 * s.fd.release.toNat) ++
      natLe 4 (s.rd pDevNumber + 0x10000 * s.rd pDevArray + 0x100000 * s.rd pDevRoot + 0x1000000 * (if s.fd.stage = 0 then 0 else s.mram.incarnation.toNat)) ++
      natLe 4 (s.fd.uid.toNat % 2 ^ 32) ++ natLe 4 (s.fd.uid.toNat / 2 ^ 32) ++ natLe 4 s.fdStatus ++ natLe 1 s.mram.bootBank ++
      natLe 1 (s.keeper.configBank.getD 0xFF) ++ natLe 2 s.keeper.skipped ++ natLe 4 0) (fun _ => s) ∧
    (addr.toNat % 4 = 0 → addr.toNat < 0x1000 → s.Answers (.sysFdRead mb addr 1) mb (.sysFdRead addr 1) .ok (natLe 4 (s.fdRead addr.toNat).1)
      (fun _ => (s.fdRead addr.toNat).2)) ∧
    (addr.toNat % 4 ≠ 0 ∨ n = 0 ∨ 64 < n ∨ 0x1000 < addr.toNat + 4 * n → n < 65536 →
      s.Fails (.sysFdRead mb addr (BitVec.ofNat 16 n)) mb (.sysFdRead addr (BitVec.ofNat 16 n)) .badarg []) ∧
    (a = 0x30 ∨ a = 0x38 → s.Fails (.sysFdWrite mb addr value) mb (.sysFdWrite addr value) .denied []) ∧
    (a ≠ 0x30 → a ≠ 0x38 → a < 0x1000 → s.Affords 4 → ∀ f : InFlight, s.starts mb (.sysFdWrite addr value) = some f →
      let t := (s.logged f 10 a (s.fdRead a).1 value.toNat).fdWrite f.origin a value f.code.toNat f.tag.toNat
      exec (.sysFdWrite mb addr value) s = .next (t.finish mb f .ok 0 (natLe 4 (t.fdRead a).1))) ∧
    (key ≠ 0x52535430#32 → s.Fails (.sysReset mb key) mb (.sysReset key) .badarg []) ∧
    (s.Affords 4 → s.Answers (.sysReset mb 0x52535430) mb (.sysReset 0x52535430) .ok [] (fun f =>
      let t := s.logged f 10 0 0 1
      { t with keeper := { t.keeper with sysReset := some s.time.clock } })) ∧
    (s.power.testEnded = false → s.Fails (.sysReset mb 0x52535430) mb (.sysReset 0x52535430) .deferred []) ∧
    (s.keeper.sysReset.isSome = true → s.power.poreset = false → ∃ t : State, exec .sysResetExpiry s = .next t ∧ (∀ k : Fin 8, t.fd.mb[k] = .free) ∧
      t.fd.aelkoReady = false ∧ t.power.cause = 3 ∧ (∀ d : Nat, d < 36 → (t.on d = true ↔ d = 28 ∨ d = 33)) ∧ t.keeper.sysReset = none ∧
      t.fd.events = s.fd.events ∧ t.mram.ledger = s.mram.ledger) ∧
    (s.keeper.sysReset = none ∨ s.power.poreset = true → exec .sysResetExpiry s = .next s) ∧
    (origins = 0 ∨ 4 ≤ origins.toNat ∨ 86400 < key.toNat → s.Fails (.maintGrant mb origins key) mb (.maintGrant origins key) .badarg []) ∧
    (key.toNat ≤ 86400 → s.strapHeld j = false → s.Affords 4 → s.Answers (.maintGrant mb (if j then 2 else 1) key) mb (.maintGrant (if j then 2 else 1) key) .ok []
      (fun f => ((s.logged f 8 o (Maint.ledgerSeconds held) (if key = 0 then 0xFFFFFFFF else key.toNat)).setMaint j (some ⟨false, until_, key.toNat⟩)).post 506 1 o)) ∧
    (4 ≤ origins.toNat → s.Fails (.maintRevoke mb origins) mb (.maintRevoke origins) .badarg []) ∧
    (held.isSome = true → s.strapHeld j = false → s.Affords 4 → s.Answers (.maintRevoke mb (if j then 2 else 1)) mb (.maintRevoke (if j then 2 else 1)) .ok []
      (fun f => ((s.logged f 8 o (Maint.ledgerSeconds held) 0).setMaint j none).post 506 2 (o + 16))) ∧
    (held = none ∨ s.strapHeld j = true → s.Answers (.maintRevoke mb (if j then 2 else 1)) mb (.maintRevoke (if j then 2 else 1)) .ok [] (fun _ => s)) ∧
    (key ≠ 0x5EA15EA1#32 → s.Fails (.sealPart mb key) mb (.sealPart key) .badarg []) ∧
    (s.fd.isSealed = true → s.Fails (.sealPart mb 0x5EA15EA1) mb (.sealPart 0x5EA15EA1) .denied []) ∧
    (s.fd.isSealed = false → s.fd.maint[(1 : Fin 2)] = none → s.Affords 4 → s.Answers (.sealPart mb 0x5EA15EA1) mb (.sealPart 0x5EA15EA1) .ok [] (fun f =>
      let t := s.logged f 8 0xFF 0 0xFFFFFFFF
      ({ t with fd := { t.fd with isSealed := true } } : State).post 506 4 0)) ∧
    (s.fd.isSealed = false → s.fd.maint[(1 : Fin 2)].isSome = true → s.Affords 8 → ∀ f : InFlight, s.starts mb (.sealPart 0x5EA15EA1) = some f → ∃ t : State,
      exec (.sealPart mb 0x5EA15EA1) s = .next (t.finish mb f .ok 0 []) ∧ t.fd.isSealed = true ∧ t.fd.maint[(1 : Fin 2)] = none)

/-- R226, R311, R318–R320, R323, R324: images are received block by block in their mailbox, their check value running in unit 4; the final block, of one or of a
continued transfer, is checked and takes effect, a boot image and a configuration list in the bank not in use; they are read back, and a boot bank is
selected only with a good image. The numbers of the checks that fail (log entry 32), the values at rest of the check units (80) and what SYS_CONFIG_SAVE
keeps (64) are the model's. -/
def Obligations.ImagesAreTransferredAndApplied : Prop :=
  ∀ (s : State) (mb : Fin 8) (f : InFlight) (b : TransferBlock) (tr : Transfer) (kind bank : Byte) (inst : Half) (offset : Word) (length : Half) (bs : List Byte) (k : Fin 2)
    (ps : List (Nat × Nat)),
    let i : Instr := .sysImageWrite mb b
    let flags : Nat := if f.cont then 2 else 0
    let clear := fun (t : State) => ({ t with keeper := { t.keeper with transfers := t.keeper.transfers.set mb.val none } } : State)
    let units := fun (from_ : Word) => ({ s with checks := { s.checks with running := s.checks.running.set 4 (crc32cRun from_ b.data) } } : State)
    let u := units crc32cSeed
    let v := units tr.check
    let block : Transfer := ⟨f.code, f.tag, b.selector, b.total.toNat, b.data, crc32cRun crc32cSeed b.data, s.time.clock⟩
    let kept := ({ u with keeper := { s.keeper with transfers := s.keeper.transfers.set mb.val (some block) } } : State)
    let lin := b.selector.toNat / 65536
    let linear := b.selector.toNat % 65536 = 3 ∧ lin ≤ 0x104 ∧ b.total.toNat = 536
    let eq := b.selector = 4 ∧ b.total.toNat = 268
    let first := b.cont = false ∧ b.offset = 0
    let img := tr.data ++ b.data
    let words := (b.data.length + 7) / 8
    let last := b.cont = true ∧ s.keeper.transfers[mb] = some tr ∧ tr.command = f.code ∧ tr.tag = f.tag ∧ tr.selector = b.selector ∧ tr.total = b.total.toNat ∧
      b.offset.toNat = tr.data.length ∧ img.length = b.total.toNat
    let boot := if s.mram.bootBank = 0 then (1 : Fin 2) else 0
    let alone := ∀ m : Fin 8, m ≠ mb → s.keeper.transfers[m] = none
    (s.starts mb (.sysImageWrite b) = some f →
      (imageSelectorOk b.selector = false → b.cont = false → exec i s = .next ((clear s).finish mb f .badarg 0 [])) ∧
      (b.cont = true → s.keeper.transfers[mb] = none ∨ (s.keeper.transfers[mb] = some tr ∧ (tr.tag ≠ f.tag ∨ tr.selector ≠ b.selector)) →
        exec i s = .next ((clear s).finish mb f .badarg 0 [1, 0, 0, 0])) ∧
      (imageSelectorOk b.selector = true → b.cont = false → b.offset ≠ 0 → exec i s = .next ((clear s).finish mb f .badarg 0 [2, 0, 0, 0])) ∧
      (linear ∨ eq → first → b.data.length < b.total.toNat → exec i s = .next (kept.finish mb f .ok flags (natLe 4 b.data.length))) ∧
      (b.selector = 2 → first → b.data.length < b.total.toNat → b.total.toNat ≤ 196608 → 1024 ≤ b.total.toNat → b.total.toNat % 4 = 0 → alone → s.Affords words →
        exec i s = .next (({ kept with mram := { s.mram with bootImages := s.mram.bootImages.set boot.val (b.data ++ (s.mram.bootImages[boot]).drop b.data.length) } } : State).finish
          mb f .ok flags (natLe 4 b.data.length))) ∧
      (eq → first → b.data.length = 268 → eqImageFail b.data = 0 → s.Affords 34 → s.Affords 4 → exec i s = .next
        ((clear (let t := u.logged f 2 0x04000000 0 (leNat ((b.data.drop 12).take 4))
                 { t with mram := { t.mram with eqImage := b.data }, lanes := { t.lanes with eqTable := some b.data, eqDefault := false } })).finish mb f .ok flags (natLe 4 268))) ∧
      (linear → last → parseImage img = none → exec i s = .next ((clear v).finish mb f .badarg 0 (natLe 2 5 ++ natLe 2 (linImageFail img)))) ∧
      (linear → last → (parseImage img).isSome = true → leNat (img.take 2) ≠ lin → exec i s = .next ((clear v).finish mb f .badarg 0 (natLe 2 6 ++ natLe 2 0))) ∧
      (linear → last → (parseImage img).isSome = true → leNat (img.take 2) = lin → s.imageBlocked 3 lin = true → exec i s = .next ((clear v).finish mb f .denied 0 [])) ∧
      (linear → last → (parseImage img).isSome = true → leNat (img.take 2) = lin → s.imageBlocked 3 lin = false → s.Affords 67 → s.Affords 4 → exec i s = .next
        ((clear ((v.logged f 2 (3 * 2 ^ 24 + lin) 0 (leNat ((img.drop 20).take 4))).applyLin lin img)).finish mb f .ok flags (natLe 4 536))) ∧
      (b.selector = 2 → last → img.length ≤ 196608 → 1024 ≤ img.length → img.length % 4 = 0 → alone → s.Affords words →
        (bootImageOk img = true → s.Affords 4 → ∃ t : State, exec i s = .next (t.finish mb f .ok flags (natLe 4 img.length)) ∧ t.mram.bootBank = s.mram.bootBank ∧
          t.mram.bootImages = s.mram.bootImages.set boot.val img ∧ t.keeper.transfers[mb] = none ∧ { t with mram := s.mram, keeper := s.keeper } = v) ∧
        (bootImageOk img = false → exec i s = .next ((clear { v with mram := { s.mram with bootImages := s.mram.bootImages.set boot.val img } }).finish mb f .badarg 0 [5, 0, 1, 0]))) ∧
      (b.selector = 1 → last → img.length ≤ 63488 → 16 ≤ img.length → alone → s.Affords words → parseConfig img = .inr ps → s.Affords 1 → s.Affords 4 →
        ∃ t : State, exec i s = .next (t.finish mb f .ok flags (natLe 4 img.length)) ∧ t.mram.configBank = some s.otherConfig.val ∧ t.keeper.configBank = some s.otherConfig.val ∧
          t.mram.configBanks = s.mram.configBanks.set s.otherConfig.val img ∧ t.keeper.transfers[mb] = none ∧ { t with mram := s.mram, keeper := s.keeper } = v)) ∧
    (s.imageBytes kind.toNat bank.toNat inst.toNat = some bs → 1 ≤ length.toNat → length.toNat ≤ 480 → offset.toNat + length.toNat ≤ bs.length →
      s.Answers (.sysImageRead mb kind bank inst offset length) mb (.sysImageRead kind bank inst offset length) .ok ((bs.drop offset.toNat).take length.toNat) (fun _ => s)) ∧
    (kind.toNat = 0 ∨ 4 < kind.toNat ∨ length.toNat = 0 ∨ 480 < length.toNat →
      s.Fails (.sysImageRead mb kind bank inst offset length) mb (.sysImageRead kind bank inst offset length) .badarg []) ∧
    s.imageBytes 1 k.val inst.toNat = some s.mram.configBanks[k] ∧ s.imageBytes 2 k.val inst.toNat = some s.mram.bootImages[k] ∧
    (2 ≤ bank.toNat → s.Fails (.sysBootSelect mb bank) mb (.sysBootSelect bank) .badarg []) ∧
    (bootImageOk s.mram.bootImages[k] = false → s.Fails (.sysBootSelect mb (BitVec.ofNat 8 k.val)) mb (.sysBootSelect (BitVec.ofNat 8 k.val)) .denied []) ∧
    (bootImageOk s.mram.bootImages[k] = true → s.Affords 1 → s.Affords 4 → s.Answers (.sysBootSelect mb (BitVec.ofNat 8 k.val)) mb (.sysBootSelect (BitVec.ofNat 8 k.val)) .ok
      (natLe 4 (leNat ((s.mram.bootImages[k]).drop ((s.mram.bootImages[k]).length - 4)))) (fun g =>
        let t := s.logged g 10 0x300000 s.mram.bootBank k.val
        { t with mram := { t.mram with bootBank := k.val } })) ∧
    (s.bankHeld none 1 = true → s.savedParams.length ≤ 7934 → s.Fails (.sysConfigSave mb) mb .sysConfigSave .denied []) ∧
    (let saved := s.savedParams
     let image := configImage saved
     saved.length ≤ 7934 → s.bankHeld none 1 = false → s.Affords ((image.length + 7) / 8 + 1) → s.Affords 4 → ∀ g : InFlight, s.starts mb .sysConfigSave = some g → ∃ t : State,
       exec (.sysConfigSave mb) s = .next (t.finish mb g .ok 0 (natLe 4 saved.length)) ∧ t.mram.configBank = some s.otherConfig.val ∧ t.keeper.configBank = some s.otherConfig.val ∧
       t.mram.configBanks[s.otherConfig] = image ∧ { t with mram := s.mram, keeper := s.keeper } = s)

/-- R13, R292, R309, R326, R327: PARAM_WRITE commits its entry, acts and replies with the value before; a write that its origin may not make is DENIED with its
entry, count and event, and short of hold-up energy DEFERRED; a list that was found good at the start of its round is written whole, and of one that was not
nothing is written; reads take their values and effects in address order and reply in the order of the list. The index in a failing list's reply (log entry
37) and the moment of the DENIED entry (82) are the model's. -/
def Obligations.ParameterCommandsAnswer : Prop :=
  ∀ (s : State) (mb : Fin 8) (addr addr' value : Word) (pairs : List (Word × Word)) (addrs : List Word) (f : InFlight) (k : Nat),
    let a := addr.toNat
    let ps := pairs.map (fun p => (p.1.toNat, p.2.toNat))
    let refused := fun (g : InFlight) (object : Nat) =>
      (s.commitEntry (s.entry g.origin.code 13 g.code.toNat object g.origin.code 2 g.tag.toNat)).bumpPost pLedgerCntDenied 506 3 g.origin.code
    (s.starts mb (.paramWrite addr value) = some f →
      (s.AcceptsWrite f.origin a value.toNat → exec (.paramWrite mb addr value) s = .next
        (((s.commitEntry (s.paramEntry f.origin f.code.toNat f.tag.toNat a value.toNat)).applyAll f.origin a value.toNat).finish mb f .ok 0
          (natLe 4 (s.peekParam (reported a)) ++ natLe 8 s.time.tick.toNat))) ∧
      (s.addressOk a = false → f.origin ≠ .enginePort → exec (.paramWrite mb addr value) s = .next (s.finish mb f .badarg 0 [])) ∧
      (s.addressOk a = true → originAllowed f.origin a = false →
        (s.Affords 4 → exec (.paramWrite mb addr value) s = .next ((refused f a).finish mb f .denied 0 [])) ∧
        (s.power.testEnded = false → exec (.paramWrite mb addr value) s = .next (s.finish mb f .deferred 0 []))) ∧
      (s.addressOk a = true → originAllowed f.origin a = true → s.writeStatus (s.stored a value.toNat) a value.toNat = .ok → s.power.testEnded = false →
        exec (.paramWrite mb addr value) s = .next (s.finish mb f .deferred 0 []))) ∧
    (s.readable a = false → s.Fails (.paramRead mb addr) mb (.paramRead addr) .badarg []) ∧
    (s.readable a = true → s.Answers (.paramRead mb addr) mb (.paramRead addr) .ok (natLe 4 (s.readParam a).1) (fun _ => (s.readParam a).2)) ∧
    (s.starts mb (.paramWriteList pairs) = some f → ps ≠ [] →
      (f.verdict = none → s.Affords (4 * ps.length) → exec (.paramWriteList mb pairs) s = .next
        ((ps.foldl (fun t p => t.applyAll f.origin p.1 p.2) ((s.listEntries f.origin f.code.toNat f.tag.toNat ps).foldl State.commitEntry s)).finish mb f .ok 0
          (natLe 4 ps.length))) ∧
      (f.verdict = some (k, .badarg, false) → exec (.paramWriteList mb pairs) s = .next (s.finish mb f .badarg 0 (natLe 2 k))) ∧
      (f.verdict = some (k, .denied, true) → s.Affords 4 → exec (.paramWriteList mb pairs) s = .next
        ((refused f ((ps[k]?.map (·.1)).getD 0)).finish mb f .denied 0 []))) ∧
    (∀ (j : Nat) (st : Status) (no : Bool), s.listCheck f.origin ps = some (j, st, no) → j < ps.length ∧
      ((ps[j]?).any (fun q => s.addressOk q.1 && originAllowed f.origin q.1) = true → no = false)) ∧
    (∀ x ∈ addrs.zipIdx, s.readable x.1.toNat = false → (∀ y ∈ addrs.zipIdx, y.2 < x.2 → s.readable y.1.toNat = true) →
      s.Fails (.paramReadList mb addrs) mb (.paramReadList addrs) .badarg (natLe 2 x.2)) ∧
    ((∀ x ∈ addrs, s.readable x.toNat = true) → ∀ g : InFlight, s.starts mb (.paramReadList addrs) = some g → ∃ (t : State) (payload : List Byte),
      exec (.paramReadList mb addrs) s = .next (t.finish mb g .ok 0 payload) ∧ payload.length = 4 * addrs.length) ∧
    (s.readable a = true → s.readable addr'.toNat = true → a < addr'.toNat →
      let r := s.readParam a
      let r' := r.2.readParam addr'.toNat
      s.Answers (.paramReadList mb [addr', addr]) mb (.paramReadList [addr', addr]) .ok (natLe 4 r'.1 ++ natLe 4 r.1) (fun _ => r'.2))

/-- R97, R148, R149, R328, Table 14.9: ACQ_ARM and ACQ_DISARM name a milestone at least 1,024 ticks ahead and are DENIED where the state forbids them;
ACQ_LAUNCH queues a frame at least 256 ticks ahead; the others read acquisition, a booking and a room. The order of the checks of ACQ_LAUNCH and
ACQ_ROOM_READ (log entry 62), and which channels a read needs (34), are the model's. -/
def Obligations.AcquisitionCommandsAnswer : Prop :=
  ∀ (s : State) (mb : Fin 8) (m tick : DWord) (port p : Byte) (q : Fin 16) (start : DWord) (len tag room : Word) (slot : Half) (first words : Byte) (b : Booking)
    (bs : List Byte) (t : State),
    let a := if m = 0 then milestoneAt (s.time.tick + 1024) else m
    let ok := m = 0 ∨ (m.toNat % 2 ^ 20 = 0 ∧ 1024 ≤ (m - s.time.tick).toInt)
    let queued := fun (f : InFlight) (g : LaunchFrame) (kind : Nat) =>
      let u := s.commitEntry ((s.cmdEntry f 10 (kind * 256 + q.val) (tick.toNat % 2 ^ 32) (tick.toNat / 2 ^ 32)).at tick)
      ({ u with time := { u.time with queue := u.time.queue ++ [.frame tick q g f.tag] } } : State)
    (ok → s.mayArm = true → s.Affords 4 → s.Answers (.acqArm mb m) mb (.acqArm m) .ok (natLe 8 a.toNat) (fun f =>
      let u := s.commitEntry ((s.cmdEntry f 10 (a.toNat / 2 ^ 20 % 2 ^ 32) 0 1).at a)
      { u with acq := { u.acq with state := .armPending, armTick := a } })) ∧
    (ok → s.mayArm = false → s.Fails (.acqArm mb m) mb (.acqArm m) .denied []) ∧
    (¬ok → s.Fails (.acqArm mb m) mb (.acqArm m) .badarg [] ∧ s.Fails (.acqDisarm mb m) mb (.acqDisarm m) .badarg []) ∧
    (s.mayArm = true ↔ s.rd pDevNumber ≠ 0xFFFF ∧ s.acq.state = .disarmed ∧ (∀ d : Nat, 16 ≤ d → d ≤ 20 → s.on d = true) ∧
      (∀ c : Fin 4, (s.mem.channels[c]).state = .ready) ∧ (s.time.servo = .freerun ∨ s.time.servo = .acquire → s.rd pAcqArmUnlocked ≠ 0)) ∧
    (ok → s.acq.state = .armed → s.Affords 4 → s.Answers (.acqDisarm mb m) mb (.acqDisarm m) .ok (natLe 8 a.toNat) (fun f =>
      let u := s.commitEntry ((s.cmdEntry f 10 (a.toNat / 2 ^ 20 % 2 ^ 32) 1 0).at a)
      { u with acq := { u.acq with state := .disarmPending, disarmTick := a } })) ∧
    (ok → s.acq.state ≠ .armed → s.Fails (.acqDisarm mb m) mb (.acqDisarm m) .denied []) ∧
    (16 ≤ port.toNat → s.Fails (.acqLaunch mb port tick (.test tag)) mb (.acqLaunch port tick (.test tag)) .badarg []) ∧
    (port.toNat = q.val → s.inService (downPort q) = false → s.Fails (.acqLaunch mb port tick (.test tag)) mb (.acqLaunch port tick (.test tag)) .badarg []) ∧
    (port.toNat = q.val → s.inService (downPort q) = true → (s.ports[downPort q]).state ≠ .admitted →
      s.Fails (.acqLaunch mb port tick (.test tag)) mb (.acqLaunch port tick (.test tag)) .denied []) ∧
    (port.toNat = q.val → s.inService (downPort q) = true → (s.ports[downPort q]).state = .admitted → s.time.queue.length < 256 →
      (256 ≤ (tick - s.time.tick).toInt →
        (s.Affords 4 → s.Answers (.acqLaunch mb port tick (.test tag)) mb (.acqLaunch port tick (.test tag)) .ok (natLe 4 ((s.time.queue.length + 1) % 256)) (fun f => queued f (.test tag) 2)) ∧
        (tag.toNat < 2 ^ 31 → s.Affords 4 → s.Answers (.acqLaunch mb port tick (.accept tag start len)) mb (.acqLaunch port tick (.accept tag start len)) .ok
          (natLe 4 ((s.time.queue.length + 1) % 256)) (fun f => queued f (.accept ⟨tag, start, len, tick⟩) 1))) ∧
      ((tick - s.time.tick).toInt < 256 → s.Answers (.acqLaunch mb port tick (.test tag)) mb (.acqLaunch port tick (.test tag)) .timeout []
        (fun f => s.launchMissed 2 f.tag.toNat))) ∧
    (s.Answers (.acqStatus mb) mb .acqStatus .ok (natLe 4 s.acqState ++ natLe 8 s.acq.armTick.toNat ++ natLe 8 s.acq.armedTicks ++ natLe 8 s.acq.deadTicks ++
      natLe 4 s.porter.bookings.length ++ natLe 4 s.porter.freeCount ++ natLe 4 s.roomsReady) (fun _ => s)) ∧
    (s.booking slot.toNat = some b → slot.toNat ∈ s.porter.cached → s.Answers (.acqBookingRead mb slot) mb (.acqBookingRead slot) .ok b.bytes (fun _ => s)) ∧
    (s.booking slot.toNat = some b → slot.toNat ∉ s.porter.cached → s.memReaches (64 * slot.toNat) 64 = true → s.readBytes (64 * slot.toNat) 64 = (some bs, t) →
      s.Answers (.acqBookingRead mb slot) mb (.acqBookingRead slot) .ok bs (fun _ => t)) ∧
    (s.booking slot.toNat = none → slot.toNat ∉ s.porter.heldSlots → s.Fails (.acqBookingRead mb slot) mb (.acqBookingRead slot) .denied []) ∧
    (s.roomsFit ≤ room.toNat ∨ words.toNat = 0 ∨ 32 < first.toNat + words.toNat →
      s.Fails (.acqRoomRead mb room first words) mb (.acqRoomRead room first words) .badarg []) ∧
    (room.toNat < s.roomsFit → (s.room room.toNat).state ≠ .out → 1 ≤ words.toNat → first.toNat + words.toNat ≤ 32 →
      let from_ := s.roomAddr room.toNat + 8 * first.toNat
      s.memReaches from_ (8 * words.toNat) = true →
      (s.readBytes from_ (8 * words.toNat) = (some bs, t) → s.Answers (.acqRoomRead mb room first words) mb (.acqRoomRead room first words) .ok bs (fun _ => t)) ∧
      (s.readBytes from_ (8 * words.toNat) = (none, t) → s.Answers (.acqRoomRead mb room first words) mb (.acqRoomRead room first words) .memerr [] (fun _ => t)))

/-- R122, R146, R147, R329, R331, Table 14.10: a good image of instructions or data memory is written to the engine that its selector names, which does not
execute, and a table image once to the tile's table memory; images that fail a check name it, and executing engines and unpowered tiles deny a load; engine
memories, with MEMERR at an uncorrectable word, and states are read; MEM_INFLATE hands its bytes to a decompressor. DENIED for an unpowered tile (log entry
39), the slots that Aelko's reads take (34) and the values at rest of the check units (80) are the model's; that the staging areas are two is taken from
R320 (61). -/
def Obligations.EngineCommandsAnswer : Prop :=
  ∀ (s : State) (mb : Fin 8) (f : InFlight) (b : TransferBlock) (tr : Transfer) (img : List Byte) (from_ : Word) (e : Fin 128) (engine kind format : Byte)
    (addr bytes limit offset : Word) (length : Half) (tile : Fin 16),
    let i : Instr := .engLoad mb b
    let flags : Nat := if f.cont then 2 else 0
    let run := crc32cRun from_ b.data
    let un := ({ s with checks := { s.checks with running := s.checks.running.set 4 run } } : State)
    let clear := fun (t : State) => ({ t with keeper := { t.keeper with transfers := t.keeper.transfers.set mb.val none } } : State)
    let first := b.cont = false ∧ b.offset = 0 ∧ img = b.data ∧ from_ = crc32cSeed
    let last := b.cont = true ∧ s.keeper.transfers[mb] = some tr ∧ tr.command = f.code ∧ tr.tag = f.tag ∧ tr.selector = b.selector ∧ tr.total = b.total.toNat ∧
      b.offset.toNat = tr.data.length ∧ img = tr.data ++ b.data ∧ from_ = tr.check
    let whole := (first ∨ last) ∧ img.length = b.total.toNat ∧ img.length ≤ 65556
    let clean := fun (k n : Nat) (ce bad : List Nat) => ∀ j : Nat, k ≤ j → j < k + n → j ∉ ce ∧ j ∉ bad
    let alone := ∀ m : Fin 8, m ≠ mb → s.keeper.transfers[m] = none
    let idle := ∀ k : Fin 2, s.comp.jobs[k] = none
    let n := length.toNat
    let x := s.engines[e]
    let t := tileOfEng e
    let y := s.tiles[t]
    let named := b.selector.toNat = t.val + 2 ^ 8 * 2 ^ (e.val % 8)
    let table := b.selector.toNat = t.val
    let halted := x.state = .stopped ∨ x.state = .halted ∨ x.state = .trapped
    let image := fun (k : Nat) => imageAt img 3 1 = k ∧ engImageFail img = 0
    let place := imageAt img 4 4
    let size := img.length - 20
    let filled := fun (at_ : Nat) (old new : Memory) => ∀ k : Nat, new.get k = if at_ ≤ k ∧ k < at_ + size then img[20 + (k - at_)]?.getD 0 else old.get k
    let done := fun (u : State) => exec i s = .next (u.finish mb f .ok flags (natLe 4 (imageAt img 16 4))) ∧ u.keeper.transfers[mb] = none
    let alike := fun (u : State) => ∀ g : Fin 128, g ≠ e → u.engines[g] = s.engines[g]
    (s.starts mb (.engLoad b) = some f → alone → idle → s.comp.waiting = [] →
      (engSelectorOk b.selector = false → b.cont = false → exec i s = .next ((clear s).finish mb f .badarg 0 [])) ∧
      (named ∨ table → first → b.data.length < b.total.toNat → b.total.toNat ≤ 65556 →
        exec i s = .next ((un.setTransfer mb (some ⟨f.code, f.tag, b.selector, b.total.toNat, b.data, run, s.time.clock⟩)).finish mb f .ok flags (natLe 4 b.data.length))) ∧
      (named ∨ table → whole → engImageFail img ≠ 0 → exec i s = .next ((clear un).finish mb f .badarg 0 (natLe 2 5 ++ natLe 2 (engImageFail img)))) ∧
      (named → whole → image 3 → exec i s = .next ((clear un).finish mb f .badarg 0 [6, 0, 0, 0])) ∧
      (table → whole → image 1 ∨ image 2 → exec i s = .next ((clear un).finish mb f .badarg 0 [6, 0, 0, 0])) ∧
      (named → whole → image 1 ∨ image 2 → s.on t.val = false ∨ x.state = .running ∨ x.state = .sleeping ∨ x.state = .waiting →
        exec i s = .next ((clear un).finish mb f .denied 0 [])) ∧
      (table → whole → image 3 → s.on t.val = false → exec i s = .next ((clear un).finish mb f .denied 0 [])) ∧
      (whole → s.on t.val = true → s.Affords 4 → s.Inv →
        (named → image 1 → halted → ∃ (u : State) (im : Memory), done u ∧ alike u ∧
          u.engines[e] = { x with imem := im, imemCe := (u.engines[e]).imemCe, imemBad := (u.engines[e]).imemBad } ∧ filled (4 * place) x.imem im ∧
          clean place (size / 4) (u.engines[e]).imemCe (u.engines[e]).imemBad ∧ u.rd (pEngImageCrc e.val) = imageAt img 16 4 ∧
          { u with engines := s.engines, params := s.params, keeper := s.keeper, mram := s.mram } = un) ∧
        (named → image 2 → halted → ∃ (u : State) (im : Memory), done u ∧ alike u ∧
          u.engines[e] = { x with dmem := im, dmemCe := (u.engines[e]).dmemCe, dmemBad := (u.engines[e]).dmemBad } ∧ filled place x.dmem im ∧
          clean (place / 4) (size / 4) (u.engines[e]).dmemCe (u.engines[e]).dmemBad ∧ { u with engines := s.engines, keeper := s.keeper, mram := s.mram } = un) ∧
        (table → image 3 → ∃ (u : State) (im : Memory), done u ∧ (∀ g : Fin 16, g ≠ t → u.tiles[g] = s.tiles[g]) ∧
          u.tiles[t] = { y with table := im, tableCe := (u.tiles[t]).tableCe, tableBad := (u.tiles[t]).tableBad } ∧ filled place y.table im ∧
          clean (place / 4) (size / 4) (u.tiles[t]).tableCe (u.tiles[t]).tableBad ∧ { u with tiles := s.tiles, keeper := s.keeper, mram := s.mram } = un)) ∧
      (b.selector.toNat = t.val + 2 ^ 8 * 2 ^ (e.val % 8) + 2 ^ 16 → whole → s.on 21 = true → 65556 ≤ s.rd pCmpDLimitMax →
        exec i s = .next { un with comp := { s.comp with jobs := s.comp.jobs.set 0 (some ⟨f.tag, img, false, 0, 65556, mb, none⟩) } })) ∧
    (128 ≤ engine.toNat ∨ n = 0 ∨ 480 < n ∨ n % 4 ≠ 0 ∨ kind.toNat = 0 ∨ 3 < kind.toNat →
      s.Fails (.engRead mb engine kind addr length) mb (.engRead engine kind addr length) .badarg []) ∧
    (engine.toNat = e.val → 1 ≤ n → n ≤ 480 → n % 4 = 0 → s.on t.val = true →
      (addr.toNat + n / 4 ≤ 2048 → clean addr.toNat (n / 4) x.imemCe x.imemBad →
        s.Answers (.engRead mb engine 1 addr length) mb (.engRead engine 1 addr length) .ok (x.imem.bytes (4 * addr.toNat) n) (fun _ => s)) ∧
      (addr.toNat + n ≤ 0x2000 → clean (addr.toNat / 4) ((addr.toNat % 4 + n + 3) / 4) x.dmemCe x.dmemBad →
        s.Answers (.engRead mb engine 2 addr length) mb (.engRead engine 2 addr length) .ok (x.dmem.bytes addr.toNat n) (fun _ => s)) ∧
      (addr.toNat + n ≤ 0x10000 → clean (addr.toNat / 4) ((addr.toNat % 4 + n + 3) / 4) (s.tiles[t]).tableCe (s.tiles[t]).tableBad →
        s.Answers (.engRead mb engine 3 addr length) mb (.engRead engine 3 addr length) .ok ((s.tiles[t]).table.bytes addr.toNat n) (fun _ => s)) ∧
      (addr.toNat + n / 4 ≤ 2048 → (∃ k ∈ x.imemBad, addr.toNat ≤ k ∧ k < addr.toNat + n / 4) → ∀ g : InFlight, s.starts mb (.engRead engine 1 addr length) = some g →
        ∃ k ∈ x.imemBad, exec (.engRead mb engine 1 addr length) s = .next ((s.onchipUe e.val k).finish mb g .memerr 0 []))) ∧
    (16 ≤ engine.toNat → s.Fails (.engStatus mb engine) mb (.engStatus engine) .badarg []) ∧
    (s.Answers (.engStatus mb (BitVec.ofNat 8 tile.val)) mb (.engStatus (BitVec.ofNat 8 tile.val)) .ok ((List.finRange 8).flatMap (fun i =>
      let y := s.engines[(⟨8 * tile.val + i.val, by omega⟩ : Fin 128)]
      natLe 1 y.state.code ++ natLe 1 y.restarts ++ natLe 2 y.pc.toNat ++ natLe 4 y.trapWord)) (fun _ => s)) ∧
    (let i : Instr := .memInflate mb addr bytes format limit offset length
     let c : AelkoCmd := .memInflate addr bytes format limit offset length
     let bad := 1 < format.toNat ∨ n = 0 ∨ 480 < n ∨ 0x4000000 < addr.toNat + bytes.toNat ∨ s.dataFit < addr.toNat + bytes.toNat
     (bad ∨ limit = 0 ∨ s.rd pCmpDLimitMax < limit.toNat → s.Fails i mb c .badarg []) ∧
     (¬bad → limit ≠ 0 → limit.toNat ≤ s.rd pCmpDLimitMax → s.on 21 = false → s.Fails i mb c .denied []) ∧
     (¬bad → limit ≠ 0 → limit.toNat ≤ s.rd pCmpDLimitMax → s.on 21 = true → s.memReaches addr.toNat bytes.toNat = true → idle → ∀ g : InFlight, s.starts mb c = some g →
       let r := s.readBytes addr.toNat bytes.toNat
       let job : Job := ⟨g.tag, r.1.getD [], r.1.isNone, format.toNat, limit.toNat, mb, some (offset.toNat, n)⟩
       exec (.memInflate mb addr bytes format limit offset length) s = .next { r.2 with comp := { r.2.comp with jobs := r.2.comp.jobs.set 0 (some job) } }))

/-- R90, R92, R93, R330, Table 14.11: TIME_STATUS; TIME_SWITCH to a healthy domain that is not active; a re-step two milestones ahead, which TIME_RESTEP_CANCEL
takes back; and TIME_ASYM_CONFIRM, which writes a valid proposal into TIME.D_ASYM. That a re-step without the reference block is DENIED is the model's
choice (log entry 39). -/
def Obligations.TimeCommandsAnswer : Prop :=
  ∀ (s : State) (mb : Fin 8) (d : Fin 2) (dom mode : Byte) (m delta : DWord) (r : Restep),
    let db : Byte := BitVec.ofNat 8 d.val
    let far := fun (x : DWord) => (0x200000 : Int) ≤ (x - s.time.tick).toInt
    let x := s.time.domains[d]
    let new := (x.proposal % 2 ^ 32).toNat
    (∀ f : InFlight, s.starts mb .timeStatus = some f → ∃ rest : List Byte, exec (.timeStatus mb) s = .next (s.finish mb f .ok 0
      (natLe 8 s.time.tick.toNat ++ natLe 2 s.time.fine.toNat ++ natLe 2 s.timeState ++ natLe 8 s.rate64 ++ natLe 4 (s.rd pTimeSteps) ++ rest)) ∧ rest.length = 48) ∧
    (2 ≤ dom.toNat → s.Fails (.timeSwitch mb dom) mb (.timeSwitch dom) .badarg [] ∧ s.Fails (.timeAsymConfirm mb dom) mb (.timeAsymConfirm dom) .badarg []) ∧
    (s.time.active = d ∨ s.healthy d = false → s.Fails (.timeSwitch mb db) mb (.timeSwitch db) .denied []) ∧
    (s.time.active ≠ d → s.healthy d = true → s.Affords 4 → s.Answers (.timeSwitch mb db) mb (.timeSwitch db) .ok []
      (fun f => (s.logged f 5 0 s.time.active.val d.val).switchDomain d false)) ∧
    (2 ≤ dom.toNat ∨ (mode ≠ 1 ∧ mode ≠ 2) ∨ (mode = 2 ∧ delta ≠ 0) ∨ m.toNat % 2 ^ 20 ≠ 0 ∨ ¬far m →
      s.Fails (.timeRestep mb m mode dom delta) mb (.timeRestep m mode dom delta) .badarg []) ∧
    (mode = 1 ∨ (mode = 2 ∧ delta = 0) → m.toNat % 2 ^ 20 = 0 → far m →
      (s.time.restep.isSome = true ∨ s.on 30 = false → s.Fails (.timeRestep mb m mode db delta) mb (.timeRestep m mode db delta) .denied []) ∧
      (s.time.restep = none → s.on 30 = true → s.Affords 4 → s.Answers (.timeRestep mb m mode db delta) mb (.timeRestep m mode db delta) .ok [] (fun f =>
        let t := s.commitEntry ((s.cmdEntry f 10 (m.toNat / 2 ^ 20 % 2 ^ 32) mode.toNat d.val).at m)
        { t with time := { t.time with restep := some ⟨m, decide (mode = 2), d, delta.toInt, f.origin, f.tag⟩ } }))) ∧
    (s.time.restep = none → s.Fails (.timeRestepCancel mb) mb .timeRestepCancel .denied []) ∧
    (s.time.restep = some r → ¬far r.milestone → s.Fails (.timeRestepCancel mb) mb .timeRestepCancel .denied []) ∧
    (s.time.restep = some r → far r.milestone → s.Affords 4 → s.Answers (.timeRestepCancel mb) mb .timeRestepCancel .ok (natLe 8 r.milestone.toNat) (fun f =>
      let t := s.logged f 10 (r.milestone.toNat / 2 ^ 20 % 2 ^ 32) 1 0
      { t with time := { t.time with restep := none } })) ∧
    (x.proposalValid = false → s.Fails (.timeAsymConfirm mb db) mb (.timeAsymConfirm db) .denied []) ∧
    (x.proposalValid = true → s.Affords 4 → s.Answers (.timeAsymConfirm mb db) mb (.timeAsymConfirm db) .ok (natLe 4 new) (fun f =>
      ((s.logged f 1 (pTimeDAsym d.val) (s.rd (pTimeDAsym d.val)) new).wr (pTimeDAsym d.val) new).asymWritten d (signed 32 (s.rd (pTimeDAsym d.val))) (signed 32 new)
        true 1))

/-- R285, R286, R310, R331, Tables 14.12 and 14.13: the error log, the retirement map, external memory and the ledger are read, from an entry still held on;
MEM_RETIRE appends to the map, with its count and check anew, and a map so written passes its checks; LEDGER_NOTE makes an entry. What Aelko's reads of
memory wait for is the model's (log entry 34). -/
def Obligations.MemoryAndLedgerCommandsAnswer : Prop :=
  ∀ (s : State) (mb : Fin 8) (first object was new addr : Word) (entries : Byte) (es : List Word) (length : Half) (bs : List Byte) (t : State),
    let n := entries.toNat
    let old := retireEntries s.mram.retirement
    let count := old.length
    let bad := addr.toNat % 8 ≠ 0 ∨ length.toNat % 8 ≠ 0 ∨ length.toNat = 0 ∨ 480 < length.toNat ∨ 0x4000000 < addr.toNat + length.toNat ∨
      s.dataFit < addr.toNat + length.toNat
    (n = 0 ∨ 15 < n → s.Fails (.memLogRead mb first entries) mb (.memLogRead first entries) .badarg [] ∧
      s.Fails (.ledgerRead mb first entries) mb (.ledgerRead first entries) .badarg []) ∧
    (1 ≤ n → n ≤ 15 →
      let r := ringFrom s.mram.log ((s.mram.log.head?.map (fun e => e.seq + 1)).getD 0) first n
      let q := ringFrom s.mram.ring s.mram.ledgerHead first n
      s.Answers (.memLogRead mb first entries) mb (.memLogRead first entries) .ok (natLe 4 r.1.toNat ++ r.2.flatMap (fun e => e.bytes)) (fun _ => s) ∧
      ((∀ e ∈ q.2, e.crcOk = true) → s.Answers (.ledgerRead mb first entries) mb (.ledgerRead first entries) .ok
        (natLe 4 q.1.toNat ++ q.2.flatMap (fun e => e.bytes)) (fun _ => s))) ∧
    (∀ (α : Type) (newest : List α) (head : Word) (k : Nat), newest.length < 2 ^ 31 → k ≤ newest.length →
      ringFrom newest head (head - BitVec.ofNat 32 k) n = (head - BitVec.ofNat 32 k, (newest.take k).reverse.take n)) ∧
    ((∃ e ∈ es, retireOk e = false) → s.Fails (.memRetire mb es) mb (.memRetire es) .badarg []) ∧
    ((∀ e ∈ es, retireOk e = true) → 16380 < count + es.length → s.Fails (.memRetire mb es) mb (.memRetire es) .denied []) ∧
    ((∀ e ∈ es, retireOk e = true) → es ≠ [] → count + es.length ≤ 16380 → s.Affords ((16 + 4 * (count + es.length) + 7) / 8 - (16 + 4 * count) / 8 + 2) →
      s.Affords (4 * es.length) →
      ∀ f : InFlight, s.starts mb (.memRetire es) = some f → ∃ u : State, exec (.memRetire mb es) s = .next (u.finish mb f .ok 0 (natLe 4 (count + es.length))) ∧
        u.mram.retirement = retireImage (old ++ es) ∧ u.mram.ledgerHead = s.mram.ledgerHead + BitVec.ofNat 32 es.length ∧
        { u with mram := s.mram, keeper := s.keeper } = s) ∧
    (n = 0 ∨ 120 < n → s.Fails (.memRetireRead mb first entries) mb (.memRetireRead first entries) .badarg []) ∧
    ((es.all retireOk = true ∧ es.length ≤ 16380) → retireFail (retireImage es) = 0 ∧ retireEntries (retireImage es) = es) ∧
    (1 ≤ n → n ≤ 120 → s.Answers (.memRetireRead mb first entries) mb (.memRetireRead first entries) .ok
      (natLe 4 count ++ ((old.drop first.toNat).take n).flatMap (fun e => natLe 4 e.toNat)) (fun _ => s)) ∧
    (bad → s.Fails (.memRead mb addr length) mb (.memRead addr length) .badarg []) ∧
    (¬bad → s.memReaches addr.toNat length.toNat = false → s.Fails (.memRead mb addr length) mb (.memRead addr length) .denied []) ∧
    (¬bad → s.memReaches addr.toNat length.toNat = true → s.readBytes addr.toNat length.toNat = (some bs, t) →
      s.Answers (.memRead mb addr length) mb (.memRead addr length) .ok bs (fun _ => t)) ∧
    (¬bad → s.memReaches addr.toNat length.toNat = true → s.readBytes addr.toNat length.toNat = (none, t) →
      s.Answers (.memRead mb addr length) mb (.memRead addr length) .memerr [] (fun _ => t)) ∧
    (s.Affords 4 → s.Answers (.ledgerNote mb object was new) mb (.ledgerNote object was new) .ok (natLe 4 s.mram.ledgerHead.toNat)
      (fun f => s.logged f 10 object.toNat was.toNat new.toNat)) ∧
    (s.power.testEnded = false → s.Fails (.ledgerNote mb object was new) mb (.ledgerNote object was new) .deferred [])

/-- R332, R352, R377, R378, R384, Tables 14.14 and 14.15: PWR_DOMAIN switches what the rules of R352 allow; the status of power, sensors, lanes and ports is
read; PFE commands start conversions, take a result, and write coefficients to the chip and, with their CRC-32C, to MRAM. A CRITICAL device whose timebase
goes off switches its domains off at once, and PFE_START in mode 3 takes no new sequence number (log entry 84); the fields of the status replies are those
of the registers they name (63): these are the model's. -/
def Obligations.PowerLaneAndFrontEndCommandsAnswer : Prop :=
  ∀ (s : State) (mb : Fin 8) (mask : DWord) (on_ b flags : Byte) (p : Fin 18) (input : Fin 32) (coefs : List Word) (d : Nat),
    let items := fun (cls k : Nat) => (List.range 5).flatMap (fun i => natLe 4 (s.peekParam (pAddr cls (0x010 + i) k)))
    let ib : Byte := BitVec.ofNat 8 input.val
    let record := fun (cs : List Word) => cs.flatMap (fun c => natLe 4 c.toNat)
    let crc := fun (cs : List Word) => (crc32c (record cs)).toNat
    let late := fun (t : State) => if t.on 30 then t else t.criticalOffNow
    let answer := fun (f : InFlight) (t : State) => Host.Outcome.next (t.finish mb f .ok 0 (natLe 8 t.power.domains.toNat))
    (mask = 0 ∨ 2 ^ 36 ≤ mask.toNat ∨ 1 < on_.toNat → s.Fails (.pwrDomain mb mask on_) mb (.pwrDomain mask on_) .badarg []) ∧
    (d < 36 → mask.toNat = 2 ^ d →
      (s.switchAllowed [d] true = false → s.Fails (.pwrDomain mb mask 1) mb (.pwrDomain mask 1) .denied []) ∧
      (s.switchAllowed [d] false = false → s.Fails (.pwrDomain mb mask 0) mb (.pwrDomain mask 0) .denied []) ∧
      (s.switchAllowed [d] true = true → s.on d = true → ∀ f : InFlight, s.starts mb (.pwrDomain mask 1) = some f →
        exec (.pwrDomain mb mask 1) s = answer f (late s.lookDead)) ∧
      (s.switchAllowed [d] true = true → s.on d = false → d ≠ 28 → s.Affords 4 → ∀ f : InFlight, s.starts mb (.pwrDomain mask 1) = some f →
        exec (.pwrDomain mb mask 1) s = answer f (late ((s.commitEntry (s.powerEntry f.origin.code f.code.toNat f.tag.toNat d true)).switchOn [d]))) ∧
      (s.switchAllowed [d] false = true → s.on d = true → s.Affords 4 → ∀ f : InFlight, s.starts mb (.pwrDomain mask 0) = some f →
        exec (.pwrDomain mb mask 0) s = answer f (late ((s.commitEntry (s.powerEntry f.origin.code f.code.toNat f.tag.toNat d false)).switchOff 1 [d]))) ∧
      (s.switchAllowed [d] true = true ↔ d ≠ 29 ∧ d ≠ 33 ∧ (d = 28 → s.keeper.fenced = true) ∧ (∀ k : Nat, domainNeeds d = some k → k = d ∨ s.on k = true) ∧
        (s.hottest.1 < s.limit pThermTCrit - 160 ∨ s.on d = true ∨ criticalDomains.contains d = false))) ∧
    (s.Answers (.pwrStatus mb) mb .pwrStatus .ok (natLe 8 s.power.domains.toNat ++ natLe 4 s.power.hold ++ natLe 4 (s.power.cMeas.getD 0) ++ natLe 4 s.energyMicro) (fun _ => s)) ∧
    (s.Answers (.thermStatus mb) mb .thermStatus .ok ((List.finRange 17).flatMap (fun n => natLe 2 (unsigned 16 (s.sensorTemp n))) ++ [0, 0] ++ natLe 4 s.brokenMask ++
      natLe 4 s.therm.state.code) (fun _ => s)) ∧
    (20 < b.toNat → s.Fails (.laneStatus mb b) mb (.laneStatus b) .badarg []) ∧
    (b.toNat ≤ 20 → s.Answers (.laneStatus mb b) mb (.laneStatus b) .ok (items 10 b.toNat) (fun _ => s)) ∧
    (18 ≤ b.toNat → s.Fails (.portStatus mb b) mb (.portStatus b) .badarg []) ∧
    (b.toNat = p.val → s.inService p = true → s.Answers (.portStatus mb b) mb (.portStatus b) .ok (items 11 b.toNat) (fun _ => s)) ∧
    (b.toNat = p.val → s.inService p = false → s.Fails (.portStatus mb b) mb (.portStatus b) .badarg []) ∧
    (1 < flags.toNat → s.Fails (.pfeStart mb flags) mb (.pfeStart flags) .badarg []) ∧
    (flags.toNat ≤ 1 → s.rd pPfeMode = 0 → s.Fails (.pfeStart mb flags) mb (.pfeStart flags) .denied []) ∧
    (flags.toNat ≤ 1 → s.rd pPfeMode ≠ 0 → s.pfe.converting = false → s.Answers (.pfeStart mb flags) mb (.pfeStart flags) .ok (natLe 4 (s.pfe.seq + 1).toNat)
      (fun _ => { s with pfe := { s.pfe with converting := true, seq := s.pfe.seq + 1, settled := 0 } })) ∧
    (s.rd pPfeMode ≠ 0 → s.pfe.converting = true → s.Answers (.pfeStart mb 0) mb (.pfeStart 0) .denied [] (fun _ => s.bumpPostCount pPfeCntStartLost 457 1)) ∧
    (s.rd pPfeMode = 2 → s.pfe.converting = true → s.Answers (.pfeStart mb 1) mb (.pfeStart 1) .ok (natLe 4 (s.pfe.seq + 1).toNat)
      (fun _ => { s with pfe := { s.pfe with seq := s.pfe.seq + 1 } })) ∧
    (s.rd pPfeMode = 3 → s.pfe.converting = true → (∀ k : Fin 32, k < input → (s.rd pPfeScan).testBit k.val = false) → (s.rd pPfeScan).testBit input.val = true →
      ∀ f : InFlight, s.starts mb (.pfeStart 1) = some f →
        let t := s.pfeMove input (1 + s.rd pPfeInterleave)
        exec (.pfeStart mb 1) s = .next (t.finish mb f .ok 0 (natLe 4 t.pfe.seq.toNat)) ∧ t.rd pPfeSelect = input.val ∧ t.pfe.settled = 0 ∧ t.pfe.testing = false) ∧
    (s.rd pPfeMode = 1 → s.pfe.converting = true → s.Answers (.pfeStart mb 1) mb (.pfeStart 1) .ok (natLe 4 (s.pfe.seq + 1).toNat)
      (fun _ => { s with pfe := { s.pfe with seq := s.pfe.seq + 1, settled := 0 } })) ∧
    (s.Answers (.pfeResult mb) mb .pfeResult .ok (natLe 4 s.pfe.result.toNat ++ natLe 4 s.pfe.eng.toNat ++ natLe 4 (bit s.pfe.overrun))
      (fun _ => { s with pfe := { s.pfe with unread := false, overrun := false } })) ∧
    (32 ≤ b.toNat → s.Fails (.pfeCoefWrite mb b coefs) mb (.pfeCoefWrite b coefs) .badarg [] ∧ s.Fails (.pfeCoefRead mb b) mb (.pfeCoefRead b) .badarg []) ∧
    ((∃ c ∈ coefs, c.toNat / 2 ^ 23 % 256 = 255) → s.Fails (.pfeCoefWrite mb ib coefs) mb (.pfeCoefWrite ib coefs) .badarg []) ∧
    ((∀ c ∈ coefs, c.toNat / 2 ^ 23 % 256 ≠ 255) → s.on 32 = true → s.Affords 7 → s.Affords 4 → s.Answers (.pfeCoefWrite mb ib coefs) mb (.pfeCoefWrite ib coefs) .ok
      (natLe 4 (crc coefs)) (fun f =>
        let t := s.logged f 10 input.val (crc (s.pfe.inputs[input]).coefs) (crc coefs)
        { t with mram := { t.mram with coefs := sset input.val (record coefs ++ natLe 4 (crc coefs)) t.mram.coefs }
                 pfe := { t.pfe with inputs := t.pfe.inputs.set input.val { (s.pfe.inputs[input]) with coefs := coefs, valid := true } } })) ∧
    (s.Answers (.pfeCoefRead mb ib) mb (.pfeCoefRead ib) .ok (record (s.pfe.inputs[input]).coefs) (fun _ => s))

/-! ### Redundancy (spec/15) -/

/-- R333, R334, R343, R344, Table 14.16: the redundancy commands: status, a checkpoint at once, readmission of a power-cycled pair, the switch to the spare and
the spare's self-test, whose command completes TIMEOUT after 200 ms. The size of a checkpoint's batch (log entry 25), what a run that waits or outlasts its
command does (40) DENIED with the pair's domain off (52) and the fields of RED_STATUS (63) are the model's. -/
def Obligations.RedundancyCommandsAnswer : Prop :=
  ∀ (s : State) (mb : Fin 8) (key : Word) (f : InFlight) (c : Checkpoint),
    let count := s.mram.checkpointSeq + 1
    (s.Answers (.redStatus mb) mb .redStatus .ok ([BitVec.ofNat 8 (bit (decide (s.keeper.spare = .spareActive ∨ s.keeper.spare = .pairCycled))),
      BitVec.ofNat 8 (bit s.keeper.fenced + 2 * bit s.keeper.cycled), 0, 0] ++ natLe 4 s.ckptAge ++ natLe 4 s.mram.checkpointSeq.toNat ++
      (match s.keeper.report with
        | some r => r.bytes
        | none => List.replicate 32 0)) (fun _ => s)) ∧
    (s.Affords 8192 → s.Affords 4 → s.Answers (.redCheckpoint mb) mb .redCheckpoint .ok (natLe 4 count.toNat) (fun g =>
      let t := s.logged g 10 0x200000 0 count.toNat
      t.storeCheckpoint t.takeCheckpoint)) ∧
    (s.power.testEnded = false → s.Fails (.redCheckpoint mb) mb .redCheckpoint .deferred []) ∧
    (s.storeCheckpoint c = { s with
      mram := { s.mram with checkpoints := { c with seq := s.mram.checkpointSeq } :: s.mram.checkpoints.filter (fun x => x.seq.toNat % 16 ≠ s.mram.checkpointSeq.toNat % 16),
                              checkpointSeq := count }
      keeper := { s.keeper with ckptCommitted := 0, ckptAt := s.time.clock } }) ∧
    (s.keeper.spare ≠ .pairCycled ∨ s.keeper.fenced = false ∨ s.on 28 = false → s.Fails (.redReadmit mb) mb .redReadmit .denied []) ∧
    (s.starts mb .redReadmit = some f → s.keeper.spare = .pairCycled → s.keeper.fenced = true → s.on 28 = true →
      (s.power.testEnded = false → exec (.redReadmit mb) s = .next (s.finish mb f .deferred 0 [])) ∧
      (s.Affords 8192 → s.Affords 4 → ∃ t : State, exec (.redReadmit mb) s = .next t ∧ t.keeper.spare = .handover ∧ t.keeper.fenced = false ∧
        t.keeper.switching = some (mb, f) ∧ t.fd.aelkoReady = false ∧ t.mram.checkpointSeq = count ∧ t.mram.ledgerHead = s.mram.ledgerHead + 1 ∧
        t.fd.mb = s.fd.mb ∧ t.power.domains = s.power.domains)) ∧
    (s.starts mb (.redSwitch key) = some f →
      (key ≠ 0x53574954#32 → exec (.redSwitch mb key) s = .next (s.finish mb f .badarg 0 [])) ∧
      (key = 0x53574954#32 → (s.keeper.spare ≠ .pair ∧ s.keeper.spare ≠ .selftest) ∨ s.keeper.selftestFailed = true →
        exec (.redSwitch mb key) s = .next (s.finish mb f .denied 0 [])) ∧
      (key = 0x53574954#32 → s.keeper.spare = .pair ∨ s.keeper.spare = .selftest → s.keeper.selftestFailed = false → s.Affords 4 →
        exec (.redSwitch mb key) s = .next (let t := s.logged f 6 1 s.keeper.spare.code SpareState.spareActive.code
          ({ t with keeper := { t.keeper with switching := some (mb, f) } } : State).fencePair))) ∧
    (s.keeper.spare ≠ .pair → s.Fails (.redSelftest mb) mb .redSelftest .denied []) ∧
    (s.keeper.spare = .pair → s.throttled = true → s.starts mb .redSelftest = some f → exec (.redSelftest mb) s = .next
      { s with keeper := { s.keeper with selftestMb := some mb, selftestAsked := s.time.clock, selftestWaits := some true } }) ∧
    (s.keeper.selftestMb = some mb → s.keeper.inFlight[mb] = some f → s.aelkoRuns = true →
      (204800000 < s.time.clock - s.keeper.selftestAsked →
        s.selftestTimeout = ({ s with keeper := { s.keeper with selftestMb := none } } : State).finish mb f .timeout 0 []) ∧
      (s.time.clock - s.keeper.selftestAsked ≤ 204800000 → s.selftestTimeout = s)) ∧
    (s.keeper.spare = .pair → s.throttled = false → s.starts mb .redSelftest = some f → ∃ t : State, exec (.redSelftest mb) s = .next t ∧
      t.keeper = { s.keeper with spare := .selftest, selftestRunning := some (true, s.time.tick), selftestWaits := none, selftestAt := s.time.clock, selftestMb := some mb,
                                 selftestAsked := s.time.clock } ∧
      t.on 29 = true ∧ ∀ d : Nat, d < 36 → d ≠ 29 → t.on d = s.on d)

/-- R336, R338–R345: a mismatch fences the pair, whose domain switches off while the spare's switches on and boots; Aelko then answers what was BUSY with
RESTARTED; the pair is readmitted; the ledger is replayed from the checkpoint's sequence on; the running spare's resets are counted, and the third within an
hour ends in NONE; checkpoints and self-tests fall due. Where uncorrectable words of the cores' memories lie (log entry 78), what the boots post (52), from
when the hold time and the period count (82), the argument of DP_SUPPRESSED (33), and that the report's bits 2 and 3 follow MRAM (40) are the model's. R346,
R347: the data path that has been out of ADMITTED for its hold time moves to the other link where that is STANDBY, at most once a second. -/
def Obligations.FailoverTakesItsSteps : Prop :=
  (∀ (s : State) (cause : Fin 5) (ok0 ok1 : Bool) (found : BitVec 7) (micros : Word) (temp corr : Half) (start : DWord) (byCommand : Bool) (mb : Fin 8) (c : InFlight) (pre post : List LedgerEntry)
    (e : LedgerEntry),
    let active := s.keeper.spare = .spareActive ∨ s.keeper.spare = .pairCycled
    let boots := active ∧ s.fd.aelkoReady = false ∧ s.on 29 = true ∧ s.power.poreset = false
    let passed := s.rd pSpareSelftestPeriod ≠ 0 ∧ s.rd pSpareSelftestPeriod * 1024000000 ≤ s.time.clock - s.keeper.selftestAt
    let fences := (s.keeper.spare = .pair ∨ s.keeper.spare = .selftest ∨ s.keeper.spare = .handover) ∧ cause ≠ 0 ∧ s.on 28 = true
    let bank : Fin 2 := if s.mram.bootBank = 1 then 1 else 0
    let recent := (s.time.clock :: s.keeper.spareResets).filter (fun t => decide (s.time.clock - t ≤ 3600 * 1024000000))
    let halts := fun (t : State) => t.fd.aelkoReady = false ∧ t.keeper.spareResets = recent ∧
      t.keeper.spare = (if 3 ≤ recent.length then .none else s.keeper.spare) ∧ t.rd pSpareCntSpareResets = min (s.rd pSpareCntSpareResets + 1) 0xFFFFFFFF
    let due := s.rd pSpareCkptPeriod * 1024000000 ≤ s.time.clock - s.keeper.ckptAt ∨ 4096 ≤ s.keeper.ckptCommitted
    let free := ∀ b ∈ s.mram.waiting ++ s.mram.running.toList, ∀ x : Checkpoint, b ≠ .checkpoint x
    let failed : BitVec 7 := (found &&& 0b1110011) ||| (if bootImageOk s.mram.bootImages[bank] then 0 else 0b100)
    let start11 := fun (x : LedgerEntry) => x.kind = 11 ∧ x.crcOk = true ∧ ∀ k : Checkpoint, s.mram.latest = some k → 0 ≤ (x.seq - k.ledger).toInt
    let r : HealthReport := ⟨byCommand, s.keeper.reportSeq + 1, start, micros, failed, temp, corr, s.mram.bootBank⟩
    (fences → exec (.lockstepMismatch cause) s = .next (((if cause = 4 then s.onchipUe 272 0 else s).post 494 1 cause.val).fencePair)) ∧
    (¬fences → exec (.lockstepMismatch cause) s = .next s) ∧
    (let t := s.fencePair
     t.keeper.spare = .spareActive ∧ t.keeper.fenced = true ∧ t.keeper.bootFrom = s.keeper.spare ∧ t.fd.aelkoReady = false ∧ t.on 28 = false ∧ t.on 29 = true ∧
     t.mram.running = none ∧ ∀ d : Nat, d < 36 → d ≠ 28 → d ≠ 29 → t.on d = s.on d) ∧
    (s.keeper.fenced = true → s.on 28 = true → exec .fenceHit s = .next (s.bumpPostCount pSpareCntFenceHits 494 2)) ∧
    (s.keeper.fenced = false ∨ s.on 28 = false → exec .fenceHit s = .next s) ∧
    (active → s.on 29 = true → s.power.poreset = false → s.Inv → (∃ t : State, exec .spareWatchdogExpiry s = .next t ∧ halts t) ∧
      ∃ t : State, exec .spareMemoryUncorrectable s = .next t ∧ halts t ∧ t.rd pMemCntOnchipUe = min (s.rd pMemCntOnchipUe + 1) 0xFFFFFFFF) ∧
    (¬active ∨ s.on 29 = false ∨ s.power.poreset = true → exec .spareWatchdogExpiry s = .next s ∧ exec .spareMemoryUncorrectable s = .next s) ∧
    (¬boots → exec (.spareBootComplete ok0 ok1) s = .next s) ∧
    (boots → ok0 = false → ok1 = false → exec (.spareBootComplete ok0 ok1) s = .next (let t := s.postLedger 492 2 3
      { t with keeper := { t.keeper with spare := .none } })) ∧
    (boots → (if bank = 0 then ok0 else ok1) = true → bootImageOk s.mram.bootImages[bank] = true → 4 ≤ s.fd.stage → s.Inv →
      (∀ k : Fin 8, s.fd.mb[k] = .busy → (s.keeper.inFlight[k]).isSome = true) → ∃ t : State, exec (.spareBootComplete ok0 ok1) s = .next t ∧
      t.fd.aelkoReady = true ∧ t.keeper.spare = s.keeper.spare ∧ t.keeper.switching = none ∧ t.rd pSpareCntFailovers = min (s.rd pSpareCntFailovers + 1) 0xFFFFFFFF ∧
      ∀ k : Fin 8, t.fd.mb[k] ≠ .busy ∧ t.keeper.transfers[k] = none) ∧
    (s.keeper.spare ≠ .handover ∨ s.on 28 = false ∨ s.power.poreset = true → exec .pairBootComplete s = .next s) ∧
    (s.keeper.spare = .handover → s.on 28 = true → s.power.poreset = false →
      (bootImageOk s.mram.bootImages[bank] = true → (∀ k : Fin 8, s.fd.mb[k] = .busy → (s.keeper.inFlight[k]).isSome = true) → ∃ t : State,
        exec .pairBootComplete s = .next t ∧ t.keeper.spare = .pair ∧ t.keeper.fenced = false ∧ t.fd.aelkoReady = true ∧ t.on 29 = false ∧ t.keeper.switching = none ∧
        t.fd.release = BitVec.ofNat 16 (imageAt s.mram.bootImages[bank] 4 2) ∧ ∀ k : Fin 8, t.fd.mb[k] ≠ .busy ∧ t.keeper.transfers[k] = none) ∧
      ((∀ k : Fin 2, bootImageOk s.mram.bootImages[k] = false) → exec .pairBootComplete s = .next (let t := s.postLedger 492 2 3
        { t with keeper := { t.keeper with spare := .none } }))) ∧
    (s.mram.buffer = [] →
      (s.mram.ring = pre ++ e :: post → start11 e → (∀ x ∈ pre, ¬start11 x) → s.replay = { s with keeper := { s.keeper with bootCount := e.object.toNat } }) ∧
      ((∀ x ∈ s.mram.ring, ¬start11 x) → s.replay = { s with keeper := { s.keeper with bootCount := ((s.mram.latest.map (fun k => k.bootCount)).getD s.keeper.bootCount) } })) ∧
    (s.aelkoRuns = true → due → free → exec .checkpointDue s = .next { s with
      mram := { s.mram with waiting := s.mram.waiting ++ [.checkpoint s.takeCheckpoint] }, keeper := { s.keeper with ckptAt := s.time.clock } }) ∧
    (s.aelkoRuns = false ∨ ¬due ∨ ¬free → exec .checkpointDue s = .next s) ∧
    (s.keeper.spare = .pair → s.aelkoRuns = true → passed →
      (s.throttled = true → exec .selftestPeriodExpiry s = .next { s with keeper := { s.keeper with selftestWaits := some (s.keeper.selftestWaits.getD false) } }) ∧
      (s.throttled = false → exec .selftestPeriodExpiry s = .next (s.startSelftest false))) ∧
    (s.keeper.spare ≠ .pair ∨ s.aelkoRuns = false ∨ ¬passed → exec .selftestPeriodExpiry s = .next s) ∧
    (s.keeper.spare ≠ .selftest → exec (.selftestComplete found micros temp corr) s = .next s) ∧
    (s.keeper.spare = .selftest → s.keeper.selftestRunning = some (byCommand, start) →
      let kept := ({ s with keeper := { s.keeper with
        report := some r, reportSeq := s.keeper.reportSeq + 1, spare := .pair, selftestRunning := none, selftestFailed := decide (failed ≠ 0), selftestMb := none } } : State)
      let told := if failed = 0 then kept.post 495 1 ((s.keeper.reportSeq + 1).toNat % 0x10000) else (kept.bump pSpareCntSelftestFail).post 495 2 failed.toNat
      let done := ({ told.spareOff with keeper := { told.spareOff.keeper with inFlight := told.spareOff.keeper.inFlight.set mb.val none } } : State)
      (s.keeper.selftestMb = none → exec (.selftestComplete found micros temp corr) s = .next told.spareOff) ∧
      (s.keeper.selftestMb = some mb → s.keeper.inFlight[mb] = some c → exec (.selftestComplete found micros temp corr) s = .next (if 200000 < micros.toNat then
        done.reply mb c.code c.tag .timeout 0 [] else done.reply mb c.code c.tag .ok 0 r.bytes)))) ∧
  (∀ s : State,
    let old := s.rd pPortDataPath
    let waits := s.rd pSpareDpAuto = 1 ∧ (s.ports[s.dataPort]).state ≠ .admitted ∧ s.rd pSpareDpHold * 1024000 ≤ s.time.clock - s.keeper.dpUpAt ∧
      s.power.poreset = false
    let recent := ∃ t : Nat, s.keeper.dpMovedAt = some t ∧ s.time.clock - t < 1024000000
    let moved := s.moveDataPath (1 - old)
    (¬waits → exec .dataPathHoldExpiry s = .next s) ∧
    (waits → (s.ports[s.otherPort]).state ≠ .standby → s.keeper.noStandby = true → exec .dataPathHoldExpiry s = .next s) ∧
    (waits → (s.ports[s.otherPort]).state ≠ .standby → s.keeper.noStandby = false → exec .dataPathHoldExpiry s = .next
      (({ s with keeper := { s.keeper with noStandby := true } } : State).postLedger 496 6 (s.ports[s.otherPort]).state.code)) ∧
    (waits → (s.ports[s.otherPort]).state = .standby → recent → ∃ n : Nat, exec .dataPathHoldExpiry s = .next (s.postLedger 496 5 n) ∧ n < 1000) ∧
    (waits → (s.ports[s.otherPort]).state = .standby → ¬recent →
      let t := ({ moved with keeper := { moved.keeper with dpMovedAt := some s.time.clock } } : State)
      exec .dataPathHoldExpiry s = .next ((t.ledgerLater (t.entry 0 6 0 2 old (1 - old) 0)).post 496 2 (1 - old))) ∧
    (s.Inv → old ≤ 1 → moved.rd pPortDataPath = 1 - old ∧ moved.keeper.noStandby = false ∧ moved.keeper.dpAwaits = true ∧ moved.porter.bookings = [] ∧ moved.porter.headWaybills = [] ∧
      ∀ p : Fin 18, 16 ≤ p.val → (moved.ports[p]).record = none))

/-! ### Power and thermal (spec/16) -/

/-- R254, R293, R303, R354–R356, R359, R360: reset keeps what MRAM, the fuses and external memory hold and puts every register at its reset value; its release
samples MAINT and begins the cold start; a fall of PWRGOOD cuts the batch in progress, and its lowness for 2 µs resets with code 2; crossings are reset and
resynchronise where both sides are on; a missing reference clock stops what needs it. Where a batch is cut (log entry 26), what a reset keeps of the strap
(50), the row of a missing clock (53) and which handshakes begin (11) are the model's. -/
def Obligations.ResetsAndColdStartTakeTheirSteps : Prop :=
  ∀ (s : State) (strap : Bool) (x y : Fin 51) (k : Fin 28) (m : Fin 4) (p : Fin 18) (e : LogEntry),
    let inReset := fun (t : State) (cause : Nat) => t.power.poreset = true ∧ t.power.cause = cause ∧ t.power.domains = 0 ∧ (∀ a : Nat, t.rd a = resetOf a) ∧
      t.time = TimeState.reset ∧ t.engines = State.reset.engines ∧ t.mem.data = s.mem.data ∧ t.fd.isSealed = s.fd.isSealed ∧ t.fd.uid = s.fd.uid ∧
      t.mram.ledger = s.mram.ledger ∧ t.fd.events = [] ∧ t.pending = s.pending
    let mine := fun (h : Nat × Nat) => h = (x.val, y.val) ∨ h = (y.val, x.val)
    let bank : Fin 2 := if s.mram.bootBank = 1 then 1 else 0
    let both := s.islandOn x.val = true ∧ s.islandOn y.val = true
    let low := ({ s with power := { s.power with pwrgood := false } } : State)
    (∃ t : State, exec .poresetAssert s = .next t ∧ inReset t 1 ∧ t.fd.strap = false) ∧
    (s.power.poreset = false ∨ s.power.lowLong = true → exec (.poresetRelease strap) s = .next s) ∧
    (s.power.poreset = true → s.power.lowLong = false → s.power.pwrgood = false → exec (.poresetRelease strap) s = .next { s with
      power := { s.power with lowLong := true }, fd := { s.fd with strap := strap } }) ∧
    (s.power.poreset = true → s.power.lowLong = false → s.power.pwrgood = true → s.keeper.spare ≠ .none →
      bootImageOk s.mram.bootImages[bank] = true → ∃ t : State, exec (.poresetRelease strap) s = .next t ∧
        t.power.poreset = false ∧ t.power.pairTesting = true ∧ t.fd.stage = 2 ∧ t.fd.strap = strap ∧ t.on 33 = true ∧ t.on 28 = true ∧
        (strap = true → s.fd.isSealed = false → ∀ j : Fin 2, t.fd.maint[j] = some ⟨true, none, 0⟩)) ∧
    (s.power.pairTesting = false → exec (.pairSelftestComplete strap) s = .next s) ∧
    (s.power.pairTesting = true →
      (∃ t : State, exec (.pairSelftestComplete true) s = .next t ∧ t.fd.aelkoReady = true ∧ 4 ≤ t.fd.stage ∧ t.power.pairTesting = false ∧
        (bootImageOk s.mram.bootImages[bank] = true → t.fd.release = BitVec.ofNat 16 (imageAt s.mram.bootImages[bank] 4 2))) ∧
      exec (.pairSelftestComplete false) s = .next ({ s with power := { s.power with pairTesting := false } } : State).fencePair) ∧
    (s.power.pwrgood = false → exec .pwrgoodFall s = .next s) ∧
    (s.power.pwrgood = true → s.power.poreset = true → exec .pwrgoodFall s = .next low) ∧
    (s.power.pwrgood = true → s.power.poreset = false → s.mram.running = none → exec .pwrgoodFall s = .next { low with power := { low.power with cutting := true } }) ∧
    (s.power.pwrgood = true → s.power.poreset = false → s.mram.running = some (.log e) → ∃ n : Nat, n < 4 ∧ exec .pwrgoodFall s = .next (({ low with
      free := s.free + 1, mram := { s.mram with running := none, waiting := .log e :: s.mram.waiting } } : State).post 492 1 n)) ∧
    (s.power.pwrgood = true ∨ s.power.poreset = true → exec .pwrgoodLowExpiry s = .next s) ∧
    (s.power.pwrgood = false → s.power.poreset = false → ∃ t : State, exec .pwrgoodLowExpiry s = .next t ∧ inReset t 2 ∧ t.power.lowLong = true ∧ t.fd.strap = s.fd.strap) ∧
    (s.power.pwrgood = true → exec .pwrgoodRise s = .next s) ∧
    (s.power.pwrgood = false → s.power.poreset = false ∨ s.power.lowLong = false → exec .pwrgoodRise s = .next { s with
      power := { s.power with pwrgood := true, cutting := false } }) ∧
    (s.power.pwrgood = false → s.power.poreset = true → s.power.lowLong = true → ∃ t : State, exec .pwrgoodRise s = .next t ∧ t.power.pwrgood = true ∧
      t.power.poreset = false ∧ t.on 33 = true ∧ t.on 28 = true ∧ t.fd.strap = s.fd.strap) ∧
    ((∀ h ∈ s.power.handshakes, ¬mine h) ∨ ¬both → exec (.resetDoneToken x y) s = .next s) ∧
    ((x.val, y.val) ∈ s.islandHandshakes x.val ↔ y ≠ x ∧ s.islandOn y.val = true ∧ (x.val ∈ [43, 44, 48] ∨ y.val ∈ [43, 44, 48])) ∧
    ((∃ h ∈ s.power.handshakes, mine h) → both → s.Inv → x ≠ y → ∃ t : State, exec (.resetDoneToken x y) s = .next t ∧ (∀ h ∈ t.power.handshakes, ¬mine h ∧ h ∈ s.power.handshakes) ∧
      t.rd pPwrCntResync = min (s.rd pPwrCntResync + 1) 0xFFFFFFFF ∧ t.rd (pPwrIStatus x.val) = s.rd (pPwrIStatus x.val) ||| 2 ∧
      t.rd (pPwrIStatus y.val) = s.rd (pPwrIStatus y.val) ||| 2) ∧
    (s.crossingLive k.val = false → exec (.wReset k) s = .next s) ∧
    (s.crossingLive k.val = true → exec (.wReset k) s = .next ((((crossingIslands k.val).2.foldl (fun t i => t.islandBit i 2) (s.crossingLost k.val)).bump pPwrCntWResets).post
      (islandSource (crossingIslands k.val).1) 3 k.val)) ∧
    (s.power.poreset = true ∨ s.lanes.refclk128 = false → exec (.refclkMissing false) s = .next s) ∧
    (s.power.poreset = true ∨ s.lanes.refclk125 = false → exec (.refclkMissing true) s = .next s) ∧
    (s.power.poreset = false → s.lanes.refclk128 = true → ∃ t : State, exec (.refclkMissing false) s = .next t ∧ t.lanes.refclk128 = false ∧
      (s.on (16 + m.val) = true → (s.mem.channels[m]).state ≠ .fault → (t.mem.channels[m]).state = .fault ∧ (t.mem.channels[m]).cause = 4) ∧
      (s.on (portDomain p) = true → s.inService p = true → s.basexPort p = false → (s.lanes.ports[p]).state ≠ .running → (t.lanes.ports[p]).state = .off) ∧
      ((s.lanes.ports[p]).state = .running → (t.lanes.ports[p]).state = .running)) ∧
    (s.power.poreset = false → s.lanes.refclk125 = true → ∃ t : State, exec (.refclkMissing true) s = .next t ∧ t.lanes.refclk125 = false ∧
      (s.on (portDomain p) = true → s.basexPort p = true → (t.lanes.ports[p]).state = .locking) ∧ (s.basexPort p = false → t.lanes.ports[p] = s.lanes.ports[p]))

/-- R388, R394, Table 18.7: in reset, and while its domain is off, every pin is in its resting state; ATTN_N is low while FD_ATTN and FD_ATTN_EN have a set bit
in common, and an input that is not selected, a DAC that is off and a reference output that its block does not drive yet are high-impedance; the pin of a
DISABLED channel keeps its failsafe bias alone; Table 18.7 gives the pins of a device without supply. -/
def Obligations.PinsRestInReset : Prop :=
  ∀ (s : State) (q : Pin) (n : Fin 32) (d : Fin 8) (ch : Fin 256) (o : Fin 4) (u : Fin 2),
    (∃ t : State, exec .poresetAssert s = .next t ∧ t.pin q = q.resting) ∧
    (s.power.poreset = true ∨ (∃ k : Nat, q.domain = some k ∧ s.on k = false) → s.pin q = q.resting) ∧
    (s.power.poreset = false → (s.pin .attnN = .low ↔ ∃ i : Fin 8, (BitVec.ofNat 8 s.fdAttn).getLsbD i.val = true ∧ s.fd.attnEn.getLsbD i.val = true)) ∧
    (n.val ≠ s.rd pPfeSelect % 32 → s.pin (.pfeAin n) = .highZ) ∧ (s.rd (pPfeDMode d.val) = 0 → s.pin (.biasDac d) = .highZ) ∧
    (s.power.poreset = false → s.on (tileOf ch).val = true → (s.pin (.hit ch) = .failsafe ↔ (s.chans[ch]).state = .disabled)) ∧
    (s.power.poreset = false → s.on 31 = true → (s.pin (.calout o) = .highZ ↔ (s.ref.calout[o]).driven = false) ∧
      (s.pin (.clkout u) = .highZ ↔ (s.ref.clkout[u]).driven = false) ∧ (s.pin .ppsout = .highZ ↔ s.ref.pps.driven = false)) ∧
    (∀ (c : Fin 256) (l : Fin 21) (m : Fin 4), (Pin.hit c).noSupply = .highZ ∧ (Pin.laneTx l).noSupply = .noDrive ∧ (Pin.laneRx l).noSupply = .unpowered ∧
      (Pin.memResetN m).noSupply = .noDrive ∧ Pin.attnN.noSupply = .released ∧ Pin.spiMiso.noSupply = .highZ) ∧
    (∀ (c : Fin 256) (l : Fin 21) (m : Fin 4), (Pin.hit c).resting = .failsafe ∧ (Pin.laneTx l).resting = .electricalIdle ∧ (Pin.laneRx l).resting = .terminated ∧
      (Pin.memResetN m).resting = .low ∧ (Pin.memOther m).resting = .highZ ∧ Pin.attnN.resting = .released ∧ Pin.spiMiso.resting = .highZ)

/-- R309, R310, R356, R367–R369: the hold-up sample and the capacitance test, which counts 100 nF for each µs; MRAM batches run one at a time, error log entries
ahead of others, where the energy for them is available; a shortage defers and counts them; a batch that the fall of PWRGOOD cuts does not complete, and
leaves its ledger slot failing its check. Where a batch is cut (log entry 26) and the size of a checkpoint's batch (25) are the model's. R44, R361–R366: a
sample enters its sensor's block, and keeps it at 16 kHz where it is near a limit; 16 samples that deviate from both neighbours break a sensor, 16 rounds at
T_CRIT make the state CRITICAL, whose domains switch off at the disarming milestone, and the TAC trim moves one LSB at most; the 16 ms update ends the
blocks, gives the rates and the thermal state of Table 16.6, and sets the timebase's correction. What CRITICAL does to an arming or disarming that is
pending (log entry 79), the updates of 1 s (82), and the samples of a round and of 256 ms at 16 kHz (84) are the model's. -/
def Obligations.HoldUpAndSensorsGuardTheDevice : Prop :=
  (∀ (s : State) (v fall n : Nat) (e : LogEntry) (c : Checkpoint) (le : LedgerEntry),
    let declared := s.rd pPwrHoldCap
    let measured := if 100000 < fall then declared else 100 * fall
    let tested := ({ s with power := { s.power with cMeas := some measured, testRunning := false, testEnded := true } } : State)
    let vm := 1000 * s.rd pPwrHoldVmin
    let cap := match s.power.cMeas with
      | some x => min (s.rd pPwrHoldCap) x
      | none => s.rd pPwrHoldCap
    (s.power.poreset = true → exec (.holdSample v) s = .next s) ∧
    (s.power.poreset = false → exec (.holdSample v) s = .next { s with power := { s.power with hold := v, testRunning := s.power.testRunning ||
      (!s.power.testEnded && decide (1000 * (s.rd pPwrHoldVmin + 1000) ≤ v)) } }) ∧
    (s.power.testRunning = false → exec (.capacitanceTestEnd fall) s = .next s) ∧
    (s.power.testRunning = true → 8 * declared ≤ 10 * measured → exec (.capacitanceTestEnd fall) s = .next tested) ∧
    (s.power.testRunning = true → 10 * measured < 8 * declared → exec (.capacitanceTestEnd fall) s = .next (tested.postLedger 491 3 (Nat.min (measured / 1000) 0xFFFF))) ∧
    (s.energyOk n = true ↔ s.rd pPwrHoldMargin * s.rd pPwrHoldPower * (10000 + 50 * n) * 2000000000 ≤
      if s.power.hold ≤ vm then 0 else cap * (s.power.hold * s.power.hold - vm * vm)) ∧
    (s.power.testEnded = true → s.power.pwrgood = true → s.on 33 = true →
      (s.energyOk n = true → s.power.short = false → s.power.cutting = false → s.tryBatch n = (true, s)) ∧
      (s.energyOk n = false → s.power.short = true → s.tryBatch n = (false, s.bump pPwrCntDeferred)) ∧
      (s.energyOk n = false → s.power.short = false → (s.tryBatch n).1 = false ∧ (s.tryBatch n).2.power = { s.power with short := true })) ∧
    (s.power.testEnded = true → s.on 33 = true → s.power.cutting = true → s.power.short = false → 0 < n →
      (s.energyOk n = true → ∃ k : Nat, k < n ∧ s.tryBatch n = (false, ({ s with power := { s.power with cutting := false }, free := s.free + 1 } : State).post 492 1 k)) ∧
      (s.energyOk 4 = true → ∃ t : State, s.commitNow le = (false, t) ∧ t.mram.ledgerHead = s.mram.ledgerHead ∧ { t with mram := s.mram } = (s.tryBatch 4).2 ∧
        (t.mram = s.mram ∨ t.mram = { s.mram with ledger := s.mram.putEntry { le with crcOk := false } }))) ∧
    (s.power.testEnded = false → s.tryBatch n = (false, s)) ∧
    (s.aelkoRuns = false ∨ s.mram.running.isSome = true → exec .mramBatchStart s = .next s) ∧
    (s.aelkoRuns = true → s.mram.running = none → s.mram.buffer ≠ [] → exec .mramBatchStart s = exec .ledgerCommit s) ∧
    (s.aelkoRuns = true → s.mram.running = none → s.mram.buffer = [] → s.mram.waiting = [] → exec .mramBatchStart s = .next s) ∧
    (s.aelkoRuns = true → s.mram.running = none → s.mram.buffer = [] → s.mram.waiting = [.checkpoint c, .log e] →
      (s.Affords 4 → exec .mramBatchStart s = .next { s with mram := { s.mram with running := some (.log e), waiting := [.checkpoint c] } }) ∧
      (s.power.testEnded = false → exec .mramBatchStart s = .next s)) ∧
    (s.aelkoRuns = true → s.mram.running = none → s.mram.buffer = [] → s.mram.waiting = [.checkpoint c] → s.power.testEnded = false →
      exec .mramBatchStart s = .next { s with mram := { s.mram with waiting := [] } }) ∧
    (s.mram.running = none → exec .mramBatchEnd s = .next s) ∧
    (s.mram.running = some (.log e) → exec .mramBatchEnd s = .next { s with mram := { s.mram with
      running := none, log := (e :: s.mram.log).take 8192, logBuffer := s.mram.logBuffer.erase e } }) ∧
    (s.mram.running = some (.checkpoint c) → exec .mramBatchEnd s = .next (({ s with mram := { s.mram with running := none } } : State).storeCheckpoint c))) ∧
  (∀ (s : State) (n : Fin 17) (k : Fin 16) (reading : Int) (c w : DWord),
    let x := s.therm.sensors[n]
    let T := s.hottest.1
    let R := s.fastest.1
    let hot := s.limit pThermTThrottle ≤ T ∨ (s.rd pThermRThrottle : Int) * 65536 ≤ R * 1000
    let warm := s.limit pThermTWarn ≤ T ∨ (s.rd pThermRWarn : Int) * 65536 ≤ R * 1000
    let one : BitVec 17 := 1#17 <<< n.val
    let sampled := { x with reading := reading, sum := x.sum + reading, samples := x.samples + 1 }
    let trimmed := s.trimStep k
    (s.power.poreset = true ∨ s.fd.stage = 0 → exec (.sensorSample n reading) s = .next s ∧ exec .rateUpdate s = .next s) ∧
    (s.power.poreset = false → s.fd.stage ≠ 0 → ∃ t : State, exec (.sensorSample n reading) s = .next t ∧
      { t.therm.sensors[n] with broken := x.broken, deviating := x.deviating, fast := x.fast } = sampled ∧ ∀ j : Fin 17, j ≠ n → t.therm.sensors[j] = s.therm.sensors[j]) ∧
    (x.broken = false → s.deviates n = false → (s.checkBroken n).therm.sensors[n] = { x with deviating := 0 }) ∧
    (x.broken = false → s.deviates n = true → x.deviating < 15 → (s.checkBroken n).therm.sensors[n] = { x with deviating := x.deviating + 1 }) ∧
    (x.broken = false → s.deviates n = true → 15 ≤ x.deviating → (∀ j : Fin 17, (s.therm.sensors[j]).broken = false) →
      (s.checkBroken n).therm.sensors[n] = { x with broken := true, deviating := 0 }) ∧
    (s.power.poreset = false → s.fd.stage ≠ 0 → ∃ t : State, exec (.sensorSample n reading) s = .next t ∧
      ((t.therm.sensors[n]).broken = false → s.limit pThermTWarn - 80 ≤ reading ∨ s.limit pThermTThrottle - 80 ≤ reading ∨ s.limit pThermTCrit - 80 ≤ reading →
        (t.therm.sensors[n]).fast = 4096) ∧
      (x.broken = true → (t.therm.sensors[n]).fast = x.fast - 1)) ∧
    (T < s.limit pThermTCrit → s.critSample n = { s with therm := { s.therm with critRun := 0, critSeen := 0 } }) ∧
    (s.limit pThermTCrit ≤ T → s.therm.critRun ≠ 0 → s.therm.critSeen.getLsbD n.val = false →
      s.critSample n = { s with therm := { s.therm with critSeen := s.therm.critSeen ||| one } }) ∧
    (s.limit pThermTCrit ≤ T → s.therm.critRun = 0 ∨ s.therm.critSeen.getLsbD n.val = true → s.therm.critRun < 15 →
      s.critSample n = { s with therm := { s.therm with critRun := s.therm.critRun + 1, critSeen := one } }) ∧
    (s.acq.criticalOff = none → s.criticalOffAt w = s) ∧
    (s.acq.criticalOff = some c →
      ((w - c).toInt < 0 → s.criticalOffAt w = s) ∧
      (0 ≤ (w - c).toInt → (s.criticalOffAt w).acq.criticalOff = none ∧ ∀ d : Nat, d < 36 → (s.criticalOffAt w).on d = (s.on d && !criticalDomains.contains d))) ∧
    (s.limit pThermTCrit ≤ T → s.therm.critSeen.getLsbD n.val = true → 15 ≤ s.therm.critRun → s.therm.state ≠ .critical → (s.critSample n).therm.state = .critical ∧
      (s.on 30 = true → (s.critSample n).acq.criticalOff = some (if s.acq.state = .disarmPending then s.acq.disarmTick else milestoneAt (s.time.tick + 1)) ∧
        (s.acq.state = .armed → (s.critSample n).acq.state = .disarmPending ∧ (s.critSample n).acq.disarmTick = milestoneAt (s.time.tick + 1)) ∧
        (s.acq.state ≠ .armed → (s.critSample n).acq.state = s.acq.state ∧ (s.critSample n).acq.armTick = s.acq.armTick))) ∧
    (s.Inv → trimmed.rd (pTileTemp k.val) = unsigned 16 (s.sensorTemp ⟨k.val, by omega⟩)) ∧
    (s.Inv → s.rd (pTileTrimEn k.val) = 1 → s.rd (pTileTacTrim k.val) ≤ 1023 → trimmed.rd (pTileTacTrim k.val) ≤ 1023 ∧
      trimmed.rd (pTileTacTrim k.val) ≤ s.rd (pTileTacTrim k.val) + 1 ∧ s.rd (pTileTacTrim k.val) ≤ trimmed.rd (pTileTacTrim k.val) + 1) ∧
    (s.power.poreset = false → s.fd.stage ≠ 0 → ∃ t : State, exec .rateUpdate s = .next t ∧
      (let y := t.therm.sensors[n]
       y.samples = 0 ∧ y.reading = x.reading ∧ y.broken = x.broken ∧
       (0 < x.samples → y.sum = 0 ∧ y.means = (x.sum * 256 / x.samples :: x.means).take 16 ∧
         y.rate = (match x.means[15]? with
           | some old => x.sum * 256 / x.samples - old
           | none => 0))) ∧
      (t.on 30 = true → t.time.correction = t.therm.corr)) ∧
    (s.therm.state = .normal → s.thermNext = if hot then .throttle else if warm then .warn else .normal) ∧
    (s.therm.state = .warn → s.thermNext = if hot then .throttle else if 64 ≤ s.therm.calm then .normal else .warn) ∧
    (s.therm.state = .throttle → s.thermNext = if 64 ≤ s.therm.calm then .warn else .throttle) ∧
    (s.therm.state = .critical → s.thermNext = if T < s.limit pThermTCrit - 160 then .throttle else .critical))

/-! ### The precision front end (spec/17) -/

/-- R372, R374–R379, R381, R382, R384, R385: a word that ends during a conversion writes its result with SETTLED, OPEN and OVR; burnout tests, which find an
input above +1.0 V open, delays and excitation trips settle the input again; a DAC in mode 2 follows each new temperature once, by at most its step and
within its limits; coefficients load from records that pass their CRC-32C. When a burnout test begins while the other modulator has a word in progress, and
what a delay leaves of a trip, are the model's (log entry 84). -/
def Obligations.ConversionsExcitationsAndDacsAct : Prop :=
  ∀ (s : State) (u : Int) (excB : Bool) (d : Fin 8) (num den : Int) (i : Fin 32) (cs : List Word),
    let n := s.pfeSelected
    let pfe := fun (q : Pfe) => ({ s with pfe := q } : State)
    let exact := pfeExact u (s.rd (pPfeIGain n.val))
    let value := clamp (-8388608) 8388607 exact
    let isOpen := s.pfeOpen n || decide (0 < s.pfe.openWords)
    let ovr := decide (exact ≠ value)
    let settled : Bool := decide (s.pfe.unsettled = 0) && !s.pfe.delay && !isOpen
    let stopped := s.pfe.delay = true ∧ s.pfe.delayStops = true
    let runs := s.on 32 = true ∧ s.rd pPfeMode ≠ 0 ∧ s.pfe.testing = false ∧ ¬stopped
    let inter := s.rd pPfeInterleave
    let burnout := s.rd (pPfeIBurnout n.val)
    let tests := s.rd (pPfeIExc n.val) = 0 ∧ burnout ≠ 0
    let next := ({ s.pfe with
      modulator := inter == 1 && !s.pfe.modulator, openWords := s.pfe.openWords - 1, unsettled := if s.pfe.delay then s.pfe.unsettled else s.pfe.unsettled - 1 } : Pfe)
    let above := decide (1000000000000 < u)
    let tinput := s.rd (pPfeDTinput d.val)
    let tripped := if excB then s.pfe.tripB else s.pfe.tripA
    let words := if s.rd pPfeMode ≠ 0 ∧ s.pfe.testing = false ∧ ¬stopped then 1 + s.rd pPfeInterleave else s.pfe.openWords
    let held := fun (b : Bool) => { s.pfe with tripA := if excB then s.pfe.tripA else b, tripB := if excB then b else s.pfe.tripB }
    let tested := ({ s with pfe := { s.pfe with testing := false, inputs := s.pfe.inputs.set n.val { (s.pfe.inputs[n]) with isOpen := above, count := (s.pfe.inputs[n]).count - burnout } } } : State)
    let judged := if above = true ∧ (s.pfe.inputs[n]).isOpen = false then (tested.bump pPfeCntOpen).post 458 1 n.val
      else if (s.pfe.inputs[n]).isOpen = true ∧ above = false then tested.post 458 2 n.val else tested
    let code := s.rd (pPfeDCode d.val)
    let step := s.dacStep d num den
    (¬runs → exec (.pfeWordEnd u) s = .next s) ∧
    (runs → s.pfe.converting = false → ¬(tests ∧ s.pfe.testDue = true) → exec (.pfeWordEnd u) s = .next (pfe next)) ∧
    (runs → s.pfe.converting = false → tests → s.pfe.testDue = true → exec (.pfeWordEnd u) s = .next (pfe { next with testing := true, testDue := false })) ∧
    (runs → s.pfe.converting = true → s.rd pPfeMode = 2 → burnout = 0 → s.streaming = false → s.Inv → ∃ t : State, exec (.pfeWordEnd u) s = .next t ∧
      t.pfe.result = BitVec.ofNat 32 (bit settled * 2 ^ 31 + bit isOpen * 2 ^ 30 + bit ovr * 2 ^ 29 + n.val * 2 ^ 24 + unsigned 24 value) ∧
      t.pfe.tick = s.time.tick ∧ t.pfe.unread = true ∧ t.pfe.overrun = (s.pfe.overrun || s.pfe.unread) ∧ t.pfe.unsettled = next.unsettled ∧ t.pfe.openWords = next.openWords ∧
      t.pfe.modulator = next.modulator ∧ t.pfe.eng = engineering (s.pfe.inputs[n]).coefs (pfeVolts value (s.rd (pPfeIGain n.val))) (s.pfeTemp n) ∧ t.pfe.converting = true ∧
      (t.pfe.dacs[d]).due = ((s.pfe.dacs[d]).due || (settled && !ovr && decide (tinput = n.val))) ∧
      t.rd pPfeCntResults = min (s.rd pPfeCntResults + 1) 0xFFFFFFFF ∧ { t with pfe := s.pfe, params := s.params, fd := s.fd, fresh := s.fresh } = s) ∧
    (runs → s.Inv → s.pfe.converting = true → s.rd pPfeMode = 1 → burnout = 0 → s.streaming = false → ∃ t : State, exec (.pfeWordEnd u) s = .next t ∧
      (t.pfe.converting = false ↔ s.rd pPfeWords ≤ s.pfe.settled + bit settled ∨ isOpen = true)) ∧
    (runs → s.Inv → s.pfe.converting = true → tests → burnout ≤ (s.pfe.inputs[n]).count + 1 → s.streaming = false → ∃ t : State, exec (.pfeWordEnd u) s = .next t ∧
      (t.pfe.testing = true ↔ s.pfe.testDue = true ∨ inter = 0) ∧ (t.pfe.testDue = true ↔ s.pfe.testDue = false ∧ inter ≠ 0)) ∧
    (s.on 32 = false ∨ s.pfe.testing = false → exec (.burnoutTestEnd u) s = .next s) ∧
    (s.on 32 = true → s.pfe.testing = true → exec (.burnoutTestEnd u) s = .next (let t := judged.pfeChange (judged.rd (pPfeISettle n.val)) true
      if s.rd pPfeMode = 3 then t.pfeAfter 0 else t)) ∧
    (s.on 32 = false ∨ s.pfe.delay = false → exec .pfeDelayEnd s = .next s) ∧
    (s.on 32 = true → s.pfe.delay = true → exec .pfeDelayEnd s = .next (pfe { s.pfe with
      delay := false, delayStops := false, unsettled := s.rd pPfeOrder * (1 + s.rd pPfeInterleave), modulator := false })) ∧
    (s.on 32 = false ∨ tripped = true ∨ s.pfeDrives excB = false → exec (.excitationTrip excB) s = .next s) ∧
    (s.on 32 = true → tripped = false → s.pfeDrives excB = true → exec (.excitationTrip excB) s = .next ((((pfe { held true with openWords := words }).bump pPfeCntOpen).post (if excB then 461 else 460) 1
      (if excB ∨ s.rd pPfeExcAMode = 1 then 1 else 2)).post 458 1 (n.val + 256))) ∧
    (s.on 32 = false ∨ tripped = false → exec (.excitationRelease excB) s = .next s) ∧
    (s.Inv → s.on 32 = true → tripped = true → exec (.excitationRelease excB) s = .next (let t := (pfe (held false)).post 458 2 n.val
      if s.pfeUses n excB then t.pfeExcChange else t)) ∧
    (s.on 32 = false ∨ s.rd (pPfeDMode d.val) ≠ 2 ∨ s.aelkoRuns = false ∨ s.dacTemp d = none ∨ s.dacDue d = false → exec (.dacLoopUpdate d) s = .next s) ∧
    (s.on 32 = true → s.rd (pPfeDMode d.val) = 2 → s.aelkoRuns = true → s.dacTemp d = some (num, den) → s.dacDue d = true → exec (.dacLoopUpdate d) s = .next step) ∧
    (s.dacDue d = true ↔ (tinput < 32 ∧ (s.pfe.dacs[d]).due = true) ∨ (32 ≤ tinput ∧ (s.pfe.dacs[d]).lastTemp + 1024000 ≤ s.time.clock)) ∧
    (let x := step.pfe.dacs[d]
     x.due = false ∧ x.hold = false ∧ x.lastTemp = s.time.clock) ∧
    (let t := s.blockOn 32
     ((t.pfe.inputs[i]).valid = true ↔ (s.coefsOf i.val).isSome = true) ∧ (s.coefsOf i.val = some cs → (t.pfe.inputs[i]).coefs = cs)) ∧
    (sfind i.val s.mram.coefs = none → s.coefsOf i.val = none) ∧
    (sfind i.val s.mram.coefs = some (coefRecord cs) → cs.length = 12 → s.coefsOf i.val = some cs) ∧
    (s.pfeStatus / 2 % 2 = 1 ↔ s.pfe.delay = true ∨ s.pfe.testing = true) ∧
    (s.Inv → s.rd (pPfeDMin d.val) ≤ s.rd (pPfeDMax d.val) → s.rd (pPfeDMin d.val) ≤ step.rd (pPfeDCode d.val) ∧ step.rd (pPfeDCode d.val) ≤ s.rd (pPfeDMax d.val) ∧
      (s.rd (pPfeDMin d.val) ≤ code → code ≤ s.rd (pPfeDMax d.val) →
        step.rd (pPfeDCode d.val) ≤ code + s.rd (pPfeDStep d.val) ∧ code ≤ step.rd (pPfeDCode d.val) + s.rd (pPfeDStep d.val))) ∧
    (s.on 32 = true → s.rd (pPfeDMode d.val) = 2 → (s.pfe.dacs[d]).hold = false → (s.pfe.dacs[d]).lastTemp + 10240000000 ≤ s.time.clock →
      exec (.dacTemperatureTimeout d) s = .next (((pfe { s.pfe with dacs := s.pfe.dacs.set d.val { (s.pfe.dacs[d]) with hold := true } }).post 463 2 d.val).ledgerEvent
        1 463 2 d.val)) ∧
    (s.on 32 = false ∨ s.rd (pPfeDMode d.val) ≠ 2 ∨ (s.pfe.dacs[d]).hold = true ∨ s.time.clock < (s.pfe.dacs[d]).lastTemp + 10240000000 →
      exec (.dacTemperatureTimeout d) s = .next s)

/-! ### Parameter writes -/

/-- Writes to CHAN items (R49, R51, R53): an accepted write enters the ledger before it acts; a setting is applied with a blank, READMIT ends a quarantine. What
a blank does to a RUNNING channel of a device that is not armed (R49): BLANKED for 2,048 ticks with the new settings in force. What READMIT, the enabling
and the disabling of a channel do (R48, R49, R51, R53) while it has no open hit: a readmitted or enabled channel takes the settings as written and is
BLANKED for 2,048 ticks; an enabled one that is QUARANTINED or CALIBRATING keeps them stored; a disabled one loses its blank, its calibration and its open
hit. Writes to ENG items (R123): an engine starts at ENG.ENTRY with an empty queue and cleared registers, stops at once, and ENG.PRIV is stored. Writes to
TIME, CMP, PORT, LANE and MEM items (R91, R93, R94, R210, R233, R237, R252, R261, R270). What writes to TIME, CMP, PORT, LANE and MEM items do beside being
stored (R87, R93, R94, R210, R237, R260, R261, R270): the servo enters MASTER at once; the array host's D_ASYM clears PATH_CHANGED, and a change counts
towards no jump; a unit is readmitted; a port is enabled, disabled and brought up again; the memory channels train under the settings as written. -/
def Obligations.ChannelEngineAndPathWritesTakeEffect : Prop :=
  (∀ (s : State) (o : Origin) (ch : Fin 256) (v : Word),
    let k := ch.val
    s.WritesTo (.chanReadmit o ch) o (pChanReadmit k) 1 (fun t => t.readmit ch 2) ∧
    s.WritesTo (.chanConfigWrite o ch .thresh v) o (pChanThresh k) v.toNat (fun t => (t.wr (pChanThresh k) v.toNat).configChan ch) ∧
    s.WritesTo (.chanConfigWrite o ch .hyst v) o (pChanHyst k) v.toNat (fun t => (t.wr (pChanHyst k) v.toNat).configChan ch) ∧
    s.WritesTo (.chanConfigWrite o ch .polarity v) o (pChanPolarity k) v.toNat (fun t => (t.wr (pChanPolarity k) v.toNat).configChan ch) ∧
    s.WritesTo (.chanConfigWrite o ch .term v) o (pChanTerm k) v.toNat (fun t => (t.wr (pChanTerm k) v.toNat).configChan ch) ∧
    (∀ digital : Bool, s.WritesTo (.chanModeEnable o ch digital) o (pChanMode k) (if digital then 2 else 1)
      (fun t => (t.wr (pChanMode k) (if digital then 2 else 1)).enableChan ch)) ∧
    s.WritesTo (.chanModeDisable o ch) o (pChanMode k) 0 (fun t => (t.wr (pChanMode k) 0).disableChan ch)) ∧
  (∀ (s : State) (ch : Fin 256),
    let c := s.chans[ch]
    let t := s.configChan ch
    (c.state = .running → s.streaming = false → (∀ h ∈ c.entries, h.status ≠ .openHit) →
      (t.chans[ch]).state = .blanked ∧ (t.chans[ch]).front = s.frontOf ch ∧ (t.chans[ch]).blank = some ⟨s.time.clock + 2048, false, 0⟩ ∧
      (t.chans[ch]).entries = c.entries ∧ (∀ k : Fin 256, k ≠ ch → t.chans[k] = s.chans[k]) ∧ { t with chans := s.chans, red := s.red } = s) ∧
    (c.state = .disabled ∨ c.state = .quarantined ∨ c.state = .calibrating → t = s)) ∧
  (∀ (s : State) (ch k : Fin 256) (how : Nat),
    let c := s.chans[ch]
    let idle := s.streaming = false ∧ c.hasOpen = false
    let blanks := fun (t : State) => let x := t.chans[ch]
      x.state = .blanked ∧ x.front = s.frontOf ch ∧ x.blank = some ⟨s.time.clock + 2048, false, 0⟩ ∧ x.entries = c.entries ∧ (k ≠ ch → t.chans[k] = s.chans[k])
    let r := s.readmit ch how
    let e := s.enableChan ch
    let d := s.disableChan ch
    (c.state = .quarantined → idle → blanks r ∧ { r with chans := s.chans, red := s.red } = s.post ch.val 3 how) ∧
    (c.state = .quarantined → c.hasOpen = false → (r.chans[ch]).state = .blanked ∧ (r.chans[ch]).blank = some ⟨s.time.clock + 2048, s.streaming, 0⟩) ∧
    (c.state = .quarantined ∨ c.state = .calibrating → e = s) ∧
    (c.state = .disabled ∨ c.state = .running ∨ c.state = .waitInactive → idle → blanks e ∧ { e with chans := s.chans, red := s.red } = s) ∧
    (c.state = .blanked → (e.chans[ch]).blank = some { (c.blank.getD ⟨0, false, 0⟩) with ends := s.time.clock + 2048 } ∧ (e.chans[ch]).front = s.frontOf ch ∧
      { e with chans := s.chans } = s) ∧
    (let x := d.chans[ch]
     x.state = .disabled ∧ x.blank = none ∧ x.blind = none ∧ x.calStart = none ∧ x.calOutcome = none ∧ x.level = false ∧ x.front = s.frontOf ch ∧ x.hasOpen = false) ∧
    (s.streaming = false → (k ≠ ch → d.chans[k] = s.chans[k]) ∧
      { d with chans := s.chans, red := s.red } = if c.state = .calibrating then s.post ch.val 5 7 else s)) ∧
  (∀ (s : State) (o : Origin) (e : Fin 128) (v : Word),
    let x := s.engines[e]
    let refused := fun (r : Origin) (object tag : Nat) =>
      (s.commitEntry (s.entry r.code 13 (writeCommand r) object r.code 2 tag)).bumpPost pLedgerCntDenied 506 3 r.code
    s.WritesTo (.engStart o e) o (pEngRun e.val) 1 (fun t => t.setEng e { x with
      state := .running, queue := [], v := Vector.replicate 16 0, h0 := 0, h1 := 0, flags := 0, watchdog := 0, restarts := 0
      pc := BitVec.ofNat 11 (s.rd (pEngEntry e.val)), loaded := .none, ready := s.therm.cycles }) ∧
    ((x.state = .running ∨ x.state = .sleeping ∨ x.state = .waiting) →
      s.WritesTo (.engStop o e) o (pEngRun e.val) 2 (fun t => t.setEng e { x with state := .stopped, queue := [], loaded := .none })) ∧
    ((x.state = .stopped ∨ x.state = .halted ∨ x.state = .trapped) → s.WritesTo (.engStop o e) o (pEngRun e.val) 2 (fun t => t)) ∧
    s.WritesTo (.engPrivWrite o e v) o (pEngPriv e.val) v.toNat (fun t => t.wr (pEngPriv e.val) v.toNat) ∧
    (s.aelkoFree = true → s.addressOk (pEngPriv e.val) = true →
      s.Affords 4 → exec (.engPrivWrite .aelko e v) s = .next { (refused .aelko (pEngPriv e.val) 0) with lastStatus := .denied })) ∧
  (∀ (s : State) (o : Origin) (d : Fin 2) (u : Fin 4) (p : Fin 18) (lane : Fin 21) (v : Word) (spare master : Bool),
    let b := fun (x : Bool) => if x then 1 else 0
    s.WritesTo (.timeSourceWrite o master) o pTimeSource (b master) (fun t => (t.wr pTimeSource (b master)).sourceWritten master) ∧
    s.WritesTo (.dAsymWrite o d v) o (pTimeDAsym d.val) v.toNat
      (fun t => (t.wr (pTimeDAsym d.val) v.toNat).asymWritten d (signed 32 (s.rd (pTimeDAsym d.val))) v.toInt (hostOrigin o) 2) ∧
    s.WritesTo (.uReadmit o u) o (pCmpUReadmit u.val) 1 (fun t => (t.unitReadmit u o).2) ∧
    s.WritesTo (.portEnable o p) o (pPortPEnable p.val) 1 (fun t => t.enablePort p) ∧
    (s.rd (pPortPEnable p.val) = 1 → s.WritesTo (.portDisable o p) o (pPortPEnable p.val) 0 (fun t => t.disablePort p)) ∧
    (s.rd (pPortPEnable p.val) ≠ 1 → s.WritesTo (.portDisable o p) o (pPortPEnable p.val) 0 (fun t => t)) ∧
    (s.rd pPortDataPath ≠ b spare → s.WritesTo (.dataPathWrite o spare) o pPortDataPath (b spare) (fun t => t.moveDataPath (b spare))) ∧
    (s.rd pPortDataPath = b spare → s.WritesTo (.dataPathWrite o spare) o pPortDataPath (b spare) (fun t => t.sendRoles)) ∧
    (s.portOfLane lane = some p → s.WritesTo (.laneRetrain o lane) o (pLaneRetrain lane.val) 1 (fun t => t.retrainPort p)) ∧
    s.WritesTo (.memRetrain o) o pMemRetrain 1 (fun t => t.retrainMem.2)) ∧
  (∀ (s : State) (d other : Fin 2) (u w : Fin 4) (o : Origin) (p : Fin 18) (m : Fin 4) (old new : Int) (host : Bool) (how : Nat),
    let x := s.time.domains[d]
    let shifted := { x with asymShift := x.asymShift + new - old }
    let a := s.asymWritten d old new host how
    let y := s.comp.units[u]
    let unit := fun (z : CompUnit) => ({ s with comp := { s.comp with units := s.comp.units.set u.val z } } : State)
    let r := (s.unitReadmit u o).2
    let lane := (s.lanes.ports[p]).state
    let q := s.ports[p]
    let enabled := let t := s.wr (pPortPEnable p.val) 1
      ({ t with ports := t.ports.set p.val { q with state := if q.state = .disabled then .down else q.state } } : State)
    let off := s.disablePort p
    let c := s.mem.channels[m]
    let t := s.retrainMem.2
    (s.time.servo ≠ .master → s.sourceWritten false = s) ∧
    (s.time.servo = .master → (s.sourceWritten false).time.servo = .freerun ∧ (s.sourceWritten false).time.tick = s.time.tick ∧
      (s.sourceWritten false).time.rate = s.time.rate) ∧
    (let b := (s.sourceWritten true).time
     b.servo = .master ∧ b.firstStep = none ∧ b.bothJumped = false ∧ b.tick = s.time.tick ∧ b.rate = s.time.rate ∧ (s.time.servo = .holdover → b.holdStart = none)) ∧
    (x.pathChanged = false ∨ host = false → a = { s with time := { s.time with domains := s.time.domains.set d.val shifted } }) ∧
    (x.pathChanged = true → host = true → other ≠ d → a.time.domains[other] = s.time.domains[other] ∧ (let z := a.time.domains[d]
      z.pathChanged = false ∧ z.proposalValid = false ∧ z.collecting = none ∧ z.pathRun = [] ∧ z.mpd = x.pathRef.getD x.mpd ∧ z.asymShift = shifted.asymShift)) ∧
    (hostOrigin o = false → s.unitReadmit u o = (.denied, s)) ∧
    (hostOrigin o = true → y.state ≠ .quarantined → r = unit { y with mismatches := 0 }) ∧
    (hostOrigin o = true → y.state = .quarantined →
      (w ≠ u → (s.comp.units[w]).state ≠ .quarantined → r = (unit ⟨.idle, 0⟩).post (404 + u.val) 3 o.code) ∧
      ((∀ k : Fin 4, (s.comp.units[k]).state = .quarantined) → s.on 21 = true → r = ((unit ⟨.idle, 0⟩).post (404 + u.val) 3 o.code).post 410 2 (2 ^ u.val))) ∧
    (p.val < 16 →
      (lane ≠ .idle → lane ≠ .sleep → s.enablePort p = enabled) ∧
      (lane = .idle ∨ lane = .sleep → s.enablePort p = (enabled.post (laneSource (portLane p)) 8 3).startBringup p)) ∧
    (16 ≤ p.val → lane = .running → s.linked p = false → s.mram.incarnation ≠ 0 → s.incarnationWaits = false → s.Inv →
      ((s.enablePort p).ports[p]).state = .admitting ∧ ((s.enablePort p).ports[p]).inc = s.mram.incarnation) ∧
    (s.Inv → off.rd (pPortPEnable p.val) = 0 ∧ (off.ports[p]).state = .disabled) ∧
    (s.linked p = false → (off.ports[p]).tx = []) ∧
    (s.Inv → s.linked p = false → s.on (portDomain p) = true → s.inService p = true → lane ≠ .off →
      (s.rd (pLaneLowpower (portLane p)) = 1 → (off.lanes.ports[p]).state = .idle) ∧ (s.rd (pLaneLowpower (portLane p)) = 2 → (off.lanes.ports[p]).state = .sleep)) ∧
    (∀ l : Fin 21, l.val = portLane p →
      (lane = .running → s.retrainPort p = s.loseLock p l 5) ∧ (lane = .basex → s.retrainPort p = s.loseSync p l 5)) ∧
    (lane = .idle ∨ lane = .sleep → s.retrainPort p = (s.post (laneSource (portLane p)) 8 3).startBringup p) ∧
    (lane ≠ .running → lane ≠ .basex → lane ≠ .idle → lane ≠ .sleep → s.retrainPort p = s.startBringup p) ∧
    (s.streaming = false → s.lanes.refclk128 = true →
      (s.on (16 + m.val) = true → t.mem.channels[m] = { c with
        state := .training, cause := 0, freq := s.rd pMemFreq, density := s.rd pMemDensity, ap := s.rd pMemApEn, dinv := s.rd pMemDinv }) ∧
      (s.on (16 + m.val) = false → t.mem.channels[m] = c) ∧ t.mem.data = s.mem.data ∧ { t with mem := s.mem } = s))

/-- Writes to REFIN items (R60, R61, R67–R71). What a write does to a gate that awaits its result and to a staged offset is the model's (log entry 75). Writes
to THERM, PWR and PFE items (R362, R368, R376, R379). What writes to REFIN, THERM and PFE items do beside being stored (R60–R62, R362, R376, R379): a gate
begins anew, a stamper's recalibration starts, a sensor is readmitted; a mode ends and begins conversions, an input is selected with the words in progress
completed unsettled, and its delay and settling begin. Every write row stores, with its entry in the ledger, or changes nothing (R291–R293, R309, R326): it
waits while Aelko does not run or a batch is written, an origin without privilege is DENIED, and a write that a check refuses has no effect. -/
def Obligations.ReferenceAndAnalogueWritesTakeEffect : Prop :=
  (∀ (s : State) (o : Origin) (n : Fin 4) (m : Fin 2) (v : Word),
    let k := n.val
    let ref := fun (t : State) (r : RefBlock) => ({ t with ref := r } : State)
    let clk := fun (t : State) (c : ClkOut) => ref t { t.ref with clkout := t.ref.clkout.set m.val c }
    let trains := fun (t : State) (y : CalOut) => ref t { t.ref with calout := t.ref.calout.set k y }
    let tick : DWord := BitVec.ofNat 64 (s.rd (pRefinCoTickHi k) * 2 ^ 32 + s.rd (pRefinCoTickLo k))
    let unit := s.ref.units[n]
    let second : DWord := BitVec.ofNat 64 ((s.time.tick.toNat / 1024000000 + 1) * 1024000000)
    s.WritesTo (.refinCal o n) o (pRefinCal k) 1 (fun t => t.stamperCal ⟨k, by omega⟩) ∧
    s.WritesTo (.refinSettingWrite o n .mode v) o (pRefinMode k) v.toNat (fun t => (t.wr (pRefinMode k) v.toNat).discardGate n) ∧
    s.WritesTo (.refinSettingWrite o n .prescale v) o (pRefinPrescale k) v.toNat (fun t => (t.wr (pRefinPrescale k) v.toNat).discardGate n) ∧
    s.WritesTo (.refinSettingWrite o n .edge v) o (pRefinEdge k) v.toNat (fun t => (t.wr (pRefinEdge k) v.toNat).discardGate n) ∧
    s.WritesTo (.dmClear o n) o (pRefinDmClear k) 1 (fun t => ref t { t.ref with
      units := t.ref.units.set k { unit with n := 0, first := 0, sum := 0, sumsq := 0, last := 0, sat := false } }) ∧
    (1024 ≤ (tick - s.time.tick).toInt → s.WritesTo (.coArm o n) o (pRefinCoArm k) 1 (fun t => trains t { (s.ref.calout[n]) with
      driven := true, launched := 0, train := some ⟨tick, s.rd (pRefinCoFine k), s.rd (pRefinCoWidth k), s.rd (pRefinCoPeriod k), s.rd (pRefinCoCount k), 0⟩ })) ∧
    ((tick - s.time.tick).toInt < 1024 → s.WritesTo (.coArm o n) o (pRefinCoArm k) 1 (fun t => (t.bump (pRefinCoMissed k)).post 452 3 k)) ∧
    s.WritesTo (.coCancel o n) o (pRefinCoArm k) 0 (fun t => trains t { (s.ref.calout[n]) with train := none }) ∧
    s.WritesTo (.ckEnEnable o m) o (pRefinCkEn m.val) 1 (fun t => clk (t.wr (pRefinCkEn m.val) 1) { (s.ref.clkout[m]) with
      enabled := true, driven := true, stopping := false, stagedAt := second, staged := some (s.rd (pRefinCkM m.val), s.rd (pRefinCkD m.val), signed 32 (s.rd (pRefinCkOffset m.val))) }) ∧
    s.WritesTo (.ckEnDisable o m) o (pRefinCkEn m.val) 0 (fun t => clk (t.wr (pRefinCkEn m.val) 0) { (s.ref.clkout[m]) with
      enabled := false, staged := none, stopping := (s.ref.clkout[m]).applied.isSome }) ∧
    s.WritesTo (.ppsEn o true) o pRefinPpsEn 1 (fun t => ref (t.wr pRefinPpsEn 1) { t.ref with pps := { t.ref.pps with
      enabled := true, driven := true, offset := s.ref.pps.inForce s.time.tick, staged := some (signed 32 (s.rd pRefinPpsOffset), second) } }) ∧
    s.WritesTo (.ppsEn o false) o pRefinPpsEn 0 (fun t => ref (t.wr pRefinPpsEn 0) { t.ref with pps := { t.ref.pps with enabled := false, staged := none } })) ∧
  (∀ (s : State) (o : Origin) (n : Fin 17) (i : Fin 32) (v : Word),
    let w := v.toNat
    s.WritesTo (.sReadmit o n) o (pThermSReadmit n.val) 1 (fun t => t.sensorReadmit n) ∧
    s.WritesTo (.holdCapWrite o v) o pPwrHoldCap w (fun t => t.wr pPwrHoldCap w) ∧
    s.WritesTo (.pfeModeWrite o v) o pPfeMode w (fun t => (t.wr pPfeMode w).pfeModeWritten (s.rd pPfeMode) w) ∧
    (w ≠ s.rd pPfeSelect → s.WritesTo (.pfeSelectWrite o v) o pPfeSelect w (fun t => t.pfeMove ⟨w % 32, Nat.mod_lt _ (by decide)⟩ (1 + s.rd pPfeInterleave))) ∧
    (w = s.rd pPfeSelect → s.WritesTo (.pfeSelectWrite o v) o pPfeSelect w (fun t => t)) ∧
    s.WritesTo (.pfeFilterWrite o .order v) o pPfeOrder w (fun t => t.pfeCutChange (fun x => x.wr pPfeOrder w) 0 false) ∧
    s.WritesTo (.pfeFilterWrite o .decim v) o pPfeDecim w (fun t => t.pfeCutChange (fun x => x.wr pPfeDecim w) 0 false) ∧
    s.WritesTo (.pfeFilterWrite o .interleave v) o pPfeInterleave w (fun t => t.pfeCutChange (fun x => x.wr pPfeInterleave w) 0 false) ∧
    (w = s.rd pPfeExcAMode → s.WritesTo (.pfeExcitationWrite o .excAMode v) o pPfeExcAMode w (fun t => t.wr pPfeExcAMode w)) ∧
    (w ≠ s.rd pPfeExcAI → s.pfeUses s.pfeSelected false = true →
      s.WritesTo (.pfeExcitationWrite o .excAI v) o pPfeExcAI w (fun t => (t.wr pPfeExcAI w).pfeExcChange)) ∧
    (w ≠ s.rd pPfeExcBI → s.pfeUses s.pfeSelected true = true →
      s.WritesTo (.pfeExcitationWrite o .excBI v) o pPfeExcBI w (fun t => (t.wr pPfeExcBI w).pfeExcChange)) ∧
    (w ≠ s.rd (pPfeIExc i.val) → i = s.pfeSelected → s.WritesTo (.pfeExcitationWrite o (.iExc i) v) o (pPfeIExc i.val) w (fun t => (t.wr (pPfeIExc i.val) w).pfeExcChange))) ∧
  (∀ (s : State) (n : Fin 4) (k : Fin 5) (j : Fin 17) (i : Fin 32) (old words micros : Nat) (stops : Bool) (f : State → State),
    let g := s.ref.gates[n]
    let len : Int := (max 1 (s.rd (pRefinGate n.val)) * 1024 * 1024 : Nat)
    let b := (s.nowFine / len + 1) * len
    let st := s.ref.stampers[k]
    let calibrates := ({ s with ref := { s.ref with stampers := s.ref.stampers.set k.val { st with calibrating := true, calStart := s.time.clock } } } : State)
    let pfe := fun (q : Pfe) => ({ s with pfe := q } : State)
    let p := s.pfe
    let settle := s.rd (pPfeISettle s.pfeSelected.val)
    let unsettled := s.rd pPfeOrder * (1 + s.rd pPfeInterleave)
    let running := p.converting = true ∧ s.pfeWordRuns = true
    let count := s.rd pPfeCntResults
    let moved := s.pfeMove i words
    let cut := s.pfeCutWord
    let exc := s.rd pPfeExcSettle
    let far := s.rd (pPfeIExc i.val) ≠ s.rd (pPfeIExc s.pfeSelected.val)
    let wait := if far then max (s.rd (pPfeISettle i.val)) exc else s.rd (pPfeISettle i.val)
    (s.discardGate n = { s with ref := { s.ref with gates := s.ref.gates.set n.val { g with
      opened := none, closing := none, first := true, noStamp := false, overspeed := false, step := false, holdover := s.inHoldover, edges := 0,
      calibrated := (s.ref.stampers[(⟨n.val, by omega⟩ : Fin 5)]).calibrating, boundary := b, lostTo := b } } }) ∧
    (k.val = 4 → s.stamperCal k = calibrates) ∧
    (n.val = k.val → s.stamperCal k = { calibrates with ref := { calibrates.ref with gates := s.ref.gates.set n.val { g with calibrated := true } } }) ∧
    ((s.therm.sensors[j]).broken = false → s.sensorReadmit j = s) ∧
    ((s.therm.sensors[j]).broken = true → s.sensorReadmit j =
      ({ s with therm := { s.therm with sensors := s.therm.sensors.set j.val { (s.therm.sensors[j]) with broken := false, deviating := 0 } } } : State).post (465 + j.val) 2 j.val) ∧
    (s.pfeModeWritten old 0 = pfe { p with converting := false, testDue := false, openWords := 0 }) ∧
    (old ≠ 0 → s.pfeModeWritten old 1 = pfe { p with converting := false } ∧
      s.pfeModeWritten old 2 = pfe { p with converting := true, seq := p.seq + 1, settled := 0 } ∧
      ((s.rd pPfeScan).testBit s.pfeSelected.val = true → s.pfeModeWritten old 3 = pfe { p with converting := true, seq := p.seq + 1, settled := 0 })) ∧
    (s.pfeModeWritten 0 1 = pfe { p with
      converting := false, unsettled := unsettled, delay := p.delay || settle != 0, delayStops := (p.delay && p.delayStops) || settle != 0, modulator := false }) ∧
    (s.pfeChange micros stops = pfe { p with
      unsettled := unsettled, delay := p.delay || micros != 0, delayStops := (p.delay && p.delayStops) || (stops && micros != 0), modulator := false }) ∧
    (s.pfeExcChange = s.pfeChange exc false) ∧
    ((∀ t : State, (f t).pfe = t.pfe) → p.converting = false → s.pfeCutChange f micros stops = (f (pfe { p with openWords := 0 })).pfeChange micros stops) ∧
    (running → s.rd pPfeMode ≠ 1 → s.Inv → cut.rd pPfeCntResults = min (count + (1 + s.rd pPfeInterleave)) 0xFFFFFFFF ∧ cut.pfe.openWords = 0 ∧
      cut.pfe.result.getLsbD 31 = false ∧ cut.pfe.converting = true) ∧
    (¬running → cut = pfe { p with openWords := 0 }) ∧
    (s.Inv → moved.rd pPfeSelect = i.val ∧ moved.pfe.testing = false ∧ moved.pfe.testDue = false ∧ moved.pfe.openWords = 0 ∧ moved.pfe.unsettled = unsettled ∧
      moved.pfe.modulator = false ∧ moved.pfe.delay = (p.delay || wait != 0)) ∧
    (running → s.rd pPfeMode ≠ 1 → s.Inv → moved.rd pPfeCntResults = min (count + words) 0xFFFFFFFF ∧ (0 < words → moved.pfe.result.getLsbD 31 = false))) ∧
  (∀ (s : State) (o : Origin) (ch : Fin 256) (v : Word),
    (s.aelkoFree = false → exec (.chanConfigWrite o ch .thresh v) s = .next s) ∧
    (s.aelkoFree = true → s.mayWrite o = false →
      (s.Affords 4 → exec (.chanConfigWrite o ch .thresh v) s = .next { (s.commitEntry (s.entry o.code 13 (writeCommand o) (pChanThresh ch.val) o.code 2 0)).bumpPost
        pLedgerCntDenied 506 3 o.code with lastStatus := .denied }) ∧
      (s.power.testEnded = false → exec (.chanConfigWrite o ch .thresh v) s = .next { s with lastStatus := .deferred })) ∧
    (s.aelkoFree = true → s.mayWrite o = true → originAllowed o (pChanThresh ch.val) = true → s.addressOk (pChanThresh ch.val) = true → 4096 ≤ v.toNat →
      exec (.chanConfigWrite o ch .thresh v) s = .next { s with lastStatus := .badarg }))
end

