-- ==== Sys2Proof/Laws/Sparse.lean ====
section
/-! SUPPORT. The laws of sparse data (Machine/Sparse.lean): what a find answers after a write, and that every write keeps the canonical form. -/

namespace Sys2Proof.Machine

open Sys2Proof

variable {α : Type}

/-- Keys strictly rising: the part of the canonical form that finding needs. -/
abbrev Rising (m : List (Nat × α)) : Prop := m.Pairwise (fun p q => p.1 < q.1)

theorem sfind_eq_none_of_lt {k : Nat} {m : List (Nat × α)} (h : ∀ p ∈ m, k < p.1) : sfind k m = none := by
  cases m with
  | nil => rfl
  | cons p m =>
    have hp := h p (List.mem_cons_self ..)
    obtain ⟨j, v⟩ := p
    simp only at hp
    simp only [sfind]
    rw [if_neg (by omega), if_pos hp]

theorem mem_of_mem_sdrop {k : Nat} {m : List (Nat × α)} {p : Nat × α} (h : p ∈ sdrop k m) : p ∈ m := by
  induction m with
  | nil => exact h
  | cons q m ih =>
    simp only [sdrop] at h
    split at h
    · exact List.mem_cons_of_mem _ h
    · split at h
      · exact h
      · rcases List.mem_cons.mp h with h | h
        · exact h ▸ List.mem_cons_self ..
        · exact List.mem_cons_of_mem _ (ih h)

theorem mem_of_mem_sset {k : Nat} {x : α} {m : List (Nat × α)} {p : Nat × α} (h : p ∈ sset k x m) : p = (k, x) ∨ p ∈ m := by
  induction m with
  | nil => exact .inl (List.mem_singleton.mp h)
  | cons q m ih =>
    simp only [sset] at h
    split at h
    · exact (List.mem_cons.mp h).imp_right (List.mem_cons_of_mem _)
    · split at h
      · exact List.mem_cons.mp h
      · rcases List.mem_cons.mp h with h | h
        · exact .inr (h ▸ List.mem_cons_self ..)
        · exact (ih h).imp_right (List.mem_cons_of_mem _)

theorem sdrop_rising {k : Nat} {m : List (Nat × α)} (h : Rising m) : Rising (sdrop k m) := by
  induction m with
  | nil => exact h
  | cons q m ih =>
    obtain ⟨hq, hm⟩ := List.pairwise_cons.mp h
    simp only [sdrop]
    split
    · exact hm
    · split
      · exact h
      · exact List.pairwise_cons.mpr ⟨fun p hp => hq p (mem_of_mem_sdrop hp), ih hm⟩

theorem sset_rising {k : Nat} {x : α} {m : List (Nat × α)} (h : Rising m) : Rising (sset k x m) := by
  induction m with
  | nil => exact List.pairwise_singleton ..
  | cons q m ih =>
    obtain ⟨hq, hm⟩ := List.pairwise_cons.mp h
    simp only [sset]
    split
    · next e => exact List.pairwise_cons.mpr ⟨fun p hp => e ▸ hq p hp, hm⟩
    · split
      · next hlt =>
        refine List.pairwise_cons.mpr ⟨fun p hp => ?_, h⟩
        rcases List.mem_cons.mp hp with hp | hp
        · exact hp ▸ hlt
        · exact Nat.lt_trans hlt (hq p hp)
      · refine List.pairwise_cons.mpr ⟨fun p hp => ?_, ih hm⟩
        rcases mem_of_mem_sset hp with hp | hp
        · exact hp ▸ by simp only; omega
        · exact hq p hp

/-- A find of a key after it was dropped. -/
theorem sfind_sdrop_same {k : Nat} {m : List (Nat × α)} (h : Rising m) : sfind k (sdrop k m) = none := by
  induction m with
  | nil => rfl
  | cons q m ih =>
    obtain ⟨hq, hm⟩ := List.pairwise_cons.mp h
    obtain ⟨j, v⟩ := q
    simp only [sdrop]
    split
    · next e => exact sfind_eq_none_of_lt (fun p hp => e ▸ hq p hp)
    · split
      · next h1 h2 => simp [sfind, h1, h2]
      · next h1 h2 => simp [sfind, h1, h2, ih hm]

/-- A find of another key after a drop. -/
theorem sfind_sdrop_other {j k : Nat} {m : List (Nat × α)} (h : Rising m) (hjk : j ≠ k) : sfind j (sdrop k m) = sfind j m := by
  induction m with
  | nil => rfl
  | cons q m ih =>
    obtain ⟨hq, hm⟩ := List.pairwise_cons.mp h
    obtain ⟨i, v⟩ := q
    simp only [sdrop]
    split
    · next e =>
      simp only [sfind]
      rw [if_neg (by omega)]
      split
      · exact sfind_eq_none_of_lt (fun p hp => Nat.lt_trans ‹_› (hq p hp))
      · rfl
    · split
      · rfl
      · simp only [sfind, ih hm]

/-- A find of a key after it was set. -/
theorem sfind_sset_same {k : Nat} {x : α} {m : List (Nat × α)} : sfind k (sset k x m) = some x := by
  induction m with
  | nil => simp [sset, sfind]
  | cons q m ih =>
    obtain ⟨j, v⟩ := q
    simp only [sset]
    split
    · simp [sfind]
    · split
      · simp [sfind]
      · next h1 h2 => simp [sfind, h1, h2, ih]

/-- A find of another key after a set. -/
theorem sfind_sset_other {j k : Nat} {x : α} {m : List (Nat × α)} (h : Rising m) (hjk : j ≠ k) : sfind j (sset k x m) = sfind j m := by
  induction m with
  | nil => simp only [sset, sfind]; split <;> simp_all
  | cons q m ih =>
    obtain ⟨hq, hm⟩ := List.pairwise_cons.mp h
    obtain ⟨i, v⟩ := q
    simp only [sset]
    split
    · next e =>
      simp only [sfind]
      rw [if_neg (by omega), if_neg (show ¬ i = j by omega), e]
    · split
      · next h1 h2 =>
        simp only [sfind]
        rw [if_neg (show ¬ k = j by omega)]
        split
        · next h3 => rw [if_neg (by omega), if_pos (by omega)]
        · rfl
      · simp only [sfind, ih hm]

variable [DecidableEq α]

/-- A find of a key after a canonical write of it. -/
theorem sfind_sput_same {d : α} {k : Nat} {x : α} {m : List (Nat × α)} (h : Rising m) : (sfind k (sput d k x m)).getD d = x := by
  unfold sput
  split
  · next e => rw [sfind_sdrop_same h]; exact e.symm
  · rw [sfind_sset_same]; rfl

/-- A find of another key after a canonical write. -/
theorem sfind_sput_other {d : α} {j k : Nat} {x : α} {m : List (Nat × α)} (h : Rising m) (hjk : j ≠ k) : sfind j (sput d k x m) = sfind j m := by
  unfold sput
  split
  · exact sfind_sdrop_other h hjk
  · exact sfind_sset_other h hjk

/-- A write keeps the canonical form. -/
theorem sput_wf {d : Nat → α} {k : Nat} {x : α} {m : List (Nat × α)} (h : SparseWf d m) : SparseWf d (sput (d k) k x m) := by
  unfold sput
  split
  · exact ⟨sdrop_rising h.1, fun p hp => h.2 p (mem_of_mem_sdrop hp)⟩
  · next hx =>
    refine ⟨sset_rising h.1, fun p hp => ?_⟩
    rcases mem_of_mem_sset hp with hp | hp
    · exact hp ▸ hx
    · exact h.2 p hp

omit [DecidableEq α] in
/-- Keeping some of the entries keeps the canonical form. -/
theorem filter_wf {d : Nat → α} {q : Nat × α → Bool} {m : List (Nat × α)} (h : SparseWf d m) : SparseWf d (m.filter q) :=
  ⟨h.1.filter _, fun p hp => h.2 p ((List.mem_filter.mp hp).1)⟩

/-! ### Byte memories -/

theorem Memory.wf_put {m : Memory} {a : Nat} {b : Byte} (h : Memory.wf m) : Memory.wf (Memory.put m a b) := sput_wf (d := fun _ => 0) h

/-- A byte read after a byte was written. -/
theorem Memory.get_put {m : Memory} {a k : Nat} {b : Byte} (h : Memory.wf m) : Memory.get (Memory.put m a b) k = if k = a then b else Memory.get m k := by
  unfold Memory.get Memory.put
  split
  · next e => exact e ▸ sfind_sput_same h.1
  · next e => rw [sfind_sput_other h.1 e]

theorem Memory.wf_putBytes {m : Memory} {a : Nat} {bs : List Byte} (h : Memory.wf m) : Memory.wf (Memory.putBytes m a bs) := by
  induction bs generalizing m a with
  | nil => exact h
  | cons b bs ih => exact ih (Memory.wf_put h)

/-- A byte read after a list of bytes was written: the byte of the list at its place, and elsewhere what stood there. -/
theorem Memory.get_putBytes {m : Memory} {a k : Nat} {bs : List Byte} (h : Memory.wf m) :
    Memory.get (Memory.putBytes m a bs) k = if h : a ≤ k ∧ k < a + bs.length then bs[k - a]'(by omega) else Memory.get m k := by
  induction bs generalizing m a with
  | nil => rw [dif_neg (by simp only [List.length_nil]; omega)]; rfl
  | cons b bs ih =>
    show Memory.get (Memory.putBytes (Memory.put m a b) (a + 1) bs) k = _
    rw [ih (Memory.wf_put h), Memory.get_put h]
    simp only [List.length_cons]
    by_cases hk : k = a
    · subst hk
      rw [dif_neg (by omega), if_pos rfl, dif_pos (by omega)]
      simp
    · by_cases h1 : a + 1 ≤ k ∧ k < a + 1 + bs.length
      · rw [dif_pos h1, dif_pos (by omega)]
        obtain ⟨i, hi⟩ : ∃ i, k - a = i + 1 := ⟨k - a - 1, by omega⟩
        have h2 : k - (a + 1) = i := by omega
        simp [hi, h2]
      · rw [dif_neg h1, if_neg hk, dif_neg (by omega)]

theorem Memory.wf_putLe {m : Memory} {a n x : Nat} (h : Memory.wf m) : Memory.wf (Memory.putLe m a n x) := Memory.wf_putBytes h

theorem natLe_length (n x : Nat) : (natLe n x).length = n := by
  induction n generalizing x with
  | zero => rfl
  | succ n ih => simp [natLe, ih]

theorem natLe_getElem (n x i : Nat) (h : i < (natLe n x).length) : (natLe n x)[i] = BitVec.ofNat 8 (x / 256 ^ i) := by
  induction n generalizing x i with
  | zero => simp [natLe] at h
  | succ n ih =>
    cases i with
    | zero => simp [natLe]
    | succ i => simp only [natLe, List.getElem_cons_succ, ih, Nat.div_div_eq_div_mul, Nat.pow_succ, Nat.mul_comm]

/-- A byte read after a little-endian number was written. -/
theorem Memory.get_putLe {m : Memory} {a k n x : Nat} (h : Memory.wf m) :
    Memory.get (Memory.putLe m a n x) k = if a ≤ k ∧ k < a + n then BitVec.ofNat 8 (x / 256 ^ (k - a)) else Memory.get m k := by
  unfold Memory.putLe
  rw [Memory.get_putBytes h]
  by_cases hk : a ≤ k ∧ k < a + n
  · rw [dif_pos (by rw [natLe_length]; exact hk), if_pos hk, natLe_getElem]
  · rw [dif_neg (by rw [natLe_length]; exact hk), if_neg hk]

end Sys2Proof.Machine
end

