-- ==== Sys2Proof/Laws/State.lean ====
section
/-! SUPPORT. What each named update of State leaves alone, field by field. -/

namespace Sys2Proof.Machine

open Sys2Proof

/-! ### State.wr changes `params` alone. -/

@[simp] theorem State.wr_time (s : State) (a v : Nat) : (s.wr a v).time = s.time := rfl
@[simp] theorem State.wr_chans (s : State) (a v : Nat) : (s.wr a v).chans = s.chans := rfl
@[simp] theorem State.wr_tiles (s : State) (a v : Nat) : (s.wr a v).tiles = s.tiles := rfl
@[simp] theorem State.wr_engines (s : State) (a v : Nat) : (s.wr a v).engines = s.engines := rfl
@[simp] theorem State.wr_ref (s : State) (a v : Nat) : (s.wr a v).ref = s.ref := rfl
@[simp] theorem State.wr_acq (s : State) (a v : Nat) : (s.wr a v).acq = s.acq := rfl
@[simp] theorem State.wr_red (s : State) (a v : Nat) : (s.wr a v).red = s.red := rfl
@[simp] theorem State.wr_porter (s : State) (a v : Nat) : (s.wr a v).porter = s.porter := rfl
@[simp] theorem State.wr_comp (s : State) (a v : Nat) : (s.wr a v).comp = s.comp := rfl
@[simp] theorem State.wr_ports (s : State) (a v : Nat) : (s.wr a v).ports = s.ports := rfl
@[simp] theorem State.wr_lanes (s : State) (a v : Nat) : (s.wr a v).lanes = s.lanes := rfl
@[simp] theorem State.wr_mem (s : State) (a v : Nat) : (s.wr a v).mem = s.mem := rfl
@[simp] theorem State.wr_mram (s : State) (a v : Nat) : (s.wr a v).mram = s.mram := rfl
@[simp] theorem State.wr_fd (s : State) (a v : Nat) : (s.wr a v).fd = s.fd := rfl
@[simp] theorem State.wr_keeper (s : State) (a v : Nat) : (s.wr a v).keeper = s.keeper := rfl
@[simp] theorem State.wr_power (s : State) (a v : Nat) : (s.wr a v).power = s.power := rfl
@[simp] theorem State.wr_therm (s : State) (a v : Nat) : (s.wr a v).therm = s.therm := rfl
@[simp] theorem State.wr_pfe (s : State) (a v : Nat) : (s.wr a v).pfe = s.pfe := rfl
@[simp] theorem State.wr_free (s : State) (a v : Nat) : (s.wr a v).free = s.free := rfl
@[simp] theorem State.wr_lastStatus (s : State) (a v : Nat) : (s.wr a v).lastStatus = s.lastStatus := rfl
@[simp] theorem State.wr_pending (s : State) (a v : Nat) : (s.wr a v).pending = s.pending := rfl

/-! ### State.bump changes `params` alone. -/

@[simp] theorem State.bump_time (s : State) (a : Nat) : (s.bump a).time = s.time := rfl
@[simp] theorem State.bump_chans (s : State) (a : Nat) : (s.bump a).chans = s.chans := rfl
@[simp] theorem State.bump_tiles (s : State) (a : Nat) : (s.bump a).tiles = s.tiles := rfl
@[simp] theorem State.bump_engines (s : State) (a : Nat) : (s.bump a).engines = s.engines := rfl
@[simp] theorem State.bump_ref (s : State) (a : Nat) : (s.bump a).ref = s.ref := rfl
@[simp] theorem State.bump_acq (s : State) (a : Nat) : (s.bump a).acq = s.acq := rfl
@[simp] theorem State.bump_red (s : State) (a : Nat) : (s.bump a).red = s.red := rfl
@[simp] theorem State.bump_porter (s : State) (a : Nat) : (s.bump a).porter = s.porter := rfl
@[simp] theorem State.bump_comp (s : State) (a : Nat) : (s.bump a).comp = s.comp := rfl
@[simp] theorem State.bump_ports (s : State) (a : Nat) : (s.bump a).ports = s.ports := rfl
@[simp] theorem State.bump_lanes (s : State) (a : Nat) : (s.bump a).lanes = s.lanes := rfl
@[simp] theorem State.bump_mem (s : State) (a : Nat) : (s.bump a).mem = s.mem := rfl
@[simp] theorem State.bump_mram (s : State) (a : Nat) : (s.bump a).mram = s.mram := rfl
@[simp] theorem State.bump_fd (s : State) (a : Nat) : (s.bump a).fd = s.fd := rfl
@[simp] theorem State.bump_keeper (s : State) (a : Nat) : (s.bump a).keeper = s.keeper := rfl
@[simp] theorem State.bump_power (s : State) (a : Nat) : (s.bump a).power = s.power := rfl
@[simp] theorem State.bump_therm (s : State) (a : Nat) : (s.bump a).therm = s.therm := rfl
@[simp] theorem State.bump_pfe (s : State) (a : Nat) : (s.bump a).pfe = s.pfe := rfl
@[simp] theorem State.bump_free (s : State) (a : Nat) : (s.bump a).free = s.free := rfl
@[simp] theorem State.bump_lastStatus (s : State) (a : Nat) : (s.bump a).lastStatus = s.lastStatus := rfl
@[simp] theorem State.bump_pending (s : State) (a : Nat) : (s.bump a).pending = s.pending := rfl

/-! ### State.bumpBy changes `params` alone. -/

@[simp] theorem State.bumpBy_time (s : State) (a n : Nat) : (s.bumpBy a n).time = s.time := rfl
@[simp] theorem State.bumpBy_chans (s : State) (a n : Nat) : (s.bumpBy a n).chans = s.chans := rfl
@[simp] theorem State.bumpBy_tiles (s : State) (a n : Nat) : (s.bumpBy a n).tiles = s.tiles := rfl
@[simp] theorem State.bumpBy_engines (s : State) (a n : Nat) : (s.bumpBy a n).engines = s.engines := rfl
@[simp] theorem State.bumpBy_ref (s : State) (a n : Nat) : (s.bumpBy a n).ref = s.ref := rfl
@[simp] theorem State.bumpBy_acq (s : State) (a n : Nat) : (s.bumpBy a n).acq = s.acq := rfl
@[simp] theorem State.bumpBy_red (s : State) (a n : Nat) : (s.bumpBy a n).red = s.red := rfl
@[simp] theorem State.bumpBy_porter (s : State) (a n : Nat) : (s.bumpBy a n).porter = s.porter := rfl
@[simp] theorem State.bumpBy_comp (s : State) (a n : Nat) : (s.bumpBy a n).comp = s.comp := rfl
@[simp] theorem State.bumpBy_ports (s : State) (a n : Nat) : (s.bumpBy a n).ports = s.ports := rfl
@[simp] theorem State.bumpBy_lanes (s : State) (a n : Nat) : (s.bumpBy a n).lanes = s.lanes := rfl
@[simp] theorem State.bumpBy_mem (s : State) (a n : Nat) : (s.bumpBy a n).mem = s.mem := rfl
@[simp] theorem State.bumpBy_mram (s : State) (a n : Nat) : (s.bumpBy a n).mram = s.mram := rfl
@[simp] theorem State.bumpBy_fd (s : State) (a n : Nat) : (s.bumpBy a n).fd = s.fd := rfl
@[simp] theorem State.bumpBy_keeper (s : State) (a n : Nat) : (s.bumpBy a n).keeper = s.keeper := rfl
@[simp] theorem State.bumpBy_power (s : State) (a n : Nat) : (s.bumpBy a n).power = s.power := rfl
@[simp] theorem State.bumpBy_therm (s : State) (a n : Nat) : (s.bumpBy a n).therm = s.therm := rfl
@[simp] theorem State.bumpBy_pfe (s : State) (a n : Nat) : (s.bumpBy a n).pfe = s.pfe := rfl
@[simp] theorem State.bumpBy_free (s : State) (a n : Nat) : (s.bumpBy a n).free = s.free := rfl
@[simp] theorem State.bumpBy_lastStatus (s : State) (a n : Nat) : (s.bumpBy a n).lastStatus = s.lastStatus := rfl
@[simp] theorem State.bumpBy_pending (s : State) (a n : Nat) : (s.bumpBy a n).pending = s.pending := rfl

/-! ### State.peak changes `params` alone. -/

@[simp] theorem State.peak_time (s : State) (a v : Nat) : (s.peak a v).time = s.time := rfl
@[simp] theorem State.peak_chans (s : State) (a v : Nat) : (s.peak a v).chans = s.chans := rfl
@[simp] theorem State.peak_tiles (s : State) (a v : Nat) : (s.peak a v).tiles = s.tiles := rfl
@[simp] theorem State.peak_engines (s : State) (a v : Nat) : (s.peak a v).engines = s.engines := rfl
@[simp] theorem State.peak_ref (s : State) (a v : Nat) : (s.peak a v).ref = s.ref := rfl
@[simp] theorem State.peak_acq (s : State) (a v : Nat) : (s.peak a v).acq = s.acq := rfl
@[simp] theorem State.peak_red (s : State) (a v : Nat) : (s.peak a v).red = s.red := rfl
@[simp] theorem State.peak_porter (s : State) (a v : Nat) : (s.peak a v).porter = s.porter := rfl
@[simp] theorem State.peak_comp (s : State) (a v : Nat) : (s.peak a v).comp = s.comp := rfl
@[simp] theorem State.peak_ports (s : State) (a v : Nat) : (s.peak a v).ports = s.ports := rfl
@[simp] theorem State.peak_lanes (s : State) (a v : Nat) : (s.peak a v).lanes = s.lanes := rfl
@[simp] theorem State.peak_mem (s : State) (a v : Nat) : (s.peak a v).mem = s.mem := rfl
@[simp] theorem State.peak_mram (s : State) (a v : Nat) : (s.peak a v).mram = s.mram := rfl
@[simp] theorem State.peak_fd (s : State) (a v : Nat) : (s.peak a v).fd = s.fd := rfl
@[simp] theorem State.peak_keeper (s : State) (a v : Nat) : (s.peak a v).keeper = s.keeper := rfl
@[simp] theorem State.peak_power (s : State) (a v : Nat) : (s.peak a v).power = s.power := rfl
@[simp] theorem State.peak_therm (s : State) (a v : Nat) : (s.peak a v).therm = s.therm := rfl
@[simp] theorem State.peak_pfe (s : State) (a v : Nat) : (s.peak a v).pfe = s.pfe := rfl
@[simp] theorem State.peak_free (s : State) (a v : Nat) : (s.peak a v).free = s.free := rfl
@[simp] theorem State.peak_lastStatus (s : State) (a v : Nat) : (s.peak a v).lastStatus = s.lastStatus := rfl
@[simp] theorem State.peak_pending (s : State) (a v : Nat) : (s.peak a v).pending = s.pending := rfl

/-! ### State.setChan changes `chans` alone. -/

@[simp] theorem State.setChan_params (s : State) (ch : Fin 256) (c : Channel) : (s.setChan ch c).params = s.params := rfl
@[simp] theorem State.setChan_time (s : State) (ch : Fin 256) (c : Channel) : (s.setChan ch c).time = s.time := rfl
@[simp] theorem State.setChan_tiles (s : State) (ch : Fin 256) (c : Channel) : (s.setChan ch c).tiles = s.tiles := rfl
@[simp] theorem State.setChan_engines (s : State) (ch : Fin 256) (c : Channel) : (s.setChan ch c).engines = s.engines := rfl
@[simp] theorem State.setChan_ref (s : State) (ch : Fin 256) (c : Channel) : (s.setChan ch c).ref = s.ref := rfl
@[simp] theorem State.setChan_acq (s : State) (ch : Fin 256) (c : Channel) : (s.setChan ch c).acq = s.acq := rfl
@[simp] theorem State.setChan_red (s : State) (ch : Fin 256) (c : Channel) : (s.setChan ch c).red = s.red := rfl
@[simp] theorem State.setChan_porter (s : State) (ch : Fin 256) (c : Channel) : (s.setChan ch c).porter = s.porter := rfl
@[simp] theorem State.setChan_comp (s : State) (ch : Fin 256) (c : Channel) : (s.setChan ch c).comp = s.comp := rfl
@[simp] theorem State.setChan_ports (s : State) (ch : Fin 256) (c : Channel) : (s.setChan ch c).ports = s.ports := rfl
@[simp] theorem State.setChan_lanes (s : State) (ch : Fin 256) (c : Channel) : (s.setChan ch c).lanes = s.lanes := rfl
@[simp] theorem State.setChan_mem (s : State) (ch : Fin 256) (c : Channel) : (s.setChan ch c).mem = s.mem := rfl
@[simp] theorem State.setChan_mram (s : State) (ch : Fin 256) (c : Channel) : (s.setChan ch c).mram = s.mram := rfl
@[simp] theorem State.setChan_fd (s : State) (ch : Fin 256) (c : Channel) : (s.setChan ch c).fd = s.fd := rfl
@[simp] theorem State.setChan_keeper (s : State) (ch : Fin 256) (c : Channel) : (s.setChan ch c).keeper = s.keeper := rfl
@[simp] theorem State.setChan_power (s : State) (ch : Fin 256) (c : Channel) : (s.setChan ch c).power = s.power := rfl
@[simp] theorem State.setChan_therm (s : State) (ch : Fin 256) (c : Channel) : (s.setChan ch c).therm = s.therm := rfl
@[simp] theorem State.setChan_pfe (s : State) (ch : Fin 256) (c : Channel) : (s.setChan ch c).pfe = s.pfe := rfl
@[simp] theorem State.setChan_free (s : State) (ch : Fin 256) (c : Channel) : (s.setChan ch c).free = s.free := rfl
@[simp] theorem State.setChan_lastStatus (s : State) (ch : Fin 256) (c : Channel) : (s.setChan ch c).lastStatus = s.lastStatus := rfl
@[simp] theorem State.setChan_pending (s : State) (ch : Fin 256) (c : Channel) : (s.setChan ch c).pending = s.pending := rfl

/-! ### State.modChan changes `chans` alone. -/

@[simp] theorem State.modChan_params (s : State) (ch : Fin 256) (f : Channel → Channel) : (s.modChan ch f).params = s.params := rfl
@[simp] theorem State.modChan_time (s : State) (ch : Fin 256) (f : Channel → Channel) : (s.modChan ch f).time = s.time := rfl
@[simp] theorem State.modChan_tiles (s : State) (ch : Fin 256) (f : Channel → Channel) : (s.modChan ch f).tiles = s.tiles := rfl
@[simp] theorem State.modChan_engines (s : State) (ch : Fin 256) (f : Channel → Channel) : (s.modChan ch f).engines = s.engines := rfl
@[simp] theorem State.modChan_ref (s : State) (ch : Fin 256) (f : Channel → Channel) : (s.modChan ch f).ref = s.ref := rfl
@[simp] theorem State.modChan_acq (s : State) (ch : Fin 256) (f : Channel → Channel) : (s.modChan ch f).acq = s.acq := rfl
@[simp] theorem State.modChan_red (s : State) (ch : Fin 256) (f : Channel → Channel) : (s.modChan ch f).red = s.red := rfl
@[simp] theorem State.modChan_porter (s : State) (ch : Fin 256) (f : Channel → Channel) : (s.modChan ch f).porter = s.porter := rfl
@[simp] theorem State.modChan_comp (s : State) (ch : Fin 256) (f : Channel → Channel) : (s.modChan ch f).comp = s.comp := rfl
@[simp] theorem State.modChan_ports (s : State) (ch : Fin 256) (f : Channel → Channel) : (s.modChan ch f).ports = s.ports := rfl
@[simp] theorem State.modChan_lanes (s : State) (ch : Fin 256) (f : Channel → Channel) : (s.modChan ch f).lanes = s.lanes := rfl
@[simp] theorem State.modChan_mem (s : State) (ch : Fin 256) (f : Channel → Channel) : (s.modChan ch f).mem = s.mem := rfl
@[simp] theorem State.modChan_mram (s : State) (ch : Fin 256) (f : Channel → Channel) : (s.modChan ch f).mram = s.mram := rfl
@[simp] theorem State.modChan_fd (s : State) (ch : Fin 256) (f : Channel → Channel) : (s.modChan ch f).fd = s.fd := rfl
@[simp] theorem State.modChan_keeper (s : State) (ch : Fin 256) (f : Channel → Channel) : (s.modChan ch f).keeper = s.keeper := rfl
@[simp] theorem State.modChan_power (s : State) (ch : Fin 256) (f : Channel → Channel) : (s.modChan ch f).power = s.power := rfl
@[simp] theorem State.modChan_therm (s : State) (ch : Fin 256) (f : Channel → Channel) : (s.modChan ch f).therm = s.therm := rfl
@[simp] theorem State.modChan_pfe (s : State) (ch : Fin 256) (f : Channel → Channel) : (s.modChan ch f).pfe = s.pfe := rfl
@[simp] theorem State.modChan_free (s : State) (ch : Fin 256) (f : Channel → Channel) : (s.modChan ch f).free = s.free := rfl
@[simp] theorem State.modChan_lastStatus (s : State) (ch : Fin 256) (f : Channel → Channel) : (s.modChan ch f).lastStatus = s.lastStatus := rfl
@[simp] theorem State.modChan_pending (s : State) (ch : Fin 256) (f : Channel → Channel) : (s.modChan ch f).pending = s.pending := rfl

/-! ### State.setTile changes `tiles` alone. -/

@[simp] theorem State.setTile_params (s : State) (t : Fin 16) (x : TileState) : (s.setTile t x).params = s.params := rfl
@[simp] theorem State.setTile_time (s : State) (t : Fin 16) (x : TileState) : (s.setTile t x).time = s.time := rfl
@[simp] theorem State.setTile_chans (s : State) (t : Fin 16) (x : TileState) : (s.setTile t x).chans = s.chans := rfl
@[simp] theorem State.setTile_engines (s : State) (t : Fin 16) (x : TileState) : (s.setTile t x).engines = s.engines := rfl
@[simp] theorem State.setTile_ref (s : State) (t : Fin 16) (x : TileState) : (s.setTile t x).ref = s.ref := rfl
@[simp] theorem State.setTile_acq (s : State) (t : Fin 16) (x : TileState) : (s.setTile t x).acq = s.acq := rfl
@[simp] theorem State.setTile_red (s : State) (t : Fin 16) (x : TileState) : (s.setTile t x).red = s.red := rfl
@[simp] theorem State.setTile_porter (s : State) (t : Fin 16) (x : TileState) : (s.setTile t x).porter = s.porter := rfl
@[simp] theorem State.setTile_comp (s : State) (t : Fin 16) (x : TileState) : (s.setTile t x).comp = s.comp := rfl
@[simp] theorem State.setTile_ports (s : State) (t : Fin 16) (x : TileState) : (s.setTile t x).ports = s.ports := rfl
@[simp] theorem State.setTile_lanes (s : State) (t : Fin 16) (x : TileState) : (s.setTile t x).lanes = s.lanes := rfl
@[simp] theorem State.setTile_mem (s : State) (t : Fin 16) (x : TileState) : (s.setTile t x).mem = s.mem := rfl
@[simp] theorem State.setTile_mram (s : State) (t : Fin 16) (x : TileState) : (s.setTile t x).mram = s.mram := rfl
@[simp] theorem State.setTile_fd (s : State) (t : Fin 16) (x : TileState) : (s.setTile t x).fd = s.fd := rfl
@[simp] theorem State.setTile_keeper (s : State) (t : Fin 16) (x : TileState) : (s.setTile t x).keeper = s.keeper := rfl
@[simp] theorem State.setTile_power (s : State) (t : Fin 16) (x : TileState) : (s.setTile t x).power = s.power := rfl
@[simp] theorem State.setTile_therm (s : State) (t : Fin 16) (x : TileState) : (s.setTile t x).therm = s.therm := rfl
@[simp] theorem State.setTile_pfe (s : State) (t : Fin 16) (x : TileState) : (s.setTile t x).pfe = s.pfe := rfl
@[simp] theorem State.setTile_free (s : State) (t : Fin 16) (x : TileState) : (s.setTile t x).free = s.free := rfl
@[simp] theorem State.setTile_lastStatus (s : State) (t : Fin 16) (x : TileState) : (s.setTile t x).lastStatus = s.lastStatus := rfl
@[simp] theorem State.setTile_pending (s : State) (t : Fin 16) (x : TileState) : (s.setTile t x).pending = s.pending := rfl

/-! ### State.modTile changes `tiles` alone. -/

@[simp] theorem State.modTile_params (s : State) (t : Fin 16) (f : TileState → TileState) : (s.modTile t f).params = s.params := rfl
@[simp] theorem State.modTile_time (s : State) (t : Fin 16) (f : TileState → TileState) : (s.modTile t f).time = s.time := rfl
@[simp] theorem State.modTile_chans (s : State) (t : Fin 16) (f : TileState → TileState) : (s.modTile t f).chans = s.chans := rfl
@[simp] theorem State.modTile_engines (s : State) (t : Fin 16) (f : TileState → TileState) : (s.modTile t f).engines = s.engines := rfl
@[simp] theorem State.modTile_ref (s : State) (t : Fin 16) (f : TileState → TileState) : (s.modTile t f).ref = s.ref := rfl
@[simp] theorem State.modTile_acq (s : State) (t : Fin 16) (f : TileState → TileState) : (s.modTile t f).acq = s.acq := rfl
@[simp] theorem State.modTile_red (s : State) (t : Fin 16) (f : TileState → TileState) : (s.modTile t f).red = s.red := rfl
@[simp] theorem State.modTile_porter (s : State) (t : Fin 16) (f : TileState → TileState) : (s.modTile t f).porter = s.porter := rfl
@[simp] theorem State.modTile_comp (s : State) (t : Fin 16) (f : TileState → TileState) : (s.modTile t f).comp = s.comp := rfl
@[simp] theorem State.modTile_ports (s : State) (t : Fin 16) (f : TileState → TileState) : (s.modTile t f).ports = s.ports := rfl
@[simp] theorem State.modTile_lanes (s : State) (t : Fin 16) (f : TileState → TileState) : (s.modTile t f).lanes = s.lanes := rfl
@[simp] theorem State.modTile_mem (s : State) (t : Fin 16) (f : TileState → TileState) : (s.modTile t f).mem = s.mem := rfl
@[simp] theorem State.modTile_mram (s : State) (t : Fin 16) (f : TileState → TileState) : (s.modTile t f).mram = s.mram := rfl
@[simp] theorem State.modTile_fd (s : State) (t : Fin 16) (f : TileState → TileState) : (s.modTile t f).fd = s.fd := rfl
@[simp] theorem State.modTile_keeper (s : State) (t : Fin 16) (f : TileState → TileState) : (s.modTile t f).keeper = s.keeper := rfl
@[simp] theorem State.modTile_power (s : State) (t : Fin 16) (f : TileState → TileState) : (s.modTile t f).power = s.power := rfl
@[simp] theorem State.modTile_therm (s : State) (t : Fin 16) (f : TileState → TileState) : (s.modTile t f).therm = s.therm := rfl
@[simp] theorem State.modTile_pfe (s : State) (t : Fin 16) (f : TileState → TileState) : (s.modTile t f).pfe = s.pfe := rfl
@[simp] theorem State.modTile_free (s : State) (t : Fin 16) (f : TileState → TileState) : (s.modTile t f).free = s.free := rfl
@[simp] theorem State.modTile_lastStatus (s : State) (t : Fin 16) (f : TileState → TileState) : (s.modTile t f).lastStatus = s.lastStatus := rfl
@[simp] theorem State.modTile_pending (s : State) (t : Fin 16) (f : TileState → TileState) : (s.modTile t f).pending = s.pending := rfl

/-! ### State.setEng changes `engines` alone. -/

@[simp] theorem State.setEng_params (s : State) (e : Fin 128) (x : Engine) : (s.setEng e x).params = s.params := rfl
@[simp] theorem State.setEng_time (s : State) (e : Fin 128) (x : Engine) : (s.setEng e x).time = s.time := rfl
@[simp] theorem State.setEng_chans (s : State) (e : Fin 128) (x : Engine) : (s.setEng e x).chans = s.chans := rfl
@[simp] theorem State.setEng_tiles (s : State) (e : Fin 128) (x : Engine) : (s.setEng e x).tiles = s.tiles := rfl
@[simp] theorem State.setEng_ref (s : State) (e : Fin 128) (x : Engine) : (s.setEng e x).ref = s.ref := rfl
@[simp] theorem State.setEng_acq (s : State) (e : Fin 128) (x : Engine) : (s.setEng e x).acq = s.acq := rfl
@[simp] theorem State.setEng_red (s : State) (e : Fin 128) (x : Engine) : (s.setEng e x).red = s.red := rfl
@[simp] theorem State.setEng_porter (s : State) (e : Fin 128) (x : Engine) : (s.setEng e x).porter = s.porter := rfl
@[simp] theorem State.setEng_comp (s : State) (e : Fin 128) (x : Engine) : (s.setEng e x).comp = s.comp := rfl
@[simp] theorem State.setEng_ports (s : State) (e : Fin 128) (x : Engine) : (s.setEng e x).ports = s.ports := rfl
@[simp] theorem State.setEng_lanes (s : State) (e : Fin 128) (x : Engine) : (s.setEng e x).lanes = s.lanes := rfl
@[simp] theorem State.setEng_mem (s : State) (e : Fin 128) (x : Engine) : (s.setEng e x).mem = s.mem := rfl
@[simp] theorem State.setEng_mram (s : State) (e : Fin 128) (x : Engine) : (s.setEng e x).mram = s.mram := rfl
@[simp] theorem State.setEng_fd (s : State) (e : Fin 128) (x : Engine) : (s.setEng e x).fd = s.fd := rfl
@[simp] theorem State.setEng_keeper (s : State) (e : Fin 128) (x : Engine) : (s.setEng e x).keeper = s.keeper := rfl
@[simp] theorem State.setEng_power (s : State) (e : Fin 128) (x : Engine) : (s.setEng e x).power = s.power := rfl
@[simp] theorem State.setEng_therm (s : State) (e : Fin 128) (x : Engine) : (s.setEng e x).therm = s.therm := rfl
@[simp] theorem State.setEng_pfe (s : State) (e : Fin 128) (x : Engine) : (s.setEng e x).pfe = s.pfe := rfl
@[simp] theorem State.setEng_free (s : State) (e : Fin 128) (x : Engine) : (s.setEng e x).free = s.free := rfl
@[simp] theorem State.setEng_lastStatus (s : State) (e : Fin 128) (x : Engine) : (s.setEng e x).lastStatus = s.lastStatus := rfl
@[simp] theorem State.setEng_pending (s : State) (e : Fin 128) (x : Engine) : (s.setEng e x).pending = s.pending := rfl

/-! ### State.modEng changes `engines` alone. -/

@[simp] theorem State.modEng_params (s : State) (e : Fin 128) (f : Engine → Engine) : (s.modEng e f).params = s.params := rfl
@[simp] theorem State.modEng_time (s : State) (e : Fin 128) (f : Engine → Engine) : (s.modEng e f).time = s.time := rfl
@[simp] theorem State.modEng_chans (s : State) (e : Fin 128) (f : Engine → Engine) : (s.modEng e f).chans = s.chans := rfl
@[simp] theorem State.modEng_tiles (s : State) (e : Fin 128) (f : Engine → Engine) : (s.modEng e f).tiles = s.tiles := rfl
@[simp] theorem State.modEng_ref (s : State) (e : Fin 128) (f : Engine → Engine) : (s.modEng e f).ref = s.ref := rfl
@[simp] theorem State.modEng_acq (s : State) (e : Fin 128) (f : Engine → Engine) : (s.modEng e f).acq = s.acq := rfl
@[simp] theorem State.modEng_red (s : State) (e : Fin 128) (f : Engine → Engine) : (s.modEng e f).red = s.red := rfl
@[simp] theorem State.modEng_porter (s : State) (e : Fin 128) (f : Engine → Engine) : (s.modEng e f).porter = s.porter := rfl
@[simp] theorem State.modEng_comp (s : State) (e : Fin 128) (f : Engine → Engine) : (s.modEng e f).comp = s.comp := rfl
@[simp] theorem State.modEng_ports (s : State) (e : Fin 128) (f : Engine → Engine) : (s.modEng e f).ports = s.ports := rfl
@[simp] theorem State.modEng_lanes (s : State) (e : Fin 128) (f : Engine → Engine) : (s.modEng e f).lanes = s.lanes := rfl
@[simp] theorem State.modEng_mem (s : State) (e : Fin 128) (f : Engine → Engine) : (s.modEng e f).mem = s.mem := rfl
@[simp] theorem State.modEng_mram (s : State) (e : Fin 128) (f : Engine → Engine) : (s.modEng e f).mram = s.mram := rfl
@[simp] theorem State.modEng_fd (s : State) (e : Fin 128) (f : Engine → Engine) : (s.modEng e f).fd = s.fd := rfl
@[simp] theorem State.modEng_keeper (s : State) (e : Fin 128) (f : Engine → Engine) : (s.modEng e f).keeper = s.keeper := rfl
@[simp] theorem State.modEng_power (s : State) (e : Fin 128) (f : Engine → Engine) : (s.modEng e f).power = s.power := rfl
@[simp] theorem State.modEng_therm (s : State) (e : Fin 128) (f : Engine → Engine) : (s.modEng e f).therm = s.therm := rfl
@[simp] theorem State.modEng_pfe (s : State) (e : Fin 128) (f : Engine → Engine) : (s.modEng e f).pfe = s.pfe := rfl
@[simp] theorem State.modEng_free (s : State) (e : Fin 128) (f : Engine → Engine) : (s.modEng e f).free = s.free := rfl
@[simp] theorem State.modEng_lastStatus (s : State) (e : Fin 128) (f : Engine → Engine) : (s.modEng e f).lastStatus = s.lastStatus := rfl
@[simp] theorem State.modEng_pending (s : State) (e : Fin 128) (f : Engine → Engine) : (s.modEng e f).pending = s.pending := rfl

/-! ### State.setPort changes `ports` alone. -/

@[simp] theorem State.setPort_params (s : State) (p : Fin 18) (x : Port) : (s.setPort p x).params = s.params := rfl
@[simp] theorem State.setPort_time (s : State) (p : Fin 18) (x : Port) : (s.setPort p x).time = s.time := rfl
@[simp] theorem State.setPort_chans (s : State) (p : Fin 18) (x : Port) : (s.setPort p x).chans = s.chans := rfl
@[simp] theorem State.setPort_tiles (s : State) (p : Fin 18) (x : Port) : (s.setPort p x).tiles = s.tiles := rfl
@[simp] theorem State.setPort_engines (s : State) (p : Fin 18) (x : Port) : (s.setPort p x).engines = s.engines := rfl
@[simp] theorem State.setPort_ref (s : State) (p : Fin 18) (x : Port) : (s.setPort p x).ref = s.ref := rfl
@[simp] theorem State.setPort_acq (s : State) (p : Fin 18) (x : Port) : (s.setPort p x).acq = s.acq := rfl
@[simp] theorem State.setPort_red (s : State) (p : Fin 18) (x : Port) : (s.setPort p x).red = s.red := rfl
@[simp] theorem State.setPort_porter (s : State) (p : Fin 18) (x : Port) : (s.setPort p x).porter = s.porter := rfl
@[simp] theorem State.setPort_comp (s : State) (p : Fin 18) (x : Port) : (s.setPort p x).comp = s.comp := rfl
@[simp] theorem State.setPort_lanes (s : State) (p : Fin 18) (x : Port) : (s.setPort p x).lanes = s.lanes := rfl
@[simp] theorem State.setPort_mem (s : State) (p : Fin 18) (x : Port) : (s.setPort p x).mem = s.mem := rfl
@[simp] theorem State.setPort_mram (s : State) (p : Fin 18) (x : Port) : (s.setPort p x).mram = s.mram := rfl
@[simp] theorem State.setPort_fd (s : State) (p : Fin 18) (x : Port) : (s.setPort p x).fd = s.fd := rfl
@[simp] theorem State.setPort_keeper (s : State) (p : Fin 18) (x : Port) : (s.setPort p x).keeper = s.keeper := rfl
@[simp] theorem State.setPort_power (s : State) (p : Fin 18) (x : Port) : (s.setPort p x).power = s.power := rfl
@[simp] theorem State.setPort_therm (s : State) (p : Fin 18) (x : Port) : (s.setPort p x).therm = s.therm := rfl
@[simp] theorem State.setPort_pfe (s : State) (p : Fin 18) (x : Port) : (s.setPort p x).pfe = s.pfe := rfl
@[simp] theorem State.setPort_free (s : State) (p : Fin 18) (x : Port) : (s.setPort p x).free = s.free := rfl
@[simp] theorem State.setPort_lastStatus (s : State) (p : Fin 18) (x : Port) : (s.setPort p x).lastStatus = s.lastStatus := rfl
@[simp] theorem State.setPort_pending (s : State) (p : Fin 18) (x : Port) : (s.setPort p x).pending = s.pending := rfl

/-! ### State.modPort changes `ports` alone. -/

@[simp] theorem State.modPort_params (s : State) (p : Fin 18) (f : Port → Port) : (s.modPort p f).params = s.params := rfl
@[simp] theorem State.modPort_time (s : State) (p : Fin 18) (f : Port → Port) : (s.modPort p f).time = s.time := rfl
@[simp] theorem State.modPort_chans (s : State) (p : Fin 18) (f : Port → Port) : (s.modPort p f).chans = s.chans := rfl
@[simp] theorem State.modPort_tiles (s : State) (p : Fin 18) (f : Port → Port) : (s.modPort p f).tiles = s.tiles := rfl
@[simp] theorem State.modPort_engines (s : State) (p : Fin 18) (f : Port → Port) : (s.modPort p f).engines = s.engines := rfl
@[simp] theorem State.modPort_ref (s : State) (p : Fin 18) (f : Port → Port) : (s.modPort p f).ref = s.ref := rfl
@[simp] theorem State.modPort_acq (s : State) (p : Fin 18) (f : Port → Port) : (s.modPort p f).acq = s.acq := rfl
@[simp] theorem State.modPort_red (s : State) (p : Fin 18) (f : Port → Port) : (s.modPort p f).red = s.red := rfl
@[simp] theorem State.modPort_porter (s : State) (p : Fin 18) (f : Port → Port) : (s.modPort p f).porter = s.porter := rfl
@[simp] theorem State.modPort_comp (s : State) (p : Fin 18) (f : Port → Port) : (s.modPort p f).comp = s.comp := rfl
@[simp] theorem State.modPort_lanes (s : State) (p : Fin 18) (f : Port → Port) : (s.modPort p f).lanes = s.lanes := rfl
@[simp] theorem State.modPort_mem (s : State) (p : Fin 18) (f : Port → Port) : (s.modPort p f).mem = s.mem := rfl
@[simp] theorem State.modPort_mram (s : State) (p : Fin 18) (f : Port → Port) : (s.modPort p f).mram = s.mram := rfl
@[simp] theorem State.modPort_fd (s : State) (p : Fin 18) (f : Port → Port) : (s.modPort p f).fd = s.fd := rfl
@[simp] theorem State.modPort_keeper (s : State) (p : Fin 18) (f : Port → Port) : (s.modPort p f).keeper = s.keeper := rfl
@[simp] theorem State.modPort_power (s : State) (p : Fin 18) (f : Port → Port) : (s.modPort p f).power = s.power := rfl
@[simp] theorem State.modPort_therm (s : State) (p : Fin 18) (f : Port → Port) : (s.modPort p f).therm = s.therm := rfl
@[simp] theorem State.modPort_pfe (s : State) (p : Fin 18) (f : Port → Port) : (s.modPort p f).pfe = s.pfe := rfl
@[simp] theorem State.modPort_free (s : State) (p : Fin 18) (f : Port → Port) : (s.modPort p f).free = s.free := rfl
@[simp] theorem State.modPort_lastStatus (s : State) (p : Fin 18) (f : Port → Port) : (s.modPort p f).lastStatus = s.lastStatus := rfl
@[simp] theorem State.modPort_pending (s : State) (p : Fin 18) (f : Port → Port) : (s.modPort p f).pending = s.pending := rfl

/-! ### State.modFd changes `fd` alone. -/

@[simp] theorem State.modFd_params (s : State) (f : FrontDesk → FrontDesk) : (s.modFd f).params = s.params := rfl
@[simp] theorem State.modFd_time (s : State) (f : FrontDesk → FrontDesk) : (s.modFd f).time = s.time := rfl
@[simp] theorem State.modFd_chans (s : State) (f : FrontDesk → FrontDesk) : (s.modFd f).chans = s.chans := rfl
@[simp] theorem State.modFd_tiles (s : State) (f : FrontDesk → FrontDesk) : (s.modFd f).tiles = s.tiles := rfl
@[simp] theorem State.modFd_engines (s : State) (f : FrontDesk → FrontDesk) : (s.modFd f).engines = s.engines := rfl
@[simp] theorem State.modFd_ref (s : State) (f : FrontDesk → FrontDesk) : (s.modFd f).ref = s.ref := rfl
@[simp] theorem State.modFd_acq (s : State) (f : FrontDesk → FrontDesk) : (s.modFd f).acq = s.acq := rfl
@[simp] theorem State.modFd_red (s : State) (f : FrontDesk → FrontDesk) : (s.modFd f).red = s.red := rfl
@[simp] theorem State.modFd_porter (s : State) (f : FrontDesk → FrontDesk) : (s.modFd f).porter = s.porter := rfl
@[simp] theorem State.modFd_comp (s : State) (f : FrontDesk → FrontDesk) : (s.modFd f).comp = s.comp := rfl
@[simp] theorem State.modFd_ports (s : State) (f : FrontDesk → FrontDesk) : (s.modFd f).ports = s.ports := rfl
@[simp] theorem State.modFd_lanes (s : State) (f : FrontDesk → FrontDesk) : (s.modFd f).lanes = s.lanes := rfl
@[simp] theorem State.modFd_mem (s : State) (f : FrontDesk → FrontDesk) : (s.modFd f).mem = s.mem := rfl
@[simp] theorem State.modFd_mram (s : State) (f : FrontDesk → FrontDesk) : (s.modFd f).mram = s.mram := rfl
@[simp] theorem State.modFd_keeper (s : State) (f : FrontDesk → FrontDesk) : (s.modFd f).keeper = s.keeper := rfl
@[simp] theorem State.modFd_power (s : State) (f : FrontDesk → FrontDesk) : (s.modFd f).power = s.power := rfl
@[simp] theorem State.modFd_therm (s : State) (f : FrontDesk → FrontDesk) : (s.modFd f).therm = s.therm := rfl
@[simp] theorem State.modFd_pfe (s : State) (f : FrontDesk → FrontDesk) : (s.modFd f).pfe = s.pfe := rfl
@[simp] theorem State.modFd_free (s : State) (f : FrontDesk → FrontDesk) : (s.modFd f).free = s.free := rfl
@[simp] theorem State.modFd_lastStatus (s : State) (f : FrontDesk → FrontDesk) : (s.modFd f).lastStatus = s.lastStatus := rfl
@[simp] theorem State.modFd_pending (s : State) (f : FrontDesk → FrontDesk) : (s.modFd f).pending = s.pending := rfl

/-! ### State.modKeeper changes `keeper` alone. -/

@[simp] theorem State.modKeeper_params (s : State) (f : Keeper → Keeper) : (s.modKeeper f).params = s.params := rfl
@[simp] theorem State.modKeeper_time (s : State) (f : Keeper → Keeper) : (s.modKeeper f).time = s.time := rfl
@[simp] theorem State.modKeeper_chans (s : State) (f : Keeper → Keeper) : (s.modKeeper f).chans = s.chans := rfl
@[simp] theorem State.modKeeper_tiles (s : State) (f : Keeper → Keeper) : (s.modKeeper f).tiles = s.tiles := rfl
@[simp] theorem State.modKeeper_engines (s : State) (f : Keeper → Keeper) : (s.modKeeper f).engines = s.engines := rfl
@[simp] theorem State.modKeeper_ref (s : State) (f : Keeper → Keeper) : (s.modKeeper f).ref = s.ref := rfl
@[simp] theorem State.modKeeper_acq (s : State) (f : Keeper → Keeper) : (s.modKeeper f).acq = s.acq := rfl
@[simp] theorem State.modKeeper_red (s : State) (f : Keeper → Keeper) : (s.modKeeper f).red = s.red := rfl
@[simp] theorem State.modKeeper_porter (s : State) (f : Keeper → Keeper) : (s.modKeeper f).porter = s.porter := rfl
@[simp] theorem State.modKeeper_comp (s : State) (f : Keeper → Keeper) : (s.modKeeper f).comp = s.comp := rfl
@[simp] theorem State.modKeeper_ports (s : State) (f : Keeper → Keeper) : (s.modKeeper f).ports = s.ports := rfl
@[simp] theorem State.modKeeper_lanes (s : State) (f : Keeper → Keeper) : (s.modKeeper f).lanes = s.lanes := rfl
@[simp] theorem State.modKeeper_mem (s : State) (f : Keeper → Keeper) : (s.modKeeper f).mem = s.mem := rfl
@[simp] theorem State.modKeeper_mram (s : State) (f : Keeper → Keeper) : (s.modKeeper f).mram = s.mram := rfl
@[simp] theorem State.modKeeper_fd (s : State) (f : Keeper → Keeper) : (s.modKeeper f).fd = s.fd := rfl
@[simp] theorem State.modKeeper_power (s : State) (f : Keeper → Keeper) : (s.modKeeper f).power = s.power := rfl
@[simp] theorem State.modKeeper_therm (s : State) (f : Keeper → Keeper) : (s.modKeeper f).therm = s.therm := rfl
@[simp] theorem State.modKeeper_pfe (s : State) (f : Keeper → Keeper) : (s.modKeeper f).pfe = s.pfe := rfl
@[simp] theorem State.modKeeper_free (s : State) (f : Keeper → Keeper) : (s.modKeeper f).free = s.free := rfl
@[simp] theorem State.modKeeper_lastStatus (s : State) (f : Keeper → Keeper) : (s.modKeeper f).lastStatus = s.lastStatus := rfl
@[simp] theorem State.modKeeper_pending (s : State) (f : Keeper → Keeper) : (s.modKeeper f).pending = s.pending := rfl

/-! ### State.modMram changes `mram` alone. -/

@[simp] theorem State.modMram_params (s : State) (f : Mram → Mram) : (s.modMram f).params = s.params := rfl
@[simp] theorem State.modMram_time (s : State) (f : Mram → Mram) : (s.modMram f).time = s.time := rfl
@[simp] theorem State.modMram_chans (s : State) (f : Mram → Mram) : (s.modMram f).chans = s.chans := rfl
@[simp] theorem State.modMram_tiles (s : State) (f : Mram → Mram) : (s.modMram f).tiles = s.tiles := rfl
@[simp] theorem State.modMram_engines (s : State) (f : Mram → Mram) : (s.modMram f).engines = s.engines := rfl
@[simp] theorem State.modMram_ref (s : State) (f : Mram → Mram) : (s.modMram f).ref = s.ref := rfl
@[simp] theorem State.modMram_acq (s : State) (f : Mram → Mram) : (s.modMram f).acq = s.acq := rfl
@[simp] theorem State.modMram_red (s : State) (f : Mram → Mram) : (s.modMram f).red = s.red := rfl
@[simp] theorem State.modMram_porter (s : State) (f : Mram → Mram) : (s.modMram f).porter = s.porter := rfl
@[simp] theorem State.modMram_comp (s : State) (f : Mram → Mram) : (s.modMram f).comp = s.comp := rfl
@[simp] theorem State.modMram_ports (s : State) (f : Mram → Mram) : (s.modMram f).ports = s.ports := rfl
@[simp] theorem State.modMram_lanes (s : State) (f : Mram → Mram) : (s.modMram f).lanes = s.lanes := rfl
@[simp] theorem State.modMram_mem (s : State) (f : Mram → Mram) : (s.modMram f).mem = s.mem := rfl
@[simp] theorem State.modMram_fd (s : State) (f : Mram → Mram) : (s.modMram f).fd = s.fd := rfl
@[simp] theorem State.modMram_keeper (s : State) (f : Mram → Mram) : (s.modMram f).keeper = s.keeper := rfl
@[simp] theorem State.modMram_power (s : State) (f : Mram → Mram) : (s.modMram f).power = s.power := rfl
@[simp] theorem State.modMram_therm (s : State) (f : Mram → Mram) : (s.modMram f).therm = s.therm := rfl
@[simp] theorem State.modMram_pfe (s : State) (f : Mram → Mram) : (s.modMram f).pfe = s.pfe := rfl
@[simp] theorem State.modMram_free (s : State) (f : Mram → Mram) : (s.modMram f).free = s.free := rfl
@[simp] theorem State.modMram_lastStatus (s : State) (f : Mram → Mram) : (s.modMram f).lastStatus = s.lastStatus := rfl
@[simp] theorem State.modMram_pending (s : State) (f : Mram → Mram) : (s.modMram f).pending = s.pending := rfl

/-! ### State.modRef changes `ref` alone. -/

@[simp] theorem State.modRef_params (s : State) (f : RefBlock → RefBlock) : (s.modRef f).params = s.params := rfl
@[simp] theorem State.modRef_time (s : State) (f : RefBlock → RefBlock) : (s.modRef f).time = s.time := rfl
@[simp] theorem State.modRef_chans (s : State) (f : RefBlock → RefBlock) : (s.modRef f).chans = s.chans := rfl
@[simp] theorem State.modRef_tiles (s : State) (f : RefBlock → RefBlock) : (s.modRef f).tiles = s.tiles := rfl
@[simp] theorem State.modRef_engines (s : State) (f : RefBlock → RefBlock) : (s.modRef f).engines = s.engines := rfl
@[simp] theorem State.modRef_acq (s : State) (f : RefBlock → RefBlock) : (s.modRef f).acq = s.acq := rfl
@[simp] theorem State.modRef_red (s : State) (f : RefBlock → RefBlock) : (s.modRef f).red = s.red := rfl
@[simp] theorem State.modRef_porter (s : State) (f : RefBlock → RefBlock) : (s.modRef f).porter = s.porter := rfl
@[simp] theorem State.modRef_comp (s : State) (f : RefBlock → RefBlock) : (s.modRef f).comp = s.comp := rfl
@[simp] theorem State.modRef_ports (s : State) (f : RefBlock → RefBlock) : (s.modRef f).ports = s.ports := rfl
@[simp] theorem State.modRef_lanes (s : State) (f : RefBlock → RefBlock) : (s.modRef f).lanes = s.lanes := rfl
@[simp] theorem State.modRef_mem (s : State) (f : RefBlock → RefBlock) : (s.modRef f).mem = s.mem := rfl
@[simp] theorem State.modRef_mram (s : State) (f : RefBlock → RefBlock) : (s.modRef f).mram = s.mram := rfl
@[simp] theorem State.modRef_fd (s : State) (f : RefBlock → RefBlock) : (s.modRef f).fd = s.fd := rfl
@[simp] theorem State.modRef_keeper (s : State) (f : RefBlock → RefBlock) : (s.modRef f).keeper = s.keeper := rfl
@[simp] theorem State.modRef_power (s : State) (f : RefBlock → RefBlock) : (s.modRef f).power = s.power := rfl
@[simp] theorem State.modRef_therm (s : State) (f : RefBlock → RefBlock) : (s.modRef f).therm = s.therm := rfl
@[simp] theorem State.modRef_pfe (s : State) (f : RefBlock → RefBlock) : (s.modRef f).pfe = s.pfe := rfl
@[simp] theorem State.modRef_free (s : State) (f : RefBlock → RefBlock) : (s.modRef f).free = s.free := rfl
@[simp] theorem State.modRef_lastStatus (s : State) (f : RefBlock → RefBlock) : (s.modRef f).lastStatus = s.lastStatus := rfl
@[simp] theorem State.modRef_pending (s : State) (f : RefBlock → RefBlock) : (s.modRef f).pending = s.pending := rfl

/-! ### State.modPorter changes `porter` alone. -/

@[simp] theorem State.modPorter_params (s : State) (f : Porter → Porter) : (s.modPorter f).params = s.params := rfl
@[simp] theorem State.modPorter_time (s : State) (f : Porter → Porter) : (s.modPorter f).time = s.time := rfl
@[simp] theorem State.modPorter_chans (s : State) (f : Porter → Porter) : (s.modPorter f).chans = s.chans := rfl
@[simp] theorem State.modPorter_tiles (s : State) (f : Porter → Porter) : (s.modPorter f).tiles = s.tiles := rfl
@[simp] theorem State.modPorter_engines (s : State) (f : Porter → Porter) : (s.modPorter f).engines = s.engines := rfl
@[simp] theorem State.modPorter_ref (s : State) (f : Porter → Porter) : (s.modPorter f).ref = s.ref := rfl
@[simp] theorem State.modPorter_acq (s : State) (f : Porter → Porter) : (s.modPorter f).acq = s.acq := rfl
@[simp] theorem State.modPorter_red (s : State) (f : Porter → Porter) : (s.modPorter f).red = s.red := rfl
@[simp] theorem State.modPorter_comp (s : State) (f : Porter → Porter) : (s.modPorter f).comp = s.comp := rfl
@[simp] theorem State.modPorter_ports (s : State) (f : Porter → Porter) : (s.modPorter f).ports = s.ports := rfl
@[simp] theorem State.modPorter_lanes (s : State) (f : Porter → Porter) : (s.modPorter f).lanes = s.lanes := rfl
@[simp] theorem State.modPorter_mem (s : State) (f : Porter → Porter) : (s.modPorter f).mem = s.mem := rfl
@[simp] theorem State.modPorter_mram (s : State) (f : Porter → Porter) : (s.modPorter f).mram = s.mram := rfl
@[simp] theorem State.modPorter_fd (s : State) (f : Porter → Porter) : (s.modPorter f).fd = s.fd := rfl
@[simp] theorem State.modPorter_keeper (s : State) (f : Porter → Porter) : (s.modPorter f).keeper = s.keeper := rfl
@[simp] theorem State.modPorter_power (s : State) (f : Porter → Porter) : (s.modPorter f).power = s.power := rfl
@[simp] theorem State.modPorter_therm (s : State) (f : Porter → Porter) : (s.modPorter f).therm = s.therm := rfl
@[simp] theorem State.modPorter_pfe (s : State) (f : Porter → Porter) : (s.modPorter f).pfe = s.pfe := rfl
@[simp] theorem State.modPorter_free (s : State) (f : Porter → Porter) : (s.modPorter f).free = s.free := rfl
@[simp] theorem State.modPorter_lastStatus (s : State) (f : Porter → Porter) : (s.modPorter f).lastStatus = s.lastStatus := rfl
@[simp] theorem State.modPorter_pending (s : State) (f : Porter → Porter) : (s.modPorter f).pending = s.pending := rfl

/-! ### State.modComp changes `comp` alone. -/

@[simp] theorem State.modComp_params (s : State) (f : Compression → Compression) : (s.modComp f).params = s.params := rfl
@[simp] theorem State.modComp_time (s : State) (f : Compression → Compression) : (s.modComp f).time = s.time := rfl
@[simp] theorem State.modComp_chans (s : State) (f : Compression → Compression) : (s.modComp f).chans = s.chans := rfl
@[simp] theorem State.modComp_tiles (s : State) (f : Compression → Compression) : (s.modComp f).tiles = s.tiles := rfl
@[simp] theorem State.modComp_engines (s : State) (f : Compression → Compression) : (s.modComp f).engines = s.engines := rfl
@[simp] theorem State.modComp_ref (s : State) (f : Compression → Compression) : (s.modComp f).ref = s.ref := rfl
@[simp] theorem State.modComp_acq (s : State) (f : Compression → Compression) : (s.modComp f).acq = s.acq := rfl
@[simp] theorem State.modComp_red (s : State) (f : Compression → Compression) : (s.modComp f).red = s.red := rfl
@[simp] theorem State.modComp_porter (s : State) (f : Compression → Compression) : (s.modComp f).porter = s.porter := rfl
@[simp] theorem State.modComp_ports (s : State) (f : Compression → Compression) : (s.modComp f).ports = s.ports := rfl
@[simp] theorem State.modComp_lanes (s : State) (f : Compression → Compression) : (s.modComp f).lanes = s.lanes := rfl
@[simp] theorem State.modComp_mem (s : State) (f : Compression → Compression) : (s.modComp f).mem = s.mem := rfl
@[simp] theorem State.modComp_mram (s : State) (f : Compression → Compression) : (s.modComp f).mram = s.mram := rfl
@[simp] theorem State.modComp_fd (s : State) (f : Compression → Compression) : (s.modComp f).fd = s.fd := rfl
@[simp] theorem State.modComp_keeper (s : State) (f : Compression → Compression) : (s.modComp f).keeper = s.keeper := rfl
@[simp] theorem State.modComp_power (s : State) (f : Compression → Compression) : (s.modComp f).power = s.power := rfl
@[simp] theorem State.modComp_therm (s : State) (f : Compression → Compression) : (s.modComp f).therm = s.therm := rfl
@[simp] theorem State.modComp_pfe (s : State) (f : Compression → Compression) : (s.modComp f).pfe = s.pfe := rfl
@[simp] theorem State.modComp_free (s : State) (f : Compression → Compression) : (s.modComp f).free = s.free := rfl
@[simp] theorem State.modComp_lastStatus (s : State) (f : Compression → Compression) : (s.modComp f).lastStatus = s.lastStatus := rfl
@[simp] theorem State.modComp_pending (s : State) (f : Compression → Compression) : (s.modComp f).pending = s.pending := rfl

/-! ### State.modPfe changes `pfe` alone. -/

@[simp] theorem State.modPfe_params (s : State) (f : Pfe → Pfe) : (s.modPfe f).params = s.params := rfl
@[simp] theorem State.modPfe_time (s : State) (f : Pfe → Pfe) : (s.modPfe f).time = s.time := rfl
@[simp] theorem State.modPfe_chans (s : State) (f : Pfe → Pfe) : (s.modPfe f).chans = s.chans := rfl
@[simp] theorem State.modPfe_tiles (s : State) (f : Pfe → Pfe) : (s.modPfe f).tiles = s.tiles := rfl
@[simp] theorem State.modPfe_engines (s : State) (f : Pfe → Pfe) : (s.modPfe f).engines = s.engines := rfl
@[simp] theorem State.modPfe_ref (s : State) (f : Pfe → Pfe) : (s.modPfe f).ref = s.ref := rfl
@[simp] theorem State.modPfe_acq (s : State) (f : Pfe → Pfe) : (s.modPfe f).acq = s.acq := rfl
@[simp] theorem State.modPfe_red (s : State) (f : Pfe → Pfe) : (s.modPfe f).red = s.red := rfl
@[simp] theorem State.modPfe_porter (s : State) (f : Pfe → Pfe) : (s.modPfe f).porter = s.porter := rfl
@[simp] theorem State.modPfe_comp (s : State) (f : Pfe → Pfe) : (s.modPfe f).comp = s.comp := rfl
@[simp] theorem State.modPfe_ports (s : State) (f : Pfe → Pfe) : (s.modPfe f).ports = s.ports := rfl
@[simp] theorem State.modPfe_lanes (s : State) (f : Pfe → Pfe) : (s.modPfe f).lanes = s.lanes := rfl
@[simp] theorem State.modPfe_mem (s : State) (f : Pfe → Pfe) : (s.modPfe f).mem = s.mem := rfl
@[simp] theorem State.modPfe_mram (s : State) (f : Pfe → Pfe) : (s.modPfe f).mram = s.mram := rfl
@[simp] theorem State.modPfe_fd (s : State) (f : Pfe → Pfe) : (s.modPfe f).fd = s.fd := rfl
@[simp] theorem State.modPfe_keeper (s : State) (f : Pfe → Pfe) : (s.modPfe f).keeper = s.keeper := rfl
@[simp] theorem State.modPfe_power (s : State) (f : Pfe → Pfe) : (s.modPfe f).power = s.power := rfl
@[simp] theorem State.modPfe_therm (s : State) (f : Pfe → Pfe) : (s.modPfe f).therm = s.therm := rfl
@[simp] theorem State.modPfe_free (s : State) (f : Pfe → Pfe) : (s.modPfe f).free = s.free := rfl
@[simp] theorem State.modPfe_lastStatus (s : State) (f : Pfe → Pfe) : (s.modPfe f).lastStatus = s.lastStatus := rfl
@[simp] theorem State.modPfe_pending (s : State) (f : Pfe → Pfe) : (s.modPfe f).pending = s.pending := rfl

/-! ### State.modTherm changes `therm` alone. -/

@[simp] theorem State.modTherm_params (s : State) (f : Thermal → Thermal) : (s.modTherm f).params = s.params := rfl
@[simp] theorem State.modTherm_time (s : State) (f : Thermal → Thermal) : (s.modTherm f).time = s.time := rfl
@[simp] theorem State.modTherm_chans (s : State) (f : Thermal → Thermal) : (s.modTherm f).chans = s.chans := rfl
@[simp] theorem State.modTherm_tiles (s : State) (f : Thermal → Thermal) : (s.modTherm f).tiles = s.tiles := rfl
@[simp] theorem State.modTherm_engines (s : State) (f : Thermal → Thermal) : (s.modTherm f).engines = s.engines := rfl
@[simp] theorem State.modTherm_ref (s : State) (f : Thermal → Thermal) : (s.modTherm f).ref = s.ref := rfl
@[simp] theorem State.modTherm_acq (s : State) (f : Thermal → Thermal) : (s.modTherm f).acq = s.acq := rfl
@[simp] theorem State.modTherm_red (s : State) (f : Thermal → Thermal) : (s.modTherm f).red = s.red := rfl
@[simp] theorem State.modTherm_porter (s : State) (f : Thermal → Thermal) : (s.modTherm f).porter = s.porter := rfl
@[simp] theorem State.modTherm_comp (s : State) (f : Thermal → Thermal) : (s.modTherm f).comp = s.comp := rfl
@[simp] theorem State.modTherm_ports (s : State) (f : Thermal → Thermal) : (s.modTherm f).ports = s.ports := rfl
@[simp] theorem State.modTherm_lanes (s : State) (f : Thermal → Thermal) : (s.modTherm f).lanes = s.lanes := rfl
@[simp] theorem State.modTherm_mem (s : State) (f : Thermal → Thermal) : (s.modTherm f).mem = s.mem := rfl
@[simp] theorem State.modTherm_mram (s : State) (f : Thermal → Thermal) : (s.modTherm f).mram = s.mram := rfl
@[simp] theorem State.modTherm_fd (s : State) (f : Thermal → Thermal) : (s.modTherm f).fd = s.fd := rfl
@[simp] theorem State.modTherm_keeper (s : State) (f : Thermal → Thermal) : (s.modTherm f).keeper = s.keeper := rfl
@[simp] theorem State.modTherm_power (s : State) (f : Thermal → Thermal) : (s.modTherm f).power = s.power := rfl
@[simp] theorem State.modTherm_pfe (s : State) (f : Thermal → Thermal) : (s.modTherm f).pfe = s.pfe := rfl
@[simp] theorem State.modTherm_free (s : State) (f : Thermal → Thermal) : (s.modTherm f).free = s.free := rfl
@[simp] theorem State.modTherm_lastStatus (s : State) (f : Thermal → Thermal) : (s.modTherm f).lastStatus = s.lastStatus := rfl
@[simp] theorem State.modTherm_pending (s : State) (f : Thermal → Thermal) : (s.modTherm f).pending = s.pending := rfl

/-! ### State.setMem changes `mem` alone. -/

@[simp] theorem State.setMem_params (s : State) (m : ExtMem) : (s.setMem m).params = s.params := rfl
@[simp] theorem State.setMem_time (s : State) (m : ExtMem) : (s.setMem m).time = s.time := rfl
@[simp] theorem State.setMem_chans (s : State) (m : ExtMem) : (s.setMem m).chans = s.chans := rfl
@[simp] theorem State.setMem_tiles (s : State) (m : ExtMem) : (s.setMem m).tiles = s.tiles := rfl
@[simp] theorem State.setMem_engines (s : State) (m : ExtMem) : (s.setMem m).engines = s.engines := rfl
@[simp] theorem State.setMem_ref (s : State) (m : ExtMem) : (s.setMem m).ref = s.ref := rfl
@[simp] theorem State.setMem_acq (s : State) (m : ExtMem) : (s.setMem m).acq = s.acq := rfl
@[simp] theorem State.setMem_red (s : State) (m : ExtMem) : (s.setMem m).red = s.red := rfl
@[simp] theorem State.setMem_porter (s : State) (m : ExtMem) : (s.setMem m).porter = s.porter := rfl
@[simp] theorem State.setMem_comp (s : State) (m : ExtMem) : (s.setMem m).comp = s.comp := rfl
@[simp] theorem State.setMem_ports (s : State) (m : ExtMem) : (s.setMem m).ports = s.ports := rfl
@[simp] theorem State.setMem_lanes (s : State) (m : ExtMem) : (s.setMem m).lanes = s.lanes := rfl
@[simp] theorem State.setMem_mram (s : State) (m : ExtMem) : (s.setMem m).mram = s.mram := rfl
@[simp] theorem State.setMem_fd (s : State) (m : ExtMem) : (s.setMem m).fd = s.fd := rfl
@[simp] theorem State.setMem_keeper (s : State) (m : ExtMem) : (s.setMem m).keeper = s.keeper := rfl
@[simp] theorem State.setMem_power (s : State) (m : ExtMem) : (s.setMem m).power = s.power := rfl
@[simp] theorem State.setMem_therm (s : State) (m : ExtMem) : (s.setMem m).therm = s.therm := rfl
@[simp] theorem State.setMem_pfe (s : State) (m : ExtMem) : (s.setMem m).pfe = s.pfe := rfl
@[simp] theorem State.setMem_free (s : State) (m : ExtMem) : (s.setMem m).free = s.free := rfl
@[simp] theorem State.setMem_lastStatus (s : State) (m : ExtMem) : (s.setMem m).lastStatus = s.lastStatus := rfl
@[simp] theorem State.setMem_pending (s : State) (m : ExtMem) : (s.setMem m).pending = s.pending := rfl

/-! ### State.setTime changes `time` alone. -/

@[simp] theorem State.setTime_params (s : State) (x : TimeState) : (s.setTime x).params = s.params := rfl
@[simp] theorem State.setTime_chans (s : State) (x : TimeState) : (s.setTime x).chans = s.chans := rfl
@[simp] theorem State.setTime_tiles (s : State) (x : TimeState) : (s.setTime x).tiles = s.tiles := rfl
@[simp] theorem State.setTime_engines (s : State) (x : TimeState) : (s.setTime x).engines = s.engines := rfl
@[simp] theorem State.setTime_ref (s : State) (x : TimeState) : (s.setTime x).ref = s.ref := rfl
@[simp] theorem State.setTime_acq (s : State) (x : TimeState) : (s.setTime x).acq = s.acq := rfl
@[simp] theorem State.setTime_red (s : State) (x : TimeState) : (s.setTime x).red = s.red := rfl
@[simp] theorem State.setTime_porter (s : State) (x : TimeState) : (s.setTime x).porter = s.porter := rfl
@[simp] theorem State.setTime_comp (s : State) (x : TimeState) : (s.setTime x).comp = s.comp := rfl
@[simp] theorem State.setTime_ports (s : State) (x : TimeState) : (s.setTime x).ports = s.ports := rfl
@[simp] theorem State.setTime_lanes (s : State) (x : TimeState) : (s.setTime x).lanes = s.lanes := rfl
@[simp] theorem State.setTime_mem (s : State) (x : TimeState) : (s.setTime x).mem = s.mem := rfl
@[simp] theorem State.setTime_mram (s : State) (x : TimeState) : (s.setTime x).mram = s.mram := rfl
@[simp] theorem State.setTime_fd (s : State) (x : TimeState) : (s.setTime x).fd = s.fd := rfl
@[simp] theorem State.setTime_keeper (s : State) (x : TimeState) : (s.setTime x).keeper = s.keeper := rfl
@[simp] theorem State.setTime_power (s : State) (x : TimeState) : (s.setTime x).power = s.power := rfl
@[simp] theorem State.setTime_therm (s : State) (x : TimeState) : (s.setTime x).therm = s.therm := rfl
@[simp] theorem State.setTime_pfe (s : State) (x : TimeState) : (s.setTime x).pfe = s.pfe := rfl
@[simp] theorem State.setTime_free (s : State) (x : TimeState) : (s.setTime x).free = s.free := rfl
@[simp] theorem State.setTime_lastStatus (s : State) (x : TimeState) : (s.setTime x).lastStatus = s.lastStatus := rfl
@[simp] theorem State.setTime_pending (s : State) (x : TimeState) : (s.setTime x).pending = s.pending := rfl

/-! ### State.modBringup changes `lanes` alone. -/

@[simp] theorem State.modBringup_params (s : State) (p : Fin 18) (f : Bringup → Bringup) : (s.modBringup p f).params = s.params := rfl
@[simp] theorem State.modBringup_time (s : State) (p : Fin 18) (f : Bringup → Bringup) : (s.modBringup p f).time = s.time := rfl
@[simp] theorem State.modBringup_chans (s : State) (p : Fin 18) (f : Bringup → Bringup) : (s.modBringup p f).chans = s.chans := rfl
@[simp] theorem State.modBringup_tiles (s : State) (p : Fin 18) (f : Bringup → Bringup) : (s.modBringup p f).tiles = s.tiles := rfl
@[simp] theorem State.modBringup_engines (s : State) (p : Fin 18) (f : Bringup → Bringup) : (s.modBringup p f).engines = s.engines := rfl
@[simp] theorem State.modBringup_ref (s : State) (p : Fin 18) (f : Bringup → Bringup) : (s.modBringup p f).ref = s.ref := rfl
@[simp] theorem State.modBringup_acq (s : State) (p : Fin 18) (f : Bringup → Bringup) : (s.modBringup p f).acq = s.acq := rfl
@[simp] theorem State.modBringup_red (s : State) (p : Fin 18) (f : Bringup → Bringup) : (s.modBringup p f).red = s.red := rfl
@[simp] theorem State.modBringup_porter (s : State) (p : Fin 18) (f : Bringup → Bringup) : (s.modBringup p f).porter = s.porter := rfl
@[simp] theorem State.modBringup_comp (s : State) (p : Fin 18) (f : Bringup → Bringup) : (s.modBringup p f).comp = s.comp := rfl
@[simp] theorem State.modBringup_ports (s : State) (p : Fin 18) (f : Bringup → Bringup) : (s.modBringup p f).ports = s.ports := rfl
@[simp] theorem State.modBringup_mem (s : State) (p : Fin 18) (f : Bringup → Bringup) : (s.modBringup p f).mem = s.mem := rfl
@[simp] theorem State.modBringup_mram (s : State) (p : Fin 18) (f : Bringup → Bringup) : (s.modBringup p f).mram = s.mram := rfl
@[simp] theorem State.modBringup_fd (s : State) (p : Fin 18) (f : Bringup → Bringup) : (s.modBringup p f).fd = s.fd := rfl
@[simp] theorem State.modBringup_keeper (s : State) (p : Fin 18) (f : Bringup → Bringup) : (s.modBringup p f).keeper = s.keeper := rfl
@[simp] theorem State.modBringup_power (s : State) (p : Fin 18) (f : Bringup → Bringup) : (s.modBringup p f).power = s.power := rfl
@[simp] theorem State.modBringup_therm (s : State) (p : Fin 18) (f : Bringup → Bringup) : (s.modBringup p f).therm = s.therm := rfl
@[simp] theorem State.modBringup_pfe (s : State) (p : Fin 18) (f : Bringup → Bringup) : (s.modBringup p f).pfe = s.pfe := rfl
@[simp] theorem State.modBringup_free (s : State) (p : Fin 18) (f : Bringup → Bringup) : (s.modBringup p f).free = s.free := rfl
@[simp] theorem State.modBringup_lastStatus (s : State) (p : Fin 18) (f : Bringup → Bringup) : (s.modBringup p f).lastStatus = s.lastStatus := rfl
@[simp] theorem State.modBringup_pending (s : State) (p : Fin 18) (f : Bringup → Bringup) : (s.modBringup p f).pending = s.pending := rfl

/-! ### State.modLane changes `lanes` alone. -/

@[simp] theorem State.modLane_params (s : State) (l : Fin 21) (f : Lane → Lane) : (s.modLane l f).params = s.params := rfl
@[simp] theorem State.modLane_time (s : State) (l : Fin 21) (f : Lane → Lane) : (s.modLane l f).time = s.time := rfl
@[simp] theorem State.modLane_chans (s : State) (l : Fin 21) (f : Lane → Lane) : (s.modLane l f).chans = s.chans := rfl
@[simp] theorem State.modLane_tiles (s : State) (l : Fin 21) (f : Lane → Lane) : (s.modLane l f).tiles = s.tiles := rfl
@[simp] theorem State.modLane_engines (s : State) (l : Fin 21) (f : Lane → Lane) : (s.modLane l f).engines = s.engines := rfl
@[simp] theorem State.modLane_ref (s : State) (l : Fin 21) (f : Lane → Lane) : (s.modLane l f).ref = s.ref := rfl
@[simp] theorem State.modLane_acq (s : State) (l : Fin 21) (f : Lane → Lane) : (s.modLane l f).acq = s.acq := rfl
@[simp] theorem State.modLane_red (s : State) (l : Fin 21) (f : Lane → Lane) : (s.modLane l f).red = s.red := rfl
@[simp] theorem State.modLane_porter (s : State) (l : Fin 21) (f : Lane → Lane) : (s.modLane l f).porter = s.porter := rfl
@[simp] theorem State.modLane_comp (s : State) (l : Fin 21) (f : Lane → Lane) : (s.modLane l f).comp = s.comp := rfl
@[simp] theorem State.modLane_ports (s : State) (l : Fin 21) (f : Lane → Lane) : (s.modLane l f).ports = s.ports := rfl
@[simp] theorem State.modLane_mem (s : State) (l : Fin 21) (f : Lane → Lane) : (s.modLane l f).mem = s.mem := rfl
@[simp] theorem State.modLane_mram (s : State) (l : Fin 21) (f : Lane → Lane) : (s.modLane l f).mram = s.mram := rfl
@[simp] theorem State.modLane_fd (s : State) (l : Fin 21) (f : Lane → Lane) : (s.modLane l f).fd = s.fd := rfl
@[simp] theorem State.modLane_keeper (s : State) (l : Fin 21) (f : Lane → Lane) : (s.modLane l f).keeper = s.keeper := rfl
@[simp] theorem State.modLane_power (s : State) (l : Fin 21) (f : Lane → Lane) : (s.modLane l f).power = s.power := rfl
@[simp] theorem State.modLane_therm (s : State) (l : Fin 21) (f : Lane → Lane) : (s.modLane l f).therm = s.therm := rfl
@[simp] theorem State.modLane_pfe (s : State) (l : Fin 21) (f : Lane → Lane) : (s.modLane l f).pfe = s.pfe := rfl
@[simp] theorem State.modLane_free (s : State) (l : Fin 21) (f : Lane → Lane) : (s.modLane l f).free = s.free := rfl
@[simp] theorem State.modLane_lastStatus (s : State) (l : Fin 21) (f : Lane → Lane) : (s.modLane l f).lastStatus = s.lastStatus := rfl
@[simp] theorem State.modLane_pending (s : State) (l : Fin 21) (f : Lane → Lane) : (s.modLane l f).pending = s.pending := rfl

/-! ### State.putRecord changes `fd` alone. -/

@[simp] theorem State.putRecord_params (s : State) (src reason arg : Nat) : (s.putRecord src reason arg).params = s.params := rfl
@[simp] theorem State.putRecord_time (s : State) (src reason arg : Nat) : (s.putRecord src reason arg).time = s.time := rfl
@[simp] theorem State.putRecord_chans (s : State) (src reason arg : Nat) : (s.putRecord src reason arg).chans = s.chans := rfl
@[simp] theorem State.putRecord_tiles (s : State) (src reason arg : Nat) : (s.putRecord src reason arg).tiles = s.tiles := rfl
@[simp] theorem State.putRecord_engines (s : State) (src reason arg : Nat) : (s.putRecord src reason arg).engines = s.engines := rfl
@[simp] theorem State.putRecord_ref (s : State) (src reason arg : Nat) : (s.putRecord src reason arg).ref = s.ref := rfl
@[simp] theorem State.putRecord_acq (s : State) (src reason arg : Nat) : (s.putRecord src reason arg).acq = s.acq := rfl
@[simp] theorem State.putRecord_red (s : State) (src reason arg : Nat) : (s.putRecord src reason arg).red = s.red := rfl
@[simp] theorem State.putRecord_porter (s : State) (src reason arg : Nat) : (s.putRecord src reason arg).porter = s.porter := rfl
@[simp] theorem State.putRecord_comp (s : State) (src reason arg : Nat) : (s.putRecord src reason arg).comp = s.comp := rfl
@[simp] theorem State.putRecord_ports (s : State) (src reason arg : Nat) : (s.putRecord src reason arg).ports = s.ports := rfl
@[simp] theorem State.putRecord_lanes (s : State) (src reason arg : Nat) : (s.putRecord src reason arg).lanes = s.lanes := rfl
@[simp] theorem State.putRecord_mem (s : State) (src reason arg : Nat) : (s.putRecord src reason arg).mem = s.mem := rfl
@[simp] theorem State.putRecord_mram (s : State) (src reason arg : Nat) : (s.putRecord src reason arg).mram = s.mram := rfl
@[simp] theorem State.putRecord_keeper (s : State) (src reason arg : Nat) : (s.putRecord src reason arg).keeper = s.keeper := rfl
@[simp] theorem State.putRecord_power (s : State) (src reason arg : Nat) : (s.putRecord src reason arg).power = s.power := rfl
@[simp] theorem State.putRecord_therm (s : State) (src reason arg : Nat) : (s.putRecord src reason arg).therm = s.therm := rfl
@[simp] theorem State.putRecord_pfe (s : State) (src reason arg : Nat) : (s.putRecord src reason arg).pfe = s.pfe := rfl
@[simp] theorem State.putRecord_free (s : State) (src reason arg : Nat) : (s.putRecord src reason arg).free = s.free := rfl
@[simp] theorem State.putRecord_lastStatus (s : State) (src reason arg : Nat) : (s.putRecord src reason arg).lastStatus = s.lastStatus := rfl
@[simp] theorem State.putRecord_pending (s : State) (src reason arg : Nat) : (s.putRecord src reason arg).pending = s.pending := rfl

/-! ### State.reachStage changes `fd` alone. -/

@[simp] theorem State.reachStage_params (s : State) (n : Nat) : (s.reachStage n).params = s.params := rfl
@[simp] theorem State.reachStage_time (s : State) (n : Nat) : (s.reachStage n).time = s.time := rfl
@[simp] theorem State.reachStage_chans (s : State) (n : Nat) : (s.reachStage n).chans = s.chans := rfl
@[simp] theorem State.reachStage_tiles (s : State) (n : Nat) : (s.reachStage n).tiles = s.tiles := rfl
@[simp] theorem State.reachStage_engines (s : State) (n : Nat) : (s.reachStage n).engines = s.engines := rfl
@[simp] theorem State.reachStage_ref (s : State) (n : Nat) : (s.reachStage n).ref = s.ref := rfl
@[simp] theorem State.reachStage_acq (s : State) (n : Nat) : (s.reachStage n).acq = s.acq := rfl
@[simp] theorem State.reachStage_red (s : State) (n : Nat) : (s.reachStage n).red = s.red := rfl
@[simp] theorem State.reachStage_porter (s : State) (n : Nat) : (s.reachStage n).porter = s.porter := rfl
@[simp] theorem State.reachStage_comp (s : State) (n : Nat) : (s.reachStage n).comp = s.comp := rfl
@[simp] theorem State.reachStage_ports (s : State) (n : Nat) : (s.reachStage n).ports = s.ports := rfl
@[simp] theorem State.reachStage_lanes (s : State) (n : Nat) : (s.reachStage n).lanes = s.lanes := rfl
@[simp] theorem State.reachStage_mem (s : State) (n : Nat) : (s.reachStage n).mem = s.mem := rfl
@[simp] theorem State.reachStage_mram (s : State) (n : Nat) : (s.reachStage n).mram = s.mram := rfl
@[simp] theorem State.reachStage_keeper (s : State) (n : Nat) : (s.reachStage n).keeper = s.keeper := rfl
@[simp] theorem State.reachStage_power (s : State) (n : Nat) : (s.reachStage n).power = s.power := rfl
@[simp] theorem State.reachStage_therm (s : State) (n : Nat) : (s.reachStage n).therm = s.therm := rfl
@[simp] theorem State.reachStage_pfe (s : State) (n : Nat) : (s.reachStage n).pfe = s.pfe := rfl
@[simp] theorem State.reachStage_free (s : State) (n : Nat) : (s.reachStage n).free = s.free := rfl
@[simp] theorem State.reachStage_lastStatus (s : State) (n : Nat) : (s.reachStage n).lastStatus = s.lastStatus := rfl
@[simp] theorem State.reachStage_pending (s : State) (n : Nat) : (s.reachStage n).pending = s.pending := rfl

/-! ### State.tickFree changes `free` alone. -/

@[simp] theorem State.tickFree_params (s : State) : (s.tickFree).params = s.params := rfl
@[simp] theorem State.tickFree_time (s : State) : (s.tickFree).time = s.time := rfl
@[simp] theorem State.tickFree_chans (s : State) : (s.tickFree).chans = s.chans := rfl
@[simp] theorem State.tickFree_tiles (s : State) : (s.tickFree).tiles = s.tiles := rfl
@[simp] theorem State.tickFree_engines (s : State) : (s.tickFree).engines = s.engines := rfl
@[simp] theorem State.tickFree_ref (s : State) : (s.tickFree).ref = s.ref := rfl
@[simp] theorem State.tickFree_acq (s : State) : (s.tickFree).acq = s.acq := rfl
@[simp] theorem State.tickFree_red (s : State) : (s.tickFree).red = s.red := rfl
@[simp] theorem State.tickFree_porter (s : State) : (s.tickFree).porter = s.porter := rfl
@[simp] theorem State.tickFree_comp (s : State) : (s.tickFree).comp = s.comp := rfl
@[simp] theorem State.tickFree_ports (s : State) : (s.tickFree).ports = s.ports := rfl
@[simp] theorem State.tickFree_lanes (s : State) : (s.tickFree).lanes = s.lanes := rfl
@[simp] theorem State.tickFree_mem (s : State) : (s.tickFree).mem = s.mem := rfl
@[simp] theorem State.tickFree_mram (s : State) : (s.tickFree).mram = s.mram := rfl
@[simp] theorem State.tickFree_fd (s : State) : (s.tickFree).fd = s.fd := rfl
@[simp] theorem State.tickFree_keeper (s : State) : (s.tickFree).keeper = s.keeper := rfl
@[simp] theorem State.tickFree_power (s : State) : (s.tickFree).power = s.power := rfl
@[simp] theorem State.tickFree_therm (s : State) : (s.tickFree).therm = s.therm := rfl
@[simp] theorem State.tickFree_pfe (s : State) : (s.tickFree).pfe = s.pfe := rfl
@[simp] theorem State.tickFree_lastStatus (s : State) : (s.tickFree).lastStatus = s.lastStatus := rfl
@[simp] theorem State.tickFree_pending (s : State) : (s.tickFree).pending = s.pending := rfl

/-! ### State.setRoom changes `porter` alone. -/

@[simp] theorem State.setRoom_params (s : State) (r : Nat) (x : Room) : (s.setRoom r x).params = s.params := rfl
@[simp] theorem State.setRoom_time (s : State) (r : Nat) (x : Room) : (s.setRoom r x).time = s.time := rfl
@[simp] theorem State.setRoom_chans (s : State) (r : Nat) (x : Room) : (s.setRoom r x).chans = s.chans := rfl
@[simp] theorem State.setRoom_tiles (s : State) (r : Nat) (x : Room) : (s.setRoom r x).tiles = s.tiles := rfl
@[simp] theorem State.setRoom_engines (s : State) (r : Nat) (x : Room) : (s.setRoom r x).engines = s.engines := rfl
@[simp] theorem State.setRoom_ref (s : State) (r : Nat) (x : Room) : (s.setRoom r x).ref = s.ref := rfl
@[simp] theorem State.setRoom_acq (s : State) (r : Nat) (x : Room) : (s.setRoom r x).acq = s.acq := rfl
@[simp] theorem State.setRoom_red (s : State) (r : Nat) (x : Room) : (s.setRoom r x).red = s.red := rfl
@[simp] theorem State.setRoom_comp (s : State) (r : Nat) (x : Room) : (s.setRoom r x).comp = s.comp := rfl
@[simp] theorem State.setRoom_ports (s : State) (r : Nat) (x : Room) : (s.setRoom r x).ports = s.ports := rfl
@[simp] theorem State.setRoom_lanes (s : State) (r : Nat) (x : Room) : (s.setRoom r x).lanes = s.lanes := rfl
@[simp] theorem State.setRoom_mem (s : State) (r : Nat) (x : Room) : (s.setRoom r x).mem = s.mem := rfl
@[simp] theorem State.setRoom_mram (s : State) (r : Nat) (x : Room) : (s.setRoom r x).mram = s.mram := rfl
@[simp] theorem State.setRoom_fd (s : State) (r : Nat) (x : Room) : (s.setRoom r x).fd = s.fd := rfl
@[simp] theorem State.setRoom_keeper (s : State) (r : Nat) (x : Room) : (s.setRoom r x).keeper = s.keeper := rfl
@[simp] theorem State.setRoom_power (s : State) (r : Nat) (x : Room) : (s.setRoom r x).power = s.power := rfl
@[simp] theorem State.setRoom_therm (s : State) (r : Nat) (x : Room) : (s.setRoom r x).therm = s.therm := rfl
@[simp] theorem State.setRoom_pfe (s : State) (r : Nat) (x : Room) : (s.setRoom r x).pfe = s.pfe := rfl
@[simp] theorem State.setRoom_free (s : State) (r : Nat) (x : Room) : (s.setRoom r x).free = s.free := rfl
@[simp] theorem State.setRoom_lastStatus (s : State) (r : Nat) (x : Room) : (s.setRoom r x).lastStatus = s.lastStatus := rfl
@[simp] theorem State.setRoom_pending (s : State) (r : Nat) (x : Room) : (s.setRoom r x).pending = s.pending := rfl

/-! ### What a named update leaves in its own field -/

@[simp] theorem vput_same {α : Type} {n : Nat} (v : Vector α n) (i : Fin n) (x : α) : (vput v i x)[i.val] = x := by
  simp [vput]

theorem vput_other {α : Type} {n : Nat} (v : Vector α n) (i j : Fin n) (x : α) (h : j ≠ i) : (vput v i x)[j.val] = v[j.val] := by
  simp only [vput]
  exact Vector.getElem_set_ne i.isLt j.isLt (fun e => h (Fin.ext e.symm))

@[simp] theorem State.setEng_same (s : State) (e : Fin 128) (x : Engine) : (s.setEng e x).engines[e.val] = x := vput_same ..

@[simp] theorem State.setChan_same (s : State) (ch : Fin 256) (c : Channel) : (s.setChan ch c).chans[ch.val] = c := vput_same ..

@[simp] theorem State.setTile_same (s : State) (t : Fin 16) (x : TileState) : (s.setTile t x).tiles[t.val] = x := vput_same ..

@[simp] theorem State.setPort_same (s : State) (p : Fin 18) (x : Port) : (s.setPort p x).ports[p.val] = x := vput_same ..

@[simp] theorem State.modEng_same (s : State) (e : Fin 128) (f : Engine → Engine) : (s.modEng e f).engines[e.val] = f s.engines[e.val] := vput_same ..

@[simp] theorem State.modTile_same (s : State) (t : Fin 16) (f : TileState → TileState) : (s.modTile t f).tiles[t.val] = f s.tiles[t.val] := vput_same ..

theorem State.setEng_other (s : State) (e f : Fin 128) (x : Engine) (h : f ≠ e) : (s.setEng e x).engines[f.val] = s.engines[f.val] := vput_other _ _ _ _ h

theorem State.modEng_other (s : State) (e f : Fin 128) (g : Engine → Engine) (h : f ≠ e) : (s.modEng e g).engines[f.val] = s.engines[f.val] :=
  vput_other _ _ _ _ h

theorem State.modTile_other (s : State) (t u : Fin 16) (g : TileState → TileState) (h : u ≠ t) : (s.modTile t g).tiles[u.val] = s.tiles[u.val] :=
  vput_other _ _ _ _ h

end Sys2Proof.Machine
end

