-- ==== Sys2Proof/Laws/Params.lean ====
section
/-! SUPPORT. The laws of the parameter store: what a register reads after a write, and that every write keeps the store canonical. -/

namespace Sys2Proof.Machine

open Sys2Proof

variable {s : State} {a b v n : Nat}

/-- The parameter store is in its canonical form. -/
abbrev State.ParamsWf (s : State) : Prop := SparseWf resetOf s.params

theorem State.rd_wr_same (h : s.ParamsWf) : (s.wr a v).rd a = v := sfind_sput_same h.1

theorem State.rd_wr_other (h : s.ParamsWf) (hne : b ≠ a) : (s.wr a v).rd b = s.rd b := by
  unfold State.rd State.wr
  rw [sfind_sput_other h.1 hne]

theorem State.wr_wf (h : s.ParamsWf) : (s.wr a v).ParamsWf := sput_wf h

theorem State.bump_wf (h : s.ParamsWf) : (s.bump a).ParamsWf := wr_wf h

theorem State.bumpBy_wf (h : s.ParamsWf) : (s.bumpBy a n).ParamsWf := wr_wf h

theorem State.peak_wf (h : s.ParamsWf) : (s.peak a v).ParamsWf := wr_wf h

theorem State.rd_bump_same (h : s.ParamsWf) : (s.bump a).rd a = min (s.rd a + 1) 0xFFFFFFFF := rd_wr_same h

theorem State.rd_bump_other (h : s.ParamsWf) (hne : b ≠ a) : (s.bump a).rd b = s.rd b := rd_wr_other h hne

theorem State.rd_bumpBy_same (h : s.ParamsWf) : (s.bumpBy a n).rd a = min (s.rd a + n) 0xFFFFFFFF := rd_wr_same h

theorem State.rd_bumpBy_other (h : s.ParamsWf) (hne : b ≠ a) : (s.bumpBy a n).rd b = s.rd b := rd_wr_other h hne

theorem State.rd_peak_same (h : s.ParamsWf) : (s.peak a v).rd a = max (s.rd a) v := rd_wr_same h

theorem State.rd_peak_other (h : s.ParamsWf) (hne : b ≠ a) : (s.peak a v).rd b = s.rd b := rd_wr_other h hne

theorem State.dropParams_wf (h : s.ParamsWf) : ({ s with params := s.params.filter (fun p => paramDomain p.1 ≠ some n) } : State).ParamsWf := filter_wf h

/-- A posted record changes the record buffers and the counter of records lost, and nothing else (R305). -/
theorem State.post_fields (s : State) (src reason arg : Nat) :
    { s.post src reason arg with fd := s.fd, params := s.params, fresh := s.fresh } = s ∧
    (s.ParamsWf → (s.post src reason arg).ParamsWf ∧ ∀ b, b ≠ pEvqCntSrcLost → (s.post src reason arg).rd b = s.rd b) := by
  unfold State.post
  dsimp only
  split
  · exact ⟨rfl, fun h => ⟨h, fun _ _ => rfl⟩⟩
  · split
    · split
      · exact ⟨rfl, fun h => ⟨bump_wf h, fun b hb => rd_bump_other h hb⟩⟩
      · exact ⟨rfl, fun h => ⟨bump_wf (bump_wf h), fun b hb => (rd_bump_other (bump_wf h) hb).trans (rd_bump_other h hb)⟩⟩
    · exact ⟨rfl, fun h => ⟨bump_wf h, fun b hb => rd_bump_other h hb⟩⟩

/-- With room in the source's buffer a posted record enters it, and nothing else changes (R305). -/
theorem State.post_of_room {src reason arg : Nat} (h : s.hasRoom src = true) : s.post src reason arg = s.putRecord src reason arg := by
  unfold State.post
  rw [if_pos h]

end Sys2Proof.Machine
end

