-- ==== Sys2Proof/Laws/Engines.lean ====
section
/-! SUPPORT. What the shared operations of the engines do: cycles, traps, and an instruction that executes. -/

namespace Sys2Proof.Machine

open Sys2Proof

variable {s : State} {e : Fin 128}

@[simp] theorem State.engCycles_same (s : State) (e : Fin 128) (n : Nat) :
    (s.engCycles e n).engines[e.val] =
      { (s.engines[e]) with watchdog := (s.engines[e]).watchdog + n, ready := Nat.max ((s.engines[e]).ready + n) (s.therm.cycles + 1) } := by
  simp only [State.engCycles, State.peak_engines, State.setEng_same, State.cycle]

theorem State.engCycles_other (s : State) (e f : Fin 128) (n : Nat) (h : f ≠ e) : (s.engCycles e n).engines[f.val] = s.engines[f.val] :=
  State.setEng_other s e f _ h

theorem State.engCycles_rest (s : State) (e : Fin 128) (n : Nat) : { s.engCycles e n with engines := s.engines, params := s.params } = s := rfl

theorem State.engCycles_wf {n : Nat} (h : s.ParamsWf) : (s.engCycles e n).ParamsWf := State.peak_wf h

theorem State.rd_engCycles_same {n : Nat} (h : s.ParamsWf) :
    (s.engCycles e n).rd (pEngMaxCycles e.val) = max (s.rd (pEngMaxCycles e.val)) (min ((s.engines[e]).watchdog + n) 0xFFFF) :=
  State.rd_peak_same (s := s.setEng e _) h

theorem State.rd_engCycles_other {n a : Nat} (h : s.ParamsWf) (ha : a ≠ pEngMaxCycles e.val) : (s.engCycles e n).rd a = s.rd a :=
  State.rd_peak_other (s := s.setEng e _) h ha

/-- The state after the cycles of an instruction are counted and its engine changed by `g` is one after its execution. -/
theorem State.executed_modEng (h : s.ParamsWf) (n : Nat) (g : Engine → Engine) :
    s.Executed ((s.engCycles e n).modEng e g) e n
      (g { (s.engines[e]) with watchdog := (s.engines[e]).watchdog + n, ready := Nat.max ((s.engines[e]).ready + n) (s.therm.cycles + 1) }) := by
  refine ⟨?_, ?_, ?_, ?_, rfl⟩
  · simp only [Fin.getElem_fin, modEng_same, engCycles_same]
  · intro f hf
    simp only [Fin.getElem_fin]
    rw [modEng_other _ _ _ _ hf, engCycles_other _ _ _ _ hf]
  · exact rd_engCycles_same h
  · intro a ha
    exact rd_engCycles_other h ha

/-- The load-use stall of a legal word is that of the registers it reads (Table 5.1). -/
theorem Engine.loadUse_eq {x : Engine} (h : legalWord x.word = true) : x.loadUse = x.waits (wordReads x.word) (x.word.toNat / 2 ^ 26 == 0x1A) := by
  unfold Engine.loadUse Engine.waits
  simp only [h, Bool.not_true, Bool.false_eq_true, if_false, List.contains_iff_mem]
  cases x.loaded <;> rfl

/-- The word at the PC of an engine that is ready is the one it executes, and its fetch has nothing to correct. -/
theorem State.atWord_of_ready {w : Word} {reads : List (Fin 16)} {readsH : Bool} (h : s.Ready e w reads readsH)
    (hl : (s.engines[e]).loadUse = (s.engines[e]).waits reads readsH) : s.atWord e w = true := by
  obtain ⟨hon, hrun, hw, hc, -⟩ := h
  simp only [State.atWord, Engine.inX, State.cycle, hon, hrun, hw, hl, beq_self_eq_true, Bool.and_self, Bool.true_and, decide_eq_true_eq, hc]

theorem State.correctFetch_of_ready {w : Word} {reads : List (Fin 16)} {readsH : Bool} (h : s.Ready e w reads readsH) : s.correctFetch e = s := by
  obtain ⟨-, -, -, -, -, hce, -⟩ := h
  simp only [State.correctFetch, List.contains_iff_mem, hce, if_false]

/-- What does not reach ENG.BUDGET in `n` cycles does not in fewer. -/
theorem State.budgetReached_mono {m n : Nat} (h : s.budgetReached e n = false) (hm : m ≤ n) : s.budgetReached e m = false := by
  simp only [State.budgetReached, Bool.and_eq_false_iff, decide_eq_false_iff_not, Nat.not_le] at h ⊢
  exact h.imp_right (fun x => by omega)

/-- With its word fetched right, the first trap of an instruction is its own, then that of its next address. -/
theorem State.firstTrap_of_ready {w : Word} {reads : List (Fin 16)} {readsH : Bool} (h : s.Ready e w reads readsH)
    (own : Option (Nat ⊕ (Nat × Nat))) (target : Int) :
    s.firstTrap e own target = own.orElse (fun _ => if target < 0 ∨ 0x7FF < target then some (.inl 6) else none) := by
  obtain ⟨-, -, -, -, hecc, -⟩ := h
  unfold State.firstTrap
  simp only [List.contains_iff_mem, hecc, if_false]

/-- An instruction in X whose cycles do not reach ENG.BUDGET takes its first trap, or has its effect on the state with its cycles counted and the PC moved on. -/
theorem State.engGo_of_ready {w : Word} {reads : List (Fin 16)} {readsH : Bool} (h : s.Ready e w reads readsH)
    (hl : (s.engines[e]).loadUse = (s.engines[e]).waits reads readsH) (own : Option (Nat ⊕ (Nat × Nat))) (target : Int) (effect : State → State) :
    s.engGo e w own target effect = match own.orElse (fun _ => if target < 0 ∨ 0x7FF < target then some (.inl 6) else none) with
      | some c => s.takeTrap e c
      | none => effect ((s.engCycles e (1 + (s.engines[e]).waits reads readsH)).modEng e
          (fun y => { y with loaded := .none, pc := BitVec.ofInt 11 target })) := by
  have hb := h.2.2.2.2.2.2
  unfold State.engGo
  simp only [atWord_of_ready h hl, correctFetch_of_ready h, firstTrap_of_ready h, hl, hb, budgetReached_mono hb (Nat.le_add_left _ 1),
    Bool.not_true, Bool.false_eq_true, if_false, and_false] <;> rfl

/-- An instruction that is ready to execute, whose own checks pass and whose next address lies in instruction memory, has its effect. -/
theorem State.engGo_ready {w : Word} {reads : List (Fin 16)} {readsH : Bool} {target : Int} {effect : State → State}
    (h : s.Ready e w reads readsH) (hl : (s.engines[e]).loadUse = (s.engines[e]).waits reads readsH) (h0 : 0 ≤ target) (h1 : target ≤ 0x7FF) :
    s.engGo e w none target effect = effect ((s.engCycles e (1 + (s.engines[e]).waits reads readsH)).modEng e
      (fun y => { y with loaded := .none, pc := BitVec.ofInt 11 target })) := by
  rw [engGo_of_ready h hl, if_neg (by omega)]
  rfl

/-- An instruction whose own check finds a cause traps with it. -/
theorem State.engGo_own {w : Word} {reads : List (Fin 16)} {readsH : Bool} {cause : Nat} {target : Int} {effect : State → State}
    (h : s.Ready e w reads readsH) (hl : (s.engines[e]).loadUse = (s.engines[e]).waits reads readsH) :
    s.engGo e w (some (.inl cause)) target effect = s.engTrap e cause := engGo_of_ready h hl _ _ _

/-- An instruction whose next address lies outside instruction memory traps with PC. -/
theorem State.engGo_pc {w : Word} {reads : List (Fin 16)} {readsH : Bool} {target : Int} {effect : State → State}
    (h : s.Ready e w reads readsH) (hl : (s.engines[e]).loadUse = (s.engines[e]).waits reads readsH) (ht : target < 0 ∨ 0x7FF < target) :
    s.engGo e w none target effect = s.engTrap e 6 := by
  rw [engGo_of_ready h hl, if_pos ht]
  rfl

/-- A trap is what Trapped says. -/
theorem State.engTrap_trapped (s : State) (e : Fin 128) (cause : Nat) : s.Trapped (s.engTrap e cause) e cause := rfl

end Sys2Proof.Machine
end

