-- ==== Sys2Proof/Tests/Slice0.lean ====
section
/-! SUPPORT. Tests: an ill-formed term for each check of WellFormed, steps with the results the manual gives, and for each statement states and operands
that meet its hypotheses. -/

namespace Sys2Proof.Tests

open Sys2Proof Sys2Proof.Machine

set_option Elab.async false

/-! ### States to test on -/

/-- The state a command answers. -/
def after (s : State) (c : Instr) : State := match exec c s with
  | .next t => t
  | _ => s

/-- A part that has started: every domain on, the capacitance test ended, 15 V on a hold capacitor of 1,000,000 nF, Aelko running. -/
def live : State := { State.reset with
  params := [(pPwrHoldCap, 1000000)]
  power := { Power.reset with poreset := false, domains := 0xFFFFFFFFF, testEnded := true, hold := 15000000 }
  fd := { FrontDesk.reset with aelkoReady := true, stage := 6 } }

theorem live_inv : live.Inv := by
  refine ⟨by decide, by decide, by decide, by decide, ?_, ?_, by decide⟩ <;> decide

/-- `live` with other parameters. -/
def liveP (ps : Params) : State := { live with params := ps }

theorem liveP_inv {ps : Params} (h : SparseWf resetOf ps) : (liveP ps).Inv := ⟨h, live_inv.2⟩

/-- A live part with channel 5 as `c`. -/
def chanS (c : Channel) : State := live.setChan 5 c

theorem chanS_inv (c : Channel) : (chanS c).Inv := live_inv

/-- A live part with engine 3 as `x`. -/
def engS (x : Engine) : State := live.setEng 3 x

theorem engS_inv (x : Engine) (hi : x.imem.wf) (hd : x.dmem.wf) (hv : x.v[0] = 0) : (engS x).Inv := by
  obtain ⟨h1, h2, h3, h4, h5, h6, h7⟩ := live_inv
  refine ⟨h1, h2, h3, h4, ?_, h6, h7⟩
  intro e
  by_cases he : e = 3
  · subst he
    have hs : (engS x).engines[(3 : Fin 128)] = x := State.setEng_same live 3 x
    rw [hs]
    exact ⟨hi, hd, hv⟩
  · have hs : (engS x).engines[e] = live.engines[e] := State.setEng_other live 3 e x he
    rw [hs]
    exact h5 e

/-- A running engine with operands in its registers. -/
def eng : Engine := { Engine.reset with
  state := .running
  v := #v[0, 5, 7, 0x80000000, 0xFFFFFFFF, 0x1FFC, 0x10000, 0x7FF, 0x800, 0x7FFFFFFF, 0, 0x20, 0x2000, 0xFFFC, 0, 0x10] }

/-- The live part whose engine 3 is `x` with the word `w` at its PC. -/
def engAt (w : Word) (x : Engine) : State := engS { x with imem := (Memory.putLe [] (4 * x.pc.toNat) 4 w.toNat) }

/-- The register of engine 3 after a command. -/
def regAfter (w : Word) (c : Instr) (r : Fin 16) : Word × BitVec 7 × BitVec 11 :=
  let x := (after (engAt w eng) c).engines[(3 : Fin 128)]
  (x.get r, x.flags, x.pc)


/-- A frame without fault on a link of incarnation 1. -/
def good : FrameMeta := ⟨1, true, [], [], [], [], true⟩

/-- It met no violation. -/
theorem good_clean (n : Nat) : good.laneViols n = 0 := by simp [good, FrameMeta.laneViols]

/-! ### Ill-formed commands -/

theorem test_wf_histogramComplete_refuses : (Instr.histogramComplete 0 (List.replicate 1023 0) 0 0).wf = false := by decide +kernel
theorem test_wf_histogramComplete_refuses_bin : (Instr.histogramComplete 0 [2 ^ 24] 0 0).wf = false := by decide +kernel
theorem test_wf_stamperCalComplete_refuses : (Instr.stamperCalComplete 0 [] 0 0).wf = false := by decide +kernel
theorem test_wf_ctrlFrame_refuses : (Instr.ctrlFrame 0 ⟨0, true, [], [], [], [], true⟩ ⟨true, false, 0, 0, 0, 0, 0, List.replicate 15 0⟩).wf = false := by decide +kernel
theorem test_wf_ctrlFrame_takes : (Instr.ctrlFrame 0 ⟨0, true, [], [], [], [], true⟩ ⟨true, false, 0, 0, 0, 0, 0, List.replicate 16 0⟩).wf = true := by decide +kernel

/-- A waybill of one record. -/
def waybill : Waybill :=
  { children := 1, kind := 0, compressed := false, corrupt := false, truncated := false, partialFlag := false, step := false, suspect := false, source := 2,
    incarnation := 1, codec := 0, absent := 0, event := 7, start := 0, length := 100, payload := 8 }

theorem test_wf_dataFrame_refuses : (Instr.dataFrame 0 ⟨0, true, [], [], [], [], true⟩ ⟨true, true, 0, { waybill with children := 32 }, true, []⟩).wf = false := by decide +kernel
theorem test_wf_evqFrame_refuses : (Instr.evqFrame 0 ⟨0, true, [], [], [], [], true⟩ ⟨0, 0, 0, 0, []⟩).wf = false := by decide +kernel
theorem test_wf_evqFrame_refuses_nine : (Instr.evqFrame 0 ⟨0, true, [], [], [], [], true⟩ ⟨0, 0, 0, 0, List.replicate 9 0⟩).wf = false := by decide +kernel
theorem test_wf_creditFrame_refuses : (Instr.creditFrame 0 ⟨0, true, [], [], [], [], true⟩ 32 0).wf = false := by decide +kernel
theorem test_wf_prbsEnd_refuses : (Instr.prbsEnd 0 []).wf = false ∧ (Instr.prbsEnd 0 [0, 0, 0, 0, 0]).wf = false := by decide +kernel
theorem test_wf_sysImageWrite_refuses : (Instr.sysImageWrite 0 ⟨false, 0, 0, 0, List.replicate 485 0⟩).wf = false := by decide +kernel
theorem test_wf_paramWriteList_refuses : (Instr.paramWriteList 0 (List.replicate 63 (0, 0))).wf = false := by decide +kernel
theorem test_wf_paramReadList_refuses : (Instr.paramReadList 0 (List.replicate 125 0)).wf = false := by decide +kernel
theorem test_wf_acqLaunch_refuses : (Instr.acqLaunch 0 0 0 (.ctrl 0 0 0 (List.replicate 477 0))).wf = false := by decide +kernel
theorem test_wf_engLoad_refuses : (Instr.engLoad 0 ⟨false, 0, 0, 0, []⟩).wf = false := by decide +kernel
theorem test_wf_memRetire_refuses : (Instr.memRetire 0 []).wf = false ∧ (Instr.memRetire 0 (List.replicate 121 0)).wf = false := by decide +kernel
theorem test_wf_pfeCoefWrite_refuses : (Instr.pfeCoefWrite 0 0 (List.replicate 11 0)).wf = false := by decide +kernel
theorem test_wf_lockstepMismatch_refuses : (Instr.lockstepMismatch 0).wf = false := by decide +kernel
theorem test_wf_resetDoneToken_refuses : (Instr.resetDoneToken 4 4).wf = false := by decide +kernel
theorem test_wf_sensorSample_refuses : (Instr.sensorSample 0 32768).wf = false ∧ (Instr.sensorSample 0 (-32769)).wf = false := by decide +kernel
theorem test_wf_holdSample_refuses : (Instr.holdSample 16001000).wf = false ∧ (Instr.holdSample 15).wf = false := by decide +kernel
theorem test_wf_capacitanceTestEnd_refuses : (Instr.capacitanceTestEnd 0).wf = false := by decide +kernel


/-! ### Engines -/

/-- Word 0x00xxxxxx: ADD d=10, a=1, b=2 written out by the fields of Table 6.1. -/
theorem test_word_add : engWord3 0x00 10 1 2 0 = 0x02848000#32 := by decide +kernel
theorem test_word_ldd : engWord 0x28 1 5 0x3FFFC = 0xA057FFFC#32 := by decide +kernel

theorem test_add : regAfter (engWord3 0x00 10 1 2 0) (.add 3 10 1 2) 10 = (12, 0, 1) := by decide +kernel
theorem test_add_carries : regAfter (engWord3 0x00 10 4 1 0) (.add 3 10 4 1) 10 = (4, 4, 1) := by decide +kernel
theorem test_sub_borrows : regAfter (engWord3 0x01 10 1 2 0) (.sub 3 10 1 2) 10 = (0xFFFFFFFE, 2, 1) := by decide +kernel
theorem test_sub_overflows : regAfter (engWord3 0x01 10 3 1 0) (.sub 3 10 3 1) 10 = (0x7FFFFFFB, 12, 1) := by decide +kernel
theorem test_and : regAfter (engWord3 0x02 10 1 2 0) (.and 3 10 1 2) 10 = (5, 0, 1) := by decide +kernel
theorem test_xor_self : regAfter (engWord3 0x04 1 1 1 0) (.xor 3 1 1 1) 1 = (0, 1, 1) := by decide +kernel
theorem test_min_is_signed : regAfter (engWord3 0x05 10 3 1 0) (.min 3 10 3 1) 10 = (0x80000000, 2, 1) := by decide +kernel
theorem test_max_is_signed : regAfter (engWord3 0x06 10 4 1 0) (.max 3 10 4 1) 10 = (5, 0, 1) := by decide +kernel
theorem test_shl_takes_five_bits : regAfter (engWord3 0x08 10 1 11 0) (.shl 3 10 1 11) 10 = (5, 0, 1) := by decide +kernel
theorem test_sar_fills_with_sign : regAfter (engWord3 0x0A 10 3 2 0) (.sar 3 10 3 2) 10 = (0xFF000000, 2, 1) := by decide +kernel
theorem test_popc : regAfter (engWord 0x0C 10 4 0) (.popc 3 10 4) 10 = (32, 0, 1) := by decide +kernel
theorem test_clz_zero : regAfter (engWord 0x0D 10 0 0) (.clz 3 10 0) 10 = (32, 0, 1) := by decide +kernel
theorem test_lui : regAfter (engWord 0x17 10 0 0x20001) (.lui 3 10 0x20001) 10 = (0x80004000, 2, 1) := by decide +kernel
theorem test_ext : regAfter (engWord 0x18 10 9 (4 + 32 * 7)) (.ext 3 10 9 4 7) 10 = (0xFF, 0, 1) := by decide +kernel
theorem test_ins : regAfter (engWord 0x19 10 1 (8 + 32 * 3)) (.ins 3 10 1 8 3) 10 = (0x500, 0, 1) := by decide +kernel
theorem test_v0_reads_zero : regAfter (engWord3 0x00 0 1 2 0) (.add 3 0 1 2) 0 = (0, 0, 1) := by decide +kernel
theorem test_tdiff_wraps : regAfter (engWord3 0x34 10 1 4 0) (.tdiff 3 10 1 4) 10 = (6, 0, 1) := by decide +kernel
theorem test_branch_back : (regAfter (engWord3 0x20 0 1 2 0x3FFF) (.beq 3 1 2 0x3FFF) 1).2.2 = 1 := by decide +kernel
theorem test_branch_traps : ((after (engAt (engWord3 0x21 0 1 2 0x3FFF) eng) (.bne 3 1 2 0x3FFF)).engines[(3 : Fin 128)]).trapCause = 6 := by decide +kernel
theorem test_store_out_of_range_traps : ((after (engAt (engWord 0x2B 1 12 0) eng) (.std 3 1 12 0)).engines[(3 : Fin 128)]).trapCause = 3 := by decide +kernel
theorem test_store : ((after (engAt (engWord 0x2C 1 5 2) eng) (.stdh 3 1 5 2)).engines[(3 : Fin 128)]).dmem = [(0x1FFE, 5)] := by decide +kernel
theorem test_call_links : regAfter (engWord3 0x32 0 0 0 0x10) (.call 3 0x10) 15 = (1, 0, 0x10) := by decide +kernel
theorem test_ret : (regAfter (engWord 0x33 0 0 0) (.ret 3) 1).2.2 = 0x10 := by decide +kernel

/-- Two-source, one-source, immediate and field forms, each with a destination and with v0, and with v0 as a source. -/
theorem witness_EngineArithmeticComputes :
    (engAt (engWord3 0x02 1 2 3 0) eng).Ready 3 (engWord3 0x02 1 2 3 0) [2, 3] false ∧
    (engAt (engWord3 0x34 0 0 4 0) eng).Ready 3 (engWord3 0x34 0 0 4 0) [0, 4] false ∧
    (engAt (engWord3 0x00 15 9 1 0) eng).Ready 3 (engWord3 0x00 15 9 1 0) [9, 1] false ∧
    (engAt (engWord 0x10 1 2 0x20000) eng).Ready 3 (engWord 0x10 1 2 0x20000) [2] false ∧
    (engAt (engWord 0x10 0 0 0x1FFFF) eng).Ready 3 (engWord 0x10 0 0 0x1FFFF) [0] false ∧
    (engAt (engWord 0x17 1 0 0x3FFFF) eng).Ready 3 (engWord 0x17 1 0 0x3FFFF) [] false ∧
    (engAt (engWord 0x14 1 2 31) eng).Ready 3 (engWord 0x14 1 2 31) [2] false ∧
    (engAt (engWord 0x18 1 2 (31 + 32 * 31)) eng).Ready 3 (engWord 0x18 1 2 (31 + 32 * 31)) [2] false ∧
    (engAt (engWord 0x19 1 2 (0 + 32 * 31)) eng).Ready 3 (engWord 0x19 1 2 (0 + 32 * 31)) [1, 2] false ∧
    (engAt (engWord 0x1A 1 1 (4 + 32 * 3)) eng).Ready 3 (engWord 0x1A 1 1 (4 + 32 * 3)) [] true ∧
    (engAt 0 eng).Inv ∧
    ((engAt 0 { eng with pc := 0x7FE }).engines[(3 : Fin 128)]).pc.toNat < 0x7FF := by
  refine ⟨?_, ?_, ?_, ?_, ?_, ?_, ?_, ?_, ?_, ?_, engS_inv _ (by decide +kernel) (by decide +kernel) (by decide +kernel), by decide +kernel⟩ <;> (unfold State.Ready; decide +kernel)

/-- A branch taken to the first and to the last address, one that leaves instruction memory at either end, and one not taken at the last address. -/
theorem witness_EngineBranches :
    (engAt (engWord3 0x20 0 1 1 0) eng).Ready 3 (engWord3 0x20 0 1 1 0) [1, 1] false ∧
    (engAt (engWord3 0x20 0 1 1 0x7FF) eng).Ready 3 (engWord3 0x20 0 1 1 0x7FF) [1, 1] false ∧
    (engAt (engWord3 0x20 0 1 1 0x3FFF) eng).Ready 3 (engWord3 0x20 0 1 1 0x3FFF) [1, 1] false ∧
    (engAt (engWord3 0x21 0 1 2 0x800) eng).Ready 3 (engWord3 0x21 0 1 2 0x800) [1, 2] false ∧
    (engAt (engWord3 0x27 6 0 0 1) eng).Ready 3 (engWord3 0x27 6 0 0 1) [] false ∧
    (engAt (engWord3 0x26 6 0 0 1) eng).Ready 3 (engWord3 0x26 6 0 0 1) [] false ∧
    (engAt (engWord3 0x21 0 1 1 0) { eng with pc := 0x7FF }).Ready 3 (engWord3 0x21 0 1 1 0) [1, 1] false ∧
    (engAt (engWord3 0x32 0 0 0 0x7FF) eng).Ready 3 (engWord3 0x32 0 0 0 0x7FF) [] false ∧
    (engAt (engWord3 0x32 0 0 0 0x3FFF) eng).Ready 3 (engWord3 0x32 0 0 0 0x3FFF) [] false ∧
    (engAt (engWord 0x33 0 0 0) eng).Ready 3 (engWord 0x33 0 0 0) [15] false ∧
    ((engAt 0 eng).engines[(3 : Fin 128)]).get 15 = 0x10 ∧
    (engAt (engWord 0x33 0 0 0) { eng with v := eng.v.set 15 0x800 }).Ready 3 (engWord 0x33 0 0 0) [15] false := by
  unfold State.Ready
  and_intros <;> decide +kernel

/-- Loads and stores at the last address of data memory and of the tile table memory, out of range and misaligned; a bank that is free, one still held, one that a lower engine asks for, and words with one
flipped bit and with two. -/
theorem witness_EngineMemoryAccesses :
    (engAt (engWord 0x28 1 5 0) eng).Ready 3 (engWord 0x28 1 5 0) [5] false ∧
    (engAt 0 eng).ea 3 5 0 = 0x1FFC ∧
    (engAt (engWord 0x28 1 12 0) eng).Ready 3 (engWord 0x28 1 12 0) [12] false ∧
    (engAt 0 eng).ea 3 12 0 = 0x2000 ∧
    (engAt (engWord 0x29 1 5 3) eng).Ready 3 (engWord 0x29 1 5 3) [5] false ∧
    (engAt 0 eng).ea 3 5 3 % 2 = 1 ∧
    (engAt (engWord 0x2A 1 5 3) eng).Ready 3 (engWord 0x2A 1 5 3) [5] false ∧
    (engAt (engWord 0x2B 1 0 0) eng).Ready 3 (engWord 0x2B 1 0 0) [1, 0] false ∧
    (engAt 0 eng).ea 3 0 0 = 0 ∧
    (engAt (engWord 0x2B 1 0 2) eng).Ready 3 (engWord 0x2B 1 0 2) [1, 0] false ∧
    (engAt 0 eng).ea 3 0 2 % 4 = 2 ∧
    (engAt (engWord 0x2D 1 5 3) eng).Ready 3 (engWord 0x2D 1 5 3) [1, 5] false ∧
    (engAt (engWord 0x2E 1 13 0) eng).Ready 3 (engWord 0x2E 1 13 0) [13] false ∧
    (engAt 0 eng).ea 3 13 0 = 0xFFFC ∧
    (engAt (engWord 0x30 1 13 2) eng).Ready 3 (engWord 0x30 1 13 2) [13] false ∧
    (engAt (engWord 0x2F 1 13 0) eng).Ready 3 (engWord 0x2F 1 13 0) [1, 13] false ∧
    (engAt (engWord 0x31 1 13 2) eng).Ready 3 (engWord 0x31 1 13 2) [1, 13] false ∧
    (engAt 0 eng).presents 3 = false ∧
    ((engAt (engWord 0x2E 1 13 0) eng).presents 3 = true ∧ (engAt (engWord 0x2E 1 13 0) eng).stalls 3 = false) ∧
    ((engAt (engWord 0x2E 1 13 0) eng).setTile 0 { TileState.reset with banks := #v[0, 0, 0, 2] }).stalls 3 = true ∧
    ((engAt (engWord 0x2E 1 13 0) eng).setEng 2 (engAt (engWord 0x2E 1 13 0) eng).engines[(3 : Fin 128)]).stalls 3 = true ∧
    (engAt (engWord 0x28 1 5 0) { eng with dmemCe := [0x7FF] }).Ready 3 (engWord 0x28 1 5 0) [5] false ∧
    0 ∈ ((engAt (engWord3 0x20 0 1 1 0) { eng with imemCe := [0] }).engines[(3 : Fin 128)]).imemCe ∧
    0 ∈ ((engAt (engWord3 0x20 0 1 1 0) { eng with imemBad := [0] }).engines[(3 : Fin 128)]).imemBad ∧
    (liveP [(pEngBudget 3, 0)]).rd (pEngBudget 3) = 0 := by
  unfold State.Ready State.ea
  and_intros <;> decide +kernel

/-- A read of each register of the port window. -/
theorem witness_EnginePortWindowReads :
    (engAt (engWord 0x2E 1 6 0) eng).Ready 3 (engWord 0x2E 1 6 0) [6] false ∧
    (engAt 0 eng).ea 3 6 0 = 0x10000 + 0 ∧
    (engAt (engWord 0x2E 1 6 4) eng).Ready 3 (engWord 0x2E 1 6 4) [6] false ∧
    (engAt 0 eng).ea 3 6 4 = 0x10000 + 4 ∧
    (engAt (engWord 0x2E 1 6 8) eng).Ready 3 (engWord 0x2E 1 6 8) [6] false ∧
    (engAt 0 eng).ea 3 6 8 = 0x10000 + 8 ∧
    (engAt (engWord 0x2E 1 6 0xC) eng).Ready 3 (engWord 0x2E 1 6 0xC) [6] false ∧
    (engAt 0 eng).ea 3 6 0xC = 0x10000 + 0xC ∧
    (engAt (engWord 0x2E 1 6 0x10) eng).Ready 3 (engWord 0x2E 1 6 0x10) [6] false ∧
    (engAt 0 eng).ea 3 6 0x10 = 0x10000 + 0x10 ∧
    (engAt (engWord 0x2E 1 6 0x20) eng).Ready 3 (engWord 0x2E 1 6 0x20) [6] false ∧
    (engAt 0 eng).ea 3 6 0x20 = 0x10000 + 0x20 ∧
    (engAt (engWord 0x2E 1 6 0x24) eng).Ready 3 (engWord 0x2E 1 6 0x24) [6] false ∧
    (engAt 0 eng).ea 3 6 0x24 = 0x10000 + 0x24 ∧
    (engAt (engWord 0x2E 1 6 0x28) eng).Ready 3 (engWord 0x2E 1 6 0x28) [6] false ∧
    (engAt 0 eng).ea 3 6 0x28 = 0x10000 + 0x28 ∧
    (engAt (engWord 0x2E 1 6 0x2C) eng).Ready 3 (engWord 0x2E 1 6 0x2C) [6] false ∧
    (engAt 0 eng).ea 3 6 0x2C = 0x10000 + 0x2C ∧
    (engAt (engWord 0x2E 1 6 0x30) eng).Ready 3 (engWord 0x2E 1 6 0x30) [6] false ∧
    (engAt 0 eng).ea 3 6 0x30 = 0x10000 + 0x30 ∧
    (engAt (engWord 0x2E 1 6 0x34) eng).Ready 3 (engWord 0x2E 1 6 0x34) [6] false ∧
    (engAt 0 eng).ea 3 6 0x34 = 0x10000 + 0x34 ∧
    (engAt (engWord 0x2E 1 6 0x38) eng).Ready 3 (engWord 0x2E 1 6 0x38) [6] false ∧
    (engAt 0 eng).ea 3 6 0x38 = 0x10000 + 0x38 ∧
    (engAt (engWord 0x2E 1 6 0x14) eng).Ready 3 (engWord 0x2E 1 6 0x14) [6] false ∧
    (engAt 0 eng).ea 3 6 0x14 = 0x10000 + 0x14 ∧
    (engAt (engWord 0x2E 1 6 0x1C) eng).Ready 3 (engWord 0x2E 1 6 0x1C) [6] false ∧
    (engAt 0 eng).ea 3 6 0x1C = 0x10000 + 0x1C ∧
    (engAt (engWord 0x2E 1 6 0x3C) eng).Ready 3 (engWord 0x2E 1 6 0x3C) [6] false ∧
    (engAt 0 eng).ea 3 6 0x3C = 0x10000 + 0x3C ∧
    (engAt (engWord 0x2E 1 6 0xFC) eng).Ready 3 (engWord 0x2E 1 6 0xFC) [6] false ∧
    (engAt 0 eng).ea 3 6 0xFC = 0x10000 + 0xFC := by
  unfold State.Ready State.ea
  and_intros <;> decide +kernel

/-- A write of each register of the port window; PW_GO and ACC_GO with and without privilege and with a submission pending. -/
theorem witness_EnginePortWindowWrites :
    (engAt (engWord 0x2F 1 6 0) eng).Ready 3 (engWord 0x2F 1 6 0) [1, 6] false ∧
    (engAt (engWord 0x2F 1 6 0x1C) eng).Ready 3 (engWord 0x2F 1 6 0x1C) [1, 6] false ∧
    (engAt (engWord 0x2F 1 6 0x20) eng).Ready 3 (engWord 0x2F 1 6 0x20) [1, 6] false ∧
    (engAt (engWord 0x2F 1 6 0x24) eng).Ready 3 (engWord 0x2F 1 6 0x24) [1, 6] false ∧
    (engAt (engWord 0x2F 1 6 0x28) eng).Ready 3 (engWord 0x2F 1 6 0x28) [1, 6] false ∧
    (engAt (engWord 0x2F 1 6 0x30) eng).Ready 3 (engWord 0x2F 1 6 0x30) [1, 6] false ∧
    (engAt (engWord 0x2F 1 6 0x34) eng).Ready 3 (engWord 0x2F 1 6 0x34) [1, 6] false ∧
    (engAt (engWord 0x2F 1 6 0x3C) eng).Ready 3 (engWord 0x2F 1 6 0x3C) [1, 6] false ∧
    (engAt (engWord 0x2F 1 6 0xFC) eng).Ready 3 (engWord 0x2F 1 6 0xFC) [1, 6] false ∧
    (engAt (engWord 0x2F 1 6 0x2C) eng).Ready 3 (engWord 0x2F 1 6 0x2C) [1, 6] false ∧
    (engAt (engWord 0x2F 1 6 0x38) eng).Ready 3 (engWord 0x2F 1 6 0x38) [1, 6] false ∧
    (engAt 0 eng).rd (pEngPriv 3) = 0 ∧
    ((engAt 0 eng).engines[(3 : Fin 128)]).pwGo.pending = false ∧
    SparseWf resetOf [(pEngPriv 3, 1), (pPwrHoldCap, 1000000)] ∧
    ((liveP [(pEngPriv 3, 1), (pPwrHoldCap, 1000000)]).setEng 3 (engAt (engWord 0x2F 1 6 0x38) eng).engines[(3 : Fin 128)]).Ready 3 (engWord 0x2F 1 6 0x38) [1, 6] false ∧
    ((liveP [(pEngPriv 3, 1), (pPwrHoldCap, 1000000)]).setEng 3 (engAt (engWord 0x2F 1 6 0x2C) { eng with accGo := ⟨2, true⟩, pwGo := ⟨1, true⟩ }).engines[(3 : Fin 128)]).Ready 3 (engWord 0x2F 1 6 0x2C) [1, 6] false ∧
    (liveP [(pEngPriv 3, 1), (pPwrHoldCap, 1000000)]).rd (pEngPriv 3) ≠ 0 := by
  unfold State.Ready
  and_intros <;> decide +kernel

/-- The stream, wait and output instructions, with the queue empty and with a visible word, with room for a primitive and without. -/
theorem witness_EngineStreamWaitsAndOutputs :
    (engAt (engWord 0x38 0 0 0) eng).Ready 3 (engWord 0x38 0 0 0) [] false ∧
    (engAt (engWord 0x39 0 0 0) eng).Ready 3 (engWord 0x39 0 0 0) [] false ∧
    (engAt (engWord 0x3E 0 0 0) eng).Ready 3 (engWord 0x3E 0 0 0) [] false ∧
    (engAt (engWord 0x36 0 2 4) eng).Ready 3 (engWord 0x36 0 2 4) [2] false ∧
    (engAt (engWord3 0x3A 0 1 2 0) eng).Ready 3 (engWord3 0x3A 0 1 2 0) [1, 2] false ∧
    (engAt (engWord3 0x3B 0 1 2 0) eng).Ready 3 (engWord3 0x3B 0 1 2 0) [1, 2] false ∧
    ((engAt 0 eng).engines[(3 : Fin 128)]).queue.filter (fun q => q.entered + 4 ≤ 4) = [] ∧
    (({ engAt (engWord 0x38 0 0 0) { eng with queue := [⟨7, 0⟩] } with time := { TimeState.reset with clock := 4 } } : State).visible 3) = [⟨7, 0⟩] ∧
    ((engAt 0 eng).tiles[tileOfEng 3]).prims.length < 4 ∧ ((engAt 0 eng).tiles[tileOfEng 3]).records.length < 8 ∧
    4 ≤ ({ TileState.reset with prims := List.replicate 4 ⟨0, 0, 0, 0, 0⟩ } : TileState).prims.length := by
  unfold State.Ready
  and_intros <;> decide +kernel

/-- RAISE and HALT with room in the source buffer; an illegal word; a watchdog at its budget less 1; a trapped engine after 32 clocks; a reached wait; a visible word for a sleeper. -/
theorem witness_EngineEventsAndStates :
    (engAt (engWord 0x3C 0 1 63) eng).Ready 3 (engWord 0x3C 0 1 63) [1] false ∧
    (engAt (engWord 0x3F 0 0 0) eng).Ready 3 (engWord 0x3F 0 0 0) [] false ∧
    live.fd.sources.length < 4 ∧
    legalWord 0xFFFFFFFF = false ∧
    ((engAt 0xFFFFFFFF eng).engines[(3 : Fin 128)]).word = 0xFFFFFFFF ∧
    (liveP [(pEngBudget 3, 9)]).rd (pEngBudget 3) ≤ 8 + 1 ∧ (liveP [(pEngBudget 3, 9)]).rd (pEngBudget 3) ≠ 0 ∧
    (let s := liveP [(pEngAutorestart 3, 3), (pPwrHoldCap, 1000000)]; (0 : Nat) < s.rd (pEngAutorestart 3)) ∧
    ((0 : BitVec 30) - 0).toInt ≤ 0 ∧ (16 : Nat) ≤ ({ live with therm := { Thermal.reset with cycles := 16 } } : State).therm.cycles := by
  unfold State.Ready
  and_intros <;> decide +kernel


/-! ### Hit channels -/

/-- Acquisition armed since tick 0. -/
def armedAcq : Acq := { Acq.reset with state := .armed }
/-- A channel that runs at a threshold of 0 with a hysteresis of 4. -/
def chan : Channel := { Channel.reset with state := .running }
/-- A live, armed part with channel 5 as `c` and the clock at `n`. -/
def hitS (c : Channel) (n : Nat) : State := { chanS c with acq := armedAcq, time := { TimeState.reset with clock := n } }
/-- A hit that is open, and one whose codes are converted. -/
def openHit : HitEntry := { lead := ⟨100, 7, 0, 300⟩, trail := none, leadFine := none, trailFine := none, status := .openHit, pileup := false, offset := 0 }
def closedHit : HitEntry :=
  { lead := ⟨100, 7, 0, 300⟩, trail := some ⟨102, 7, 0, 310⟩, leadFine := some 5, trailFine := some 9, status := .normal, pileup := true, offset := 0 }
/-- A table whose span is codes 200 to 455, and a waiting inactive interval. -/
def table : LinTable :=
  { channel := 5, valid := true, factory := false, spanLow := 200, spanHigh := 455, base := 0, calTemp := 25, trim := 0, edges := 20, inc := List.replicate 256 4 }

/-- A hit of 2 ticks and 4 steps: channel 5, lead 100:12, ToT 2,052/16 = 128, PILEUP (Table 2.5). -/
theorem test_hitWord : hitWord 5 closedHit = (BitVec.ofNat 64 (5 * 2 ^ 56 + 100 * 2 ^ 26 + 12 * 2 ^ 16 + 128 * 2 ^ 4 + 4), 100 * 1024 + 12) := by decide +kernel
theorem test_edge_opens_a_hit : ((after (hitS chan 9) (.discriminatorEdge 5 129 300)).chans[(5 : Fin 256)]).entries.length = 1 := by decide +kernel
theorem test_edge_at_the_switching_point_is_none : (after (hitS chan 9) (.discriminatorEdge 5 128 300)).chans[(5 : Fin 256)] = { chan with volts := 128 } := by
  decide +kernel
theorem test_outrange_counts : (after (hitS { chan with entries := [{ openHit with lead := ⟨100, 7, 0, 456⟩ }], table := some table } 9) (.sarSlot 5)).rd
    (pChanCntOutrange 5) = 1 := by decide +kernel

theorem witness_EdgesAndBlindIntervalsMakeHits :
    (live.on (tileOf 5).val = true ∧ chan.front.mode ≠ 2 ∧ chan.front.polarity = 0 ∧ Channel.reset.state = .disabled) ∧
    ((hitS chan 9).streaming = true ∧ (hitS chan 9).chans[(5 : Fin 256)] = chan ∧ chan.blind = none ∧ chan.level = false ∧
      (25 * signed 12 chan.front.thresh + 32 * (chan.front.hyst : Int) : Int) < 129 ∧ chan.entries.length < 8) ∧
    ((hitS { chan with entries := List.replicate 8 openHit } 9).streaming = true ∧ 8 ≤ (List.replicate 8 openHit).length) ∧
    ((hitS { chan with level := true, entries := [openHit] } 9).streaming = true ∧ (-129 : Int) < 25 * signed 12 chan.front.thresh - 32 * (chan.front.hyst : Int) ∧
      openHit.status = .openHit) ∧
    ((hitS { chan with blind := some ⟨false, false, false⟩ } 9).streaming = true) ∧
    (∀ x l t : Bool, ((hitS { chan with blind := some ⟨l, t, x⟩, level := true } 9).chans[(5 : Fin 256)]).blind = some ⟨l, t, x⟩) ∧
    (∀ x l t : Bool, ((hitS { chan with blind := some ⟨l, t, x⟩ } 9).chans[(5 : Fin 256)]).level = false) := by
  and_intros <;> decide +kernel

theorem witness_HitsAreConvertedOfferedAndReleased :
    (closedHit.leadFine = some 5 ∧ closedHit.trail = some ⟨102, 7, 0, 310⟩ ∧ closedHit.trailFine = some 9 ∧ closedHit.status = .normal ∧
      (100 * 1024 + 7 + 5 : Int) ≤ 102 * 1024 + 7 + 9) ∧
    ((102 * 1024 + 16 : Int) - (100 * 1024 + 12) < 65536 ∧ (65536 : Int) ≤ (164 * 1024 + 12) - (100 * 1024 + 12)) ∧
    (∃ s : State, s = hitS { chan with entries := [openHit], table := some table } 9 ∧ s.on (tileOf 5).val = true ∧
      (s.chans[(5 : Fin 256)]).entries = [openHit] ∧ (s.chans[(5 : Fin 256)]).table = some table ∧
      openHit.leadFine = none ∧ openHit.status = .openHit ∧ table.spanLow ≤ 200 ∧ 200 ≤ table.spanHigh ∧ 455 ≤ table.spanHigh ∧ table.spanHigh < 456) ∧
    (∃ s : State, s = hitS { chan with entries := [closedHit], table := some table } 9 ∧ closedHit.ready = true ∧ closedHit.trailFine ≠ none ∧
      (s.tiles[(0 : Fin 16)]).held.length + (s.tiles[(0 : Fin 16)]).output.length < 64 ∧ (s.tiles[(0 : Fin 16)]).lastLeft = none) ∧
    (∃ s : State, s = { live.setTile 0 { TileState.reset with held := [⟨1, 5, 0, 0⟩, ⟨2, 4, 0, 10⟩] } with time := { TimeState.reset with clock := 80 } } ∧
      s.on 0 = true ∧ (s.tiles[(0 : Fin 16)]).held = [⟨1, 5, 0, 0⟩, ⟨2, 4, 0, 10⟩] ∧ 0 + 80 ≤ s.time.clock ∧ s.barred 0 ⟨1, 5, 0, 0⟩ = false) := by
  refine ⟨by decide, by decide, ⟨_, rfl, ?_⟩, ⟨_, rfl, ?_⟩, ⟨_, rfl, ?_⟩⟩ <;> and_intros <;> decide +kernel

/-- A blank that ends at clock 0. -/
def blank : Blank := ⟨0, false, 0⟩

theorem witness_ChannelTimersAndRecalibrationRun :
    (∃ s : State, s = hitS { chan with stuckFrom := some 0, entries := [openHit] } (live.rd (pChanStuckLimit 5)) ∧ s.on (tileOf 5).val = true ∧ s.streaming = true ∧
      openHit ∈ (s.chans[(5 : Fin 256)]).entries ∧ openHit.status = .openHit ∧ openHit.trail = none ∧
      (s.chans[(5 : Fin 256)]).stuckFrom = some 0 ∧ 0 + s.rd (pChanStuckLimit 5) ≤ s.time.clock) ∧
    (∃ s : State, s = { hitS { chan with state := .quarantined, inactiveFrom := some 0 } 1024 with params := [(pChanAutoreadmit 5, 1)] } ∧
      (s.chans[(5 : Fin 256)]).state = .quarantined ∧ s.streaming = true ∧ s.rd (pChanAutoreadmit 5) = 1 ∧ (s.chans[(5 : Fin 256)]).inactiveFrom = some 0 ∧
      0 + 1024 ≤ s.time.clock) ∧
    (∃ s : State, s = hitS { chan with state := .blanked, blank := some blank } 0 ∧ (s.chans[(5 : Fin 256)]).state = .blanked ∧
      (s.chans[(5 : Fin 256)]).blank = some blank ∧ blank.ends ≤ s.time.clock ∧ (s.chans[(5 : Fin 256)]).calOutcome = none ∧ (s.chans[(5 : Fin 256)]).calWaiting = false) ∧
    (∃ s : State, s = hitS { chan with state := .blanked, blank := some blank, calOutcome := some 3 } 0 ∧ (s.chans[(5 : Fin 256)]).calOutcome = some 3) ∧
    (∃ s : State, s = hitS { chan with calDue := true } 0 ∧ s.aelkoRuns = true ∧ (∀ k : Fin 16, (s.chans[chanOf 0 k]).state ≠ .calibrating) ∧
      (s.chans[(5 : Fin 256)]).calDue = true ∧ (∀ k : Fin 16, chanOf 0 k ≠ 5 → (s.chans[chanOf 0 k]).calDue = false) ∧ (s.chans[(5 : Fin 256)]).calWaiting = false) ∧
    (∃ s : State, s = hitS { chan with state := .calibrating, calStart := some 0 } secondTicks ∧ (s.chans[(5 : Fin 256)]).state = .calibrating ∧
      (s.chans[(5 : Fin 256)]).calStart = some 0 ∧ 0 + secondTicks ≤ s.time.clock) := by
  refine ⟨⟨_, rfl, ?_⟩, ⟨_, rfl, ?_⟩, ⟨_, rfl, ?_⟩, ⟨_, rfl, ?_⟩, ⟨_, rfl, ?_⟩, ⟨_, rfl, ?_⟩⟩ <;> and_intros <;> decide +kernel

/-- The histogram whose code `c` has `f c` counts. -/
def histOf (f : Nat → Nat) : List Nat := (List.range 1024).map f

theorem histOf_at (f : Nat → Nat) (hf : ∀ c, 1024 ≤ c → f c = 0) (c : Nat) : (histOf f)[c]?.getD 0 = f c := by
  by_cases h : c < 1024
  · simp [histOf, h]
  · simp [histOf, h, hf c (by omega)]

/-- 2^20 counts, flat to one count, over codes 100 to 867; and counts of codes 0 and 639 alone. -/
def flatAt (c : Nat) : Nat := if c < 100 then 0 else if c < 356 then 1366 else if c < 868 then 1365 else 0
def gapAt (c : Nat) : Nat := if c = 0 then 1 else if c = 639 then 1 else 0

theorem flat_at (c : Nat) : (histOf flatAt)[c]?.getD 0 = flatAt c := histOf_at flatAt (by intro c h; unfold flatAt; (repeat' split) <;> omega) c
theorem gap_at (c : Nat) : (histOf gapAt)[c]?.getD 0 = gapAt c := histOf_at gapAt (by intro c h; unfold gapAt; (repeat' split) <;> omega) c

def codesAt (f : Nat → Nat) (n lo : Nat) : Nat → Nat → List Nat → List Nat
  | 0, _, acc => acc
  | k + 1, above, acc => codesAt f n lo k (above + f (lo + k)) ((2 * above + f (lo + k)) * 512 / n :: acc)

theorem buildCodes_at {h : List Nat} {f : Nat → Nat} (hf : ∀ c, h[c]?.getD 0 = f c) (n lo k : Nat) :
    ∀ (above : Nat) (acc : List Nat), buildCodes h n lo k above acc = codesAt f n lo k above acc := by
  induction k with
  | zero => intro _ _; rfl
  | succ k ih => intro above acc; simp only [buildCodes, codesAt, hf, ih]

def isTable (r : Nat ⊕ LinTable) : Bool := match r with
  | .inr _ => true
  | .inl _ => false

theorem isTable_some {r : Nat ⊕ LinTable} (h : isTable r = true) : ∃ t : LinTable, r = .inr t := by
  cases r with
  | inl _ => cases h
  | inr t => exact ⟨t, rfl⟩

/-- A histogram that passes the checks of R43, of a channel and of a stamper, each at a limit of the check of its source, and one with a code unused, which
fails check 2. -/
theorem witness_HistogramComplete :
    live.rd (pTileCalEdges 0) = 20 ∧ (∃ t : LinTable, buildTable (histOf flatAt) (2 ^ 20) 8 60 60 100 5 0 0 = .inr t) ∧
    (∃ t : LinTable, buildTable (histOf flatAt) (2 ^ 20) 0 275 225 275 0x100 0 0 = .inr t) ∧ buildTable (histOf gapAt) (2 ^ 20) 0 60 60 100 5 0 0 = .inl 2 := by
  refine ⟨by decide +kernel, isTable_some ?_, isTable_some ?_, ?_⟩
  · unfold buildTable; simp only [flat_at, buildCodes_at flat_at]; decide +kernel
  · unfold buildTable; simp only [flat_at, buildCodes_at flat_at]; decide +kernel
  · unfold buildTable; simp only [gap_at, buildCodes_at gap_at]; decide +kernel

/-! ### Reference block -/

/-- A live part whose reference block is `r` with the clock at `n`, REFIN.MODE of input 0 at frequency, and PPSIN's window at its reset value. -/
def refS (r : RefBlock) (n : Nat) : State := { liveP [(pRefinMode 0, 1)] with ref := r, time := { TimeState.reset with clock := n, tick := BitVec.ofNat 64 n } }
def gate0 : Gate := RefBlock.reset.gates[(0 : Fin 4)]
def refGate (g : Gate) : RefBlock := { RefBlock.reset with gates := RefBlock.reset.gates.set 0 g, stampers := RefBlock.reset.stampers.set 0 ⟨[], none, some table, none, false, 0⟩ }
/-- A gate that closes with 1,024 edges in 2^20 fine steps. -/
def closing : Gate := { gate0 with opened := some 0, closing := some ⟨0, 0, some 1048576, 1024, true, 0⟩ }
def unit0 : DelayUnit := RefBlock.reset.units[(0 : Fin 4)]
def refUnit (u : DelayUnit) : RefBlock := { RefBlock.reset with units := RefBlock.reset.units.set 0 u }
def refOut (o : CalOut) : RefBlock := { RefBlock.reset with calout := RefBlock.reset.calout.set 0 o }
def refClk (o : ClkOut) : RefBlock := { RefBlock.reset with clkout := RefBlock.reset.clkout.set 0 o }
def refPps (p : Pps) : RefBlock := { RefBlock.reset with pps := p }
def clk0 : ClkOut := RefBlock.reset.clkout[(0 : Fin 2)]
/-- Device time has locked once. -/
def lockedOnce (s : State) : State := { s with time := { s.time with everLocked := true } }
/-- A train of three pulses, 2 µs apart, at tick 10. -/
def train : Train := ⟨10, 0, 4, 2048, 3, 0⟩

/-- 1,024 edges in 2^20 fine steps of 1/1,048,576 of 1 µs: 1,024 MHz, in units of 2^-24 Hz (R62). -/
theorem test_gate_frequency : (((after (refS (refGate closing) 1024) (.gateResult 0)).ref.gates[(0 : Fin 4)]).freq,
    ((after (refS (refGate closing) 1024) (.gateResult 0)).ref.gates[(0 : Fin 4)]).status) = (BitVec.ofNat 64 (1024000000 * 2 ^ 24), 1) := by
  decide +kernel
theorem test_dm_second_stop_is_dropped : ((after (refS (refUnit { unit0 with start := some 100, stops := [1124], n := 1, first := 1000 }) 10000000) (.dmConclude 0)).ref.units[
    (0 : Fin 4)]).sum = 24 := by decide +kernel

theorem witness_ReferenceGatesMeasure :
    (∃ s : State, s = refS RefBlock.reset 9 ∧ s.on 31 = true ∧ s.rd (pRefinMode 0) = 1 ∧ (s.ref.stampers[(0 : Fin 5)]).calibrating = false ∧
      (s.ref.stampers[(0 : Fin 5)]).tacs = [] ∧ (s.ref.stampers[(0 : Fin 5)]).lastEdge = none ∧
      (s.ref.gates[(0 : Fin 4)]).boundary ≤ 9 * 1024 ∧ (s.ref.gates[(0 : Fin 4)]).opened = none ∧
      (s.ref.gates[(0 : Fin 4)]).closing = none ∧ (s.ref.gates[(0 : Fin 4)]).boundary = 0) ∧
    (∃ s : State, s = refS (refGate { gate0 with boundary := 100 * 1024 }) 9 ∧ (9 * 1024 + s.stampFine 0 456 : Int) < (s.ref.gates[(0 : Fin 4)]).boundary) ∧
    (∃ s : State, s = refS (refGate { gate0 with opened := some 0 }) 9 ∧ (s.ref.gates[(0 : Fin 4)]).opened = some 0) ∧
    (∀ b : Bool, ∃ s : State, s = refS (refGate { closing with lost := b }) 1024 ∧
      (s.ref.gates[(0 : Fin 4)]).closing = some ⟨0, 0, some 1048576, 1024, true, 0⟩ ∧ (s.ref.gates[(0 : Fin 4)]).lost = b) ∧
    (∀ b : Bool, ∃ s : State, s = refS (refGate { gate0 with lost := b }) (1024 * live.rd (pRefinGate 0)) ∧
      s.on 31 = true ∧ s.rd (pRefinMode 0) = 1 ∧ (s.ref.gates[(0 : Fin 4)]).closing = none ∧ (s.ref.gates[(0 : Fin 4)]).lost = b ∧
      (s.ref.gates[(0 : Fin 4)]).boundary + (s.rd (pRefinGate 0) * 2 ^ 20 : Nat) ≤ (s.time.tick.toNat : Int) * 1024 + s.time.fine.toNat) ∧
    SparseWf resetOf [(pRefinMode 0, 1)] := by
  refine ⟨⟨_, rfl, ?_⟩, ⟨_, rfl, ?_⟩, ⟨_, rfl, ?_⟩, fun b => ⟨_, rfl, ?_⟩, fun b => ⟨_, rfl, ?_⟩, by decide +kernel⟩ <;> and_intros <;>
    first | (revert b; decide +kernel) | decide +kernel

theorem witness_StampersAndDelayUnitsMeasure :
    (∃ s : State, s = refS { RefBlock.reset with stampers := RefBlock.reset.stampers.set 2 ⟨[], none, none, none, true, 0⟩ } 9 ∧
      (s.ref.stampers[(2 : Fin 5)]).calibrating = true ∧ s.aelkoRuns = true) ∧
    (∃ s : State, s = refS { RefBlock.reset with stampers := RefBlock.reset.stampers.set 2 ⟨[], none, none, none, true, 0⟩ } 1024000000 ∧
      (s.ref.stampers[(2 : Fin 5)]).calibrating = true ∧ s.aelkoRuns = true ∧ (s.ref.stampers[(2 : Fin 5)]).calStart + 1024000000 ≤ s.time.clock) ∧
    (∃ s : State, s = refS (refUnit { unit0 with start := some 100, stops := [2147483747] }) (live.rd (pRefinDmClose 0) + 256) ∧
      (s.ref.units[(0 : Fin 4)]).start = some 100 ∧ 0 + s.rd (pRefinDmClose 0) + 256 ≤ s.time.clock ∧ (s.ref.units[(0 : Fin 4)]).stops = [2147483747] ∧
      s.rd (pRefinDmCntIgnored 0) ≤ 0xFFFFFFFF) ∧
    (∃ s : State, s = refS (refUnit { unit0 with start := some 100, stops := [1099], n := 1, first := 1000, sum := -2147483647 }) (live.rd (pRefinDmClose 0) + 256) ∧
      -2 ^ 31 ≤ (s.ref.units[(0 : Fin 4)]).sum + ((1099 - 100) - (s.ref.units[(0 : Fin 4)]).first)) ∧
    (∃ s : State, s = refS (refUnit { unit0 with start := some 100 }) (live.rd (pRefinDmClose 0) + 256) ∧ (s.ref.units[(0 : Fin 4)]).stops = [] ∧ s.on 31 = true) := by
  refine ⟨⟨_, rfl, ?_⟩, ⟨_, rfl, ?_⟩, ⟨_, rfl, ?_⟩, ⟨_, rfl, ?_⟩, ⟨_, rfl, ?_⟩⟩ <;> and_intros <;> decide +kernel

theorem witness_PulsesClocksAndSecondsGoOut :
    (∃ s : State, s = refS (refOut { train := some train, launched := 0, active := some 5, driven := false }) 10 ∧ (s.ref.calout[(0 : Fin 4)]).train = some train ∧
      (0 : Int) ≤ (s.time.tick - train.tick).toInt ∧ train.next + 1 < train.count ∧ (s.ref.calout[(0 : Fin 4)]).active = some 5 ∧ 5 ≤ s.time.clock) ∧
    (∃ s : State, s = refS (refOut { train := some { train with next := 2 }, launched := 2, active := none, driven := false }) 4106 ∧
      ((2 * 2048 * 1024 : Int) / 1024 ≤ (s.time.tick - train.tick).toInt) ∧ train.count ≤ 2 + 1 ∧ (∀ u : Fin 4, s.rd (pRefinDmStart u.val) ≠ 1 + 0)) ∧
    (∃ s : State, s = refS (refClk { clk0 with staged := some (1, 1, 0), stagedAt := 5 }) 5 ∧ (s.ref.clkout[(0 : Fin 2)]).staged = some (1, 1, 0) ∧
      ((s.ref.clkout[(0 : Fin 2)]).stagedAt - s.time.tick).toInt ≤ 0) ∧
    (∃ s : State, s = refS (refClk { clk0 with applied := some (1, 1, 0, 5) }) 5 ∧ (s.ref.clkout[(0 : Fin 2)]).applied = some (1, 1, 0, 5) ∧
      (s.ref.clkout[(0 : Fin 2)]).level = false ∧ (0 + (0 : Int) * 1024 * 1 / 1) ≤ (s.time.tick - 5).toInt * 1024 + 1023) ∧
    (∀ b : Bool, ∃ s : State, s = refS (refClk { clk0 with applied := some (1, 1, 0, 5), level := true, edge := 1, stopping := b }) 5 ∧
      (s.ref.clkout[(0 : Fin 2)]).stopping = b ∧ (s.ref.clkout[(0 : Fin 2)]).level = true ∧ (0 + (2 * 1 - 1 : Int) * 512 * 1 / 1) ≤ (s.time.tick - 5).toInt * 1024 + 1023) ∧
    (∃ s : State, s = lockedOnce (refS (refPps { RefBlock.reset.pps with enabled := true, lastSecond := some 0 }) 1024000000) ∧ s.ref.pps.enabled = true ∧
      s.on 31 = true ∧ s.time.everLocked = true ∧ s.ref.pps.staged = none ∧ s.ref.pps.lastSecond = some 0 ∧
      (0 : Int) < ((s.time.tick.toNat : Int) * 1024 + s.time.fine.toNat + 1023 - 0) / 1048576000000 ∧
      (s.time.tick.toNat : Int) * 1024 + s.time.fine.toNat ≤ 1 * 1048576000000 + 0) ∧
    (∃ s : State, s = refS (refPps { RefBlock.reset.pps with enabled := true, lastSecond := some 1 }) 1024000000 ∧ s.ref.pps.lastSecond = some 1 ∧
      ((s.time.tick.toNat : Int) * 1024 + s.time.fine.toNat + 1023 - 0) / 1048576000000 ≤ (1 : Nat)) ∧
    (∃ s : State, s = refS (refPps { RefBlock.reset.pps with level := true, inValid := true, inLast := some 0 }) 1536000000 ∧ s.ref.pps.level = true ∧
      0 + s.rd pRefinPpsWidth * 1024 ≤ s.time.clock ∧ s.ref.pps.inLast = some 0 ∧ s.ref.pps.inValid = true ∧ (s.ref.stampers[(4 : Fin 5)]).calibrating = false ∧
      (s.ref.stampers[(4 : Fin 5)]).tacs = [] ∧ (s.ref.stampers[(4 : Fin 5)]).lastEdge = none ∧
      s.rd pRefinPpsinWindow * 2 ^ 20 < 524288000000) := by
  refine ⟨⟨_, rfl, ?_⟩, ⟨_, rfl, ?_⟩, ⟨_, rfl, ?_⟩, ⟨_, rfl, ?_⟩, fun b => ⟨_, rfl, ?_⟩, ⟨_, rfl, ?_⟩, ⟨_, rfl, ?_⟩, ⟨_, rfl, ?_⟩⟩ <;> and_intros <;>
    first | (revert b; decide +kernel) | decide +kernel

/-! ### Links and time -/

/-- A port whose link has incarnation 1. -/
def portIn (st : PortState) : Port := { Port.reset with state := st, inc := 1, lastInc := some 1, partner := 2 }
/-- Every port's lanes up; ports 0 and 16 ADMITTED, port 1 and 17 STANDBY. -/
def upLanes : Lanes := { Lanes.reset with ports := Vector.replicate 18 { Bringup.reset with state := .running } }
def upPorts : Vector Port 18 :=
  (((Vector.replicate 18 Port.reset).set 0 (portIn .admitted)).set 16 (portIn .admitted)).set 1 (portIn .standby) |>.set 17 (portIn .standby)
def linkP (ps : Params) : State := { liveP ps with lanes := upLanes, ports := upPorts }
def linkS : State := linkP [(pPwrHoldCap, 1000000)]
theorem linkS_inv : linkS.Inv := live_inv
/-- A PTP message without fault, over a TIME frame or in a MAC frame of the group address. -/
def ptp : TimeMeta := ⟨good, ⟨ptpGroup, 0x88F7, false, 64⟩, 0⟩
/-- `linkS` with domain 0 as `x`, device time at `n`. -/
def domS (ps : Params) (x : Domain) (n : Nat) : State :=
  { linkP ps with time := { TimeState.reset with clock := n, tick := BitVec.ofNat 64 n, domains := (Vector.replicate 2 Domain.reset).set 0 x } }
/-- An exchange whose Delay_Req has gone; times in 2^-16 ns. -/
def exchanged : Exchange := { seq := some 4, t1 := some 0, t2 := some 6553600, reqSeq := 9, reqSent := true, t3 := some 6553600, epoch := 0, bad := false }

/-- t1 = 0, t2 = 100 ns, t3 = 100 ns, t4 = 200 ns: a path delay of 100 ns (R85). -/
theorem test_delayResp : ((after (domS [] { Domain.reset with exchange := exchanged } 9) (.delayResp 0 ptp 9 (.device ⟨204, 820⟩))).time.domains[(0 : Fin 2)]).pathRun.map
    (fun x => x.2 / 65536) = [100] := by decide +kernel

theorem witness_Hears : linkS.Hears 0 good ∧ linkS.Hears 1 good ∧ linkS.Hears 16 good ∧ linkS.Hears 17 good ∧ linkS.HearsAny 16 { good with link := 9 } := by
  unfold State.Hears State.HearsAny; and_intros <;> first | exact good_clean | decide +kernel

theorem witness_HearsTime : linkS.HearsTime 0 ptp ∧ linkS.HearsTime 1 ptp ∧
    (∃ s : State, s = { linkP [(pLaneMacLo, 7), (pTimeDTransport 0, 1)] with lanes := { upLanes with onBasex := Vector.replicate 2 true, basex := Vector.replicate 2 ⟨true, true, true, 0⟩ } } ∧
      s.onBasex 0 = true ∧ s.HearsTime 0 ptp) := by
  refine ⟨⟨by decide, fun _ => witness_Hears.1, fun h => absurd h (by decide +kernel)⟩, ⟨by decide, fun _ => witness_Hears.2.2.2.1, fun h => absurd h (by decide +kernel)⟩,
    _, rfl, by decide +kernel, by decide, fun h => absurd h (by decide +kernel), fun _ => ?_⟩
  and_intros <;> first | exact good_clean | decide +kernel

theorem witness_TimeExchangesMoveTheDomains :
    (∃ s : State, s = domS [] Domain.reset 9 ∧ s.on 30 = true ∧ s.onBasex 0 = false ∧ s.dEnabled 0 = true ∧
      (s.time.domains[(0 : Fin 2)]).exchange.seq = none ∧ (s.ports[(0 : Fin 18)]).state = .admitted) ∧
    (∃ s : State, s = domS [] { Domain.reset with exchange := { exchanged with t1 := none } } 9 ∧
      (s.time.domains[(0 : Fin 2)]).exchange.seq = some 4 ∧ (s.time.domains[(0 : Fin 2)]).exchange.t1 = none ∧ (some 4 : Option Half) ≠ some 5) ∧
    (∃ s : State, s = domS [] { Domain.reset with exchange := exchanged } 9 ∧ (s.time.domains[(0 : Fin 2)]).exchange = exchanged ∧
      exchanged.reqSent = true ∧ exchanged.reqSeq = 9 ∧ exchanged.bad = false ∧ exchanged.epoch = s.time.epoch ∧
      (0 : Int) ≤ ((6553600 - 0) + (fineToNs16 (6400 * 1024) - 6553600)) / 2 ∧ ((6553600 - 0) + (fineToNs16 0 - 6553600 - 2) : Int) / 2 < 0) ∧
    (∃ s : State, s = domS [] { Domain.reset with exchange := { exchanged with bad := true } } 9 ∧ (s.time.domains[(0 : Fin 2)]).exchange.bad = true) ∧
    (∃ s : State, s = domS [] { Domain.reset with consecutive := 15 } 9 ∧ (s.time.domains[(0 : Fin 2)]).masterJump = false ∧ (s.time.domains[(0 : Fin 2)]).pathChanged = false ∧
      (s.time.domains[(0 : Fin 2)]).tracking = false ∧ (0 : Int).natAbs ≤ s.stepLimit.toNat ∧
      ((0 : Int) - (s.time.domains[(0 : Fin 2)]).mpd).natAbs ≤ s.pathLimit.toNat ∧ 16 ≤ (s.time.domains[(0 : Fin 2)]).consecutive + 1) ∧
    (∃ s : State, s = { domS [] Domain.reset 9 with time := { TimeState.reset with stepped := true, domains := (Vector.replicate 2 Domain.reset).set 0 { Domain.reset with
        jumps := [1 + live.stepLimit, 1 + live.stepLimit] } } } ∧ s.time.stepped = true ∧ s.stepLimit.toNat < (1 + s.stepLimit).natAbs ∧
      s.stepLimit.toNat < (1 + s.stepLimit + (s.time.domains[(0 : Fin 2)]).asymShift).natAbs ∧
      2 ≤ (s.time.domains[(0 : Fin 2)]).jumps.length) ∧
    (∃ s : State, s = domS [] { Domain.reset with measured := true, pathRun := [(1, 1 + live.pathLimit), (2, 2 + live.pathLimit)] } 9 ∧
      (s.time.domains[(0 : Fin 2)]).measured = true ∧ (s.time.domains[(0 : Fin 2)]).masterJump = false ∧ (s.time.domains[(0 : Fin 2)]).pathChanged = false ∧
      (s.time.domains[(0 : Fin 2)]).pathRun = [(1, 1 + live.pathLimit), (2, 2 + live.pathLimit)] ∧
      s.pathLimit < 1 + live.pathLimit - (s.time.domains[(0 : Fin 2)]).mpd ∧ s.pathLimit < 2 + live.pathLimit - (s.time.domains[(0 : Fin 2)]).mpd) ∧
    SparseWf resetOf [(pLaneMacLo, 7), (pTimeDTransport 0, 1)] ∧
    ((999999999 : Word).toNat < 10 ^ 9 ∧ (7 : BitVec 48).toNat * 1024000000 + 1024000000 ≤ 2 ^ 64) := by
  refine ⟨⟨_, rfl, ?_⟩, ⟨_, rfl, ?_⟩, ⟨_, rfl, ?_⟩, ⟨_, rfl, ?_⟩, ⟨_, rfl, ?_⟩, ⟨_, rfl, ?_⟩, ⟨_, rfl, ?_⟩, by decide +kernel, by decide⟩ <;> and_intros <;> decide +kernel

theorem witness_AnnouncesAndIntervalsCheckTheDomains :
    (linkS.on 30 = true ∧ linkS.onBasex 0 = false) ∧
    (∃ s : State, s = { linkP [(pLaneMacLo, 7), (pTimeDTransport 0, 1)] with lanes := { upLanes with onBasex := Vector.replicate 2 true, basex := Vector.replicate 2 ⟨true, true, true, 0⟩ } } ∧ s.onBasex 0 = true ∧
      (s.lanes.basex[(0 : Fin 2)]).linkUp = true ∧ s.dEnabled 0 = true ∧ s.laneMac ≠ 0) ∧
    (∃ s : State, s = domS [] { Domain.reset with missed := live.rd pTimeLostCount - 1 } 9 ∧ s.linked (downPort 0) = true ∧ s.linked (downPort 2) = false ∧
      s.dEnabled 0 = true ∧ s.dEnabled 1 = false ∧ s.rd pTimeLostCount ≤ (s.time.domains[(0 : Fin 2)]).missed + 1) ∧
    (∃ s : State, s = { domS [(pTimeRevert, 1)] Domain.reset 9 with time := { TimeState.reset with
        clock := 1024000000 * live.rd pTimeRevertHold, servo := .locked, active := 1
        domains := (Vector.replicate 2 Domain.reset).set 0 { Domain.reset with lost := false, tracking := true, healthySince := some 0 } } } ∧
      s.on 30 = true ∧ s.time.servo.follows = true ∧ s.rd pTimeRevert = 1 ∧ s.time.active ≠ s.preferred ∧ s.healthy s.preferred = true ∧
      (s.time.domains[s.preferred]).healthySince = some 0 ∧ 0 + 1024000000 * s.rd pTimeRevertHold ≤ s.time.clock) ∧
    live.rd pTimeRevert ≠ 1 := by
  refine ⟨by decide +kernel, ⟨_, rfl, ?_⟩, ⟨_, rfl, ?_⟩, ⟨_, rfl, ?_⟩, by decide +kernel⟩ <;> and_intros <;> decide +kernel

/-! ### Acquisition and the porter -/

/-- `linkS` at tick `n`. -/
def atTick (s : State) (n : Nat) : State := { s with time := { s.time with tick := BitVec.ofNat 64 n, clock := n } }
/-- An accept of 100 ticks from tick 50, launched at tick 200. -/
def acc : Accept := ⟨7, 50, 100, 200⟩
/-- What stood at the receipt: ACQ.PRETRIG and ACQ.MAX_BOOKINGS. -/
def rc (pre most : Nat) : Receipt := ⟨pre, most, 0, 0, 0⟩
def restep : Restep := ⟨0x100000, false, 0, 5, .aelko, 0⟩
/-- A porter with ten free rooms, low water at 0, and its chains empty. -/
def porterS (p : Porter) : State := { liveP [(pRoomsLowWater, 0), (pRoomsReserve, 0)] with porter := p, acq := armedAcq }
def porter0 : Porter := { Porter.reset with total := 10, freeCount := 10, inForce := [(pRoomsLowWater, 0), (pRoomsReserve, 0)] }
/-- The booking of `acc`, which expects port 0. -/
def book : Booking :=
  { event := 7, state := .opened, station := false, step := false, suspect := false, truncated := false, corrupt := false, expected := 1, start := 50, length := 100
    launch := 200, close := 300, reported := 0, absent := 0, enabled := 1, standby := 0, index := some 3, ranges := [(0, [])], children := [], ownBytes := 0, order := 0 }
def booked (b : Booking) (cached : List Nat) : Porter := { porter0 with bookings := [(7, b)], cached := cached }
/-- A readout of that booking in unit 1. -/
def readout1 (st : ReadStage) : Readout :=
  { source := .booking 7, stage := st, unit := some 1, codec := 1, depth := 16, huffman := 0, streamKib := 64, awaiting := 0, words := [], childWords := [], raw := [], size := 0, streams := []
    payload := [], corrupt := false, fallback := false, nounit := false }
def unitIn (st : UnitState) (n : Nat) : Compression := { Compression.reset with units := Compression.reset.units.set 1 ⟨st, n⟩ }

theorem test_booking_without_children_is_ready : (((after (atTick (porterS (booked { book with expected := 0 } [])) 300) (.bookingClose 7)).booking 7).map (fun b => b.state)) =
    some .ready := by decide +kernel

theorem witness_MilestonesAndLaunchesAct :
    (∃ s : State, s = { atTick live 0x100000 with acq := { Acq.reset with state := .armPending, armTick := 0x100000 } } ∧ s.on 30 = true ∧ s.on 20 = true ∧
      s.time.tick.toNat % 2 ^ 20 = 0 ∧ s.time.lastMilestone ≠ some s.time.tick ∧ s.acq.criticalOff = none ∧ atOrBefore s.acq.armTick s.time.tick = true ∧
      atOrBefore (s.acq.armTick + 1) s.time.tick = false ∧ atOrBefore s.acq.disarmTick s.time.tick = true) ∧
    (∃ s : State, s = { live with time := { TimeState.reset with tick := 0x100000, restep := some restep } } ∧ s.time.firstStep = none ∧ s.time.restep = some restep ∧
      restep.adopt = false ∧ atOrBefore restep.milestone s.time.tick = true) ∧
    (∃ s : State, s = live.setTile 2 { TileState.reset with disarmWord := some 3 } ∧ (s.tiles[(2 : Fin 16)]).disarmWord = some 3 ∧
      (∀ c : Fin 16, (s.chans[chanOf 2 c]).entries = []) ∧ s.red.due = none) ∧
    (∃ s : State, s = { live with red := { Reduction.reset with due := some 0x100000 } } ∧ s.red.due = some 0x100000 ∧
      (∀ u : Fin 16, (s.tiles[u]).held = [] ∧ (s.tiles[u]).disarmWord = none)) ∧
    (∃ s : State, s = atTick (porterS porter0) (live.rd pAcqPretrig) ∧ s.streaming = true ∧ (s.rd pAcqPretrig : Int) ≤ (s.time.tick - s.acq.armTick).toInt) ∧
    (∀ p : Bool, ∃ s : State, s = atTick { linkS with time := { TimeState.reset with queue := [.frame 9 (if p then 0 else 2) (.test 5) 1] } } 9 ∧ s.on 30 = true ∧
      s.dueLaunch = some (.frame 9 (if p then 0 else 2) (.test 5) 1) ∧ s.linked (downPort (if p then 0 else 2)) = p) ∧
    (∃ s : State, s = atTick { porterS porter0 with time := { TimeState.reset with queue := [.booking acc none (rc 100 16)] } } 200 ∧
      s.dueLaunch = some (.booking acc none (rc 100 16)) ∧
      s.on 30 = true ∧ s.on 20 = true ∧ ({ s with time := { s.time with queue := [] } } : State).launchCause acc (rc 100 16) = none) ∧
    (∃ s : State, s = atTick { live with time := { TimeState.reset with queue := [.booking acc none (rc 100 16)] } } 200 ∧ s.dueLaunch = some (.booking acc none (rc 100 16)) ∧
      ({ s with time := { s.time with queue := [] } } : State).launchCause acc (rc 100 16) = some 6) ∧
    live.launchCause acc (rc 100 16) = some 6 ∧ (porterS porter0).launchCause acc (rc 201 16) = some 7 ∧
    ({ porterS { porter0 with chains := porter0.chains.set 0 { Chain.reset with held := 51 } } with chans := (Vector.replicate 256 Channel.reset).set 5 chan }
      : State).launchCause acc (rc 200 16) = some 8 ∧
    (porterS { porter0 with heldSlots := [7] }).launchCause acc (rc 200 16) = some 9 ∧ (porterS porter0).launchCause acc (rc 200 0) = some 10 := by
  refine ⟨⟨_, rfl, ?_⟩, ⟨_, rfl, ?_⟩, ⟨_, rfl, ?_⟩, ⟨_, rfl, ?_⟩, ⟨_, rfl, ?_⟩, fun b => ⟨_, rfl, ?_⟩, ⟨_, rfl, ?_⟩, ⟨_, rfl, ?_⟩, ?_, ?_, ?_, ?_, ?_⟩ <;> and_intros <;>
    first | (revert b; decide +kernel) | decide +kernel

theorem witness_AcceptsPrimitivesAndRecordsAreTaken :
    (∃ s : State, s = { linkS with ports := upPorts.set 0 Port.reset } ∧ s.HearsAny 16 good ∧ 16 = s.dataPort ∧ (s.ports[(16 : Fin 18)]).state = .admitted ∧
      s.on 20 = true ∧ ¬ 0 ≤ (s.time.tick - acc.launch).toInt ∧ (∀ k : Fin 16, (s.ports[downPort k]).state ≠ .admitted) ∧ acc.length ≠ 0 ∧
      acc.length.toNat ≤ s.rd pAcqWindowMax ∧ acc.event.msb = false ∧ s.duplicate acc.event = false ∧ s.time.queue.length < 256 ∧ s.rd pAcqStation ≠ 1 ∧ s.time.queue = []) ∧
    (∃ s : State, s = atTick linkS 200 ∧ 0 ≤ (s.time.tick - acc.launch).toInt ∧ (s.ports[downPort 0]).state = .admitted) ∧
    live.rd pAcqCntRefused = 0 ∧ live.hasRoom 498 = true ∧ (liveP [(pAcqCntRefused, 3)]).rd pAcqCntRefused ≠ 0 ∧ SparseWf resetOf [(pAcqCntRefused, 3)] ∧
    (∃ s : State, s = linkS ∧ s.HearsAny 0 good ∧ (s.ports[(0 : Fin 18)]).state = .admitted ∧ (s.ports[s.dataPort]).state = .admitted ∧
      s.acq.prims.length < 32 ∧ s.rd pAcqPrimUp = 1) ∧
    (∀ full : Bool, ∃ s : State, s = ({ linkS with acq := { Acq.reset with prims := List.replicate (if full then 32 else 0) ⟨0, 0, 0, 0, 0⟩ } } : State).setTile 2
        { TileState.reset with prims := [⟨0, 0, 0, 0, 0⟩] } ∧ s.on 20 = true ∧ (s.tiles[(2 : Fin 16)]).prims = [⟨0, 0, 0, 0, 0⟩] ∧
      (∀ u : Fin 16, u ≠ 2 → (s.tiles[u]).prims = []) ∧ s.rd pAcqPrimUp = 1 ∧ (s.ports[s.dataPort]).state = .admitted ∧ (32 ≤ s.acq.prims.length ↔ full = true)) ∧
    (live.ports[live.dataPort]).state ≠ .admitted ∧ live.rd pAcqPrimUp = 1 ∧ (liveP [(pAcqPrimUp, 0)]).rd pAcqPrimUp ≠ 1 ∧
    32 ≤ (List.replicate 32 (⟨0, 0, 0, 0, 0⟩ : PrimFrame)).length ∧
    (∃ s : State, s = live.setTile 2 { TileState.reset with prims := [⟨0, 0, 0, 0, 0⟩], records := [⟨16, 5, 9, 0⟩] } ∧ s.on 20 = true ∧ s.on 34 = true ∧
      (s.tiles[(2 : Fin 16)]).prims = [⟨0, 0, 0, 0, 0⟩] ∧ (s.tiles[(2 : Fin 16)]).records = [⟨16, 5, 9, 0⟩] ∧
      (∀ u : Fin 16, u ≠ 2 → (s.tiles[u]).prims = [] ∧ (s.tiles[u]).records = []) ∧ s.streaming = false) := by
  unfold State.HearsAny
  refine ⟨⟨_, rfl, ?_⟩, ⟨_, rfl, ?_⟩, ?_, ?_, ?_, ?_, ⟨_, rfl, ?_⟩, fun full => ⟨_, rfl, ?_⟩, ?_, ?_, ?_, ?_, ⟨_, rfl, ?_⟩⟩ <;> and_intros <;>
    first | exact good_clean | decide +kernel | (cases full <;> decide +kernel)

theorem witness_RoomsAreGrantedAndShown :
    (∃ s : State, s = porterS { porter0 with requests := [(3, 1)] } ∧ s.on 20 = true ∧ s.streaming = true ∧ s.porter.requests = [(3, 1)] ∧ s.atReserve = false ∧
      s.takeHead.isSome = true ∧ (s.porter.chains[3]).rooms = [] ∧ s.porter.monQueue = [] ∧ (∀ t : Fin 16, (s.tiles[t]).output = [])) ∧
    (∃ s : State, s = porterS { booked { book with index := none } [] with requests := [(33, 1)] } ∧ s.on 20 = true ∧ s.streaming = true ∧
      s.porter.requests = [(33, 1)] ∧ s.takeHead.isSome = true ∧ s.porter.bookings = [(7, { book with index := none })] ∧
      s.porter.monQueue = [] ∧ (∀ t : Fin 16, (s.tiles[t]).output = [])) ∧
    live.porter.freeCount = 0 ∧ (porterS porter0).porter.freeCount ≠ 0 ∧ (porterS porter0).porter.fresh < (porterS porter0).roomsFit ∧
    ((porterS porter0).room (porterS porter0).porter.fresh).state ≠ .out ∧
    (porterS { porter0 with fresh := 243712, freed := [4] }).roomsFit ≤ (porterS { porter0 with fresh := 243712, freed := [4] }).porter.fresh ∧
    243711 < live.roomsFit := by
  refine ⟨⟨_, rfl, ?_⟩, ⟨_, rfl, ?_⟩, ?_, ?_, ?_, ?_, ?_, ?_⟩ <;> and_intros <;> decide +kernel

/-- The words of a record whose 60 bytes are 0. -/
def recWords : List (Nat × DWord) := [(7, BitVec.ofNat 64 (2 ^ 32 * (crc32c (List.replicate 60 0)).toNat))]

theorem witness_BookingsCloseAndFetch :
    live.booking 7 = none ∧
    (∃ s : State, s = atTick (porterS (booked book [])) 300 ∧ s.booking 7 = some book ∧ book.state = .opened ∧ 0 ≤ (s.time.tick - book.close).toInt ∧
      s.porter.cached.length < 2048 ∧ 7 ∉ s.porter.cached ∧ s.on 20 = true ∧ s.porter.fetches = []) ∧
    0 < (book.close - (atTick live 299).time.tick).toInt ∧
    (∃ s : State, s = atTick (porterS (booked { book with state := .closed } [7])) (300 + 1024 * live.rd pPortCompleteTimeout) ∧
      s.booking 7 = some { book with state := .closed } ∧ 0 ≤ (s.time.tick - (book.close + BitVec.ofNat 64 (1024 * s.rd pPortCompleteTimeout))).toInt ∧
      (∀ p : Fin 18, (s.ports[p]).rx = none) ∧ book.expected &&& ~~~(book.reported ||| book.absent) ≠ 0 ∧ 7 ∈ s.porter.cached) ∧
    (∀ w : List (Nat × DWord), w = recWords ∨ w = [] →
      (withCrc32c (((List.range 8).flatMap (fun i => natLe 8 (((w.find? (fun x => x.1 = i)).map (fun x => x.2.toNat)).getD 0))).take 60) =
        (List.range 8).flatMap (fun i => natLe 8 (((w.find? (fun x => x.1 = i)).map (fun x => x.2.toNat)).getD 0)) ↔ w = recWords)) := by
  refine ⟨?_, ⟨_, rfl, ?_⟩, ?_, ⟨_, rfl, ?_⟩, ?_⟩
  iterate 4 · and_intros <;> decide +kernel
  · rintro w (rfl | rfl) <;> decide +kernel

/-- A record of booking 7 that port 16 sends. -/
def txRec : TxRecord := ⟨some (.booking 7), waybill, [1, 2, 3, 4, 5, 6, 7, 8], 8, true⟩
def fragment0 : MonFragment := ⟨0, 0, 5, [], false, false⟩

theorem witness_ReadoutsStartAndRelease :
    (firstWaiting live.waitingT = none ∧ firstWaiting live.waitingM = none) ∧
    (∃ s : State, s = porterS (booked { book with state := .ready } [7]) ∧ firstWaiting s.waitingT = some (.booking 7) ∧ firstWaiting s.waitingM = none ∧ s.on 20 = true ∧
      (∀ o ∈ s.porter.readouts, o.stage ≠ .again) ∧ (s.lookDeficits.chooseReadout).isSome = true ∧ 7 ∈ s.porter.cached ∧ s.noUnit = false ∧
      s.idleUnitNo = some 0 ∧ s.readout (.booking 7) = none ∧ ({ s with params := [(pCmpMode, 1)] } : State).wantedCodec (.booking 7) ≠ 0) ∧
    (∃ s : State, s = porterS (booked { book with state := .ready } []) ∧ (∀ o ∈ s.porter.readouts, o.stage ≠ .again) ∧
      (s.lookDeficits.chooseReadout).isSome = true ∧ 7 ∉ s.porter.cached) ∧
    (∃ s : State, s = { porterS (booked { book with state := .ready } [7]) with params := [(pCmpMode, 1)], comp := { Compression.reset with
        units := Vector.replicate 4 ⟨.pass1, 0⟩ } } ∧ (s.lookDeficits.chooseReadout).isSome = true ∧ s.wantedCodec (.booking 7) ≠ 0 ∧ s.noUnit = false ∧ s.idleUnitNo = none) ∧
    (∃ s : State, s = porterS { porter0 with readouts := [readout1 .again] } ∧ s.porter.readouts.find? (fun o => o.stage = .again) = some (readout1 .again)) ∧
    (∃ s : State, s = porterS { porter0 with monitor := [fragment0] } ∧ firstWaiting s.waitingT = none ∧ firstWaiting s.waitingM = some (.monitor 0)) ∧
    (∃ s : State, s = porterS { booked { book with state := .ready } [7] with monitor := [fragment0], deficitT := 1, turnM := false } ∧ firstWaiting s.waitingT = some (.booking 7) ∧
      firstWaiting s.waitingM = some (.monitor 0) ∧ s.porter.turnM = false ∧ 0 < s.porter.deficitT) ∧
    (∃ s : State, s = { porterS { booked { book with state := .sending } [7] with readouts := [readout1 .handed] } with
        ports := upPorts.set 16 { portIn .admitted with record := some txRec } } ∧ (s.ports[s.dataPort]).record = some txRec ∧ txRec.started = true ∧
      txRec.content.length ≤ txRec.sent ∧ (s.ports[s.dataPort]).sendingUntil ≤ s.time.clock ∧ txRec.source = some (.booking 7) ∧
      s.readout (.booking 7) = some (readout1 .handed) ∧ (readout1 .handed).stage = .handed ∧ s.booking 7 = some { book with state := .sending }) ∧
    (∃ s : State, s = { live with ports := upPorts.set 16 { portIn .admitted with record := some { txRec with source := none } } } ∧
      (s.ports[s.dataPort]).record = some { txRec with source := none } ∧ (s.ports[s.dataPort]).sendingUntil ≤ s.time.clock) := by
  refine ⟨?_, ⟨_, rfl, ?_⟩, ⟨_, rfl, ?_⟩, ⟨_, rfl, ?_⟩, ⟨_, rfl, ?_⟩, ⟨_, rfl, ?_⟩, ⟨_, rfl, ?_⟩, ⟨_, rfl, ?_⟩, ⟨_, rfl, ?_⟩⟩ <;> and_intros <;> decide +kernel

def job0 : Job := ⟨3, [], false, 0, 64, 2, some (0, 0)⟩
def flight (c : AelkoCmd) (o : Origin) : InFlight := ⟨3, 0, false, o, c, none⟩
/-- A keeper in whose mailbox `mb` Aelko has taken the command `c`. -/
def taken (mb : Fin 8) (c : AelkoCmd) (o : Origin) : Keeper := { Keeper.reset with inFlight := Keeper.reset.inFlight.set mb.val (some (flight c o)) }

theorem witness_CompressionAndDecompressionEnd :
    (∀ two : Bool, ∃ s : State, s = { porterS { porter0 with readouts := [readout1 (if two then .pass2 else .pass1)] } with comp := unitIn (if two then .pass2 else .pass1) 2 } ∧
      s.on 21 = true ∧ s.unitReadout 1 = some (readout1 (if two then .pass2 else .pass1)) ∧
      (∀ o ∈ s.porter.readouts, o.source = .booking 7 → o = readout1 (if two then .pass2 else .pass1)) ∧
      (s.comp.units[(1 : Fin 4)]).state = (if two then .pass2 else .pass1) ∧ (readout1 .pass1).awaiting = 0) ∧
    live.comp.jobs[(0 : Fin 2)] = none ∧
    (∃ s : State, s = { live with comp := { Compression.reset with jobs := Compression.reset.jobs.set 0 (some job0) }, keeper := taken 2 .acqStatus .spi } ∧
      s.comp.jobs[(0 : Fin 2)] = some job0 ∧ s.aelkoRuns = true ∧ s.keeper.inFlight[(2 : Fin 8)] = some (flight .acqStatus .spi) ∧ job0.window = some (0, 0) ∧
      job0.memErr = false ∧ 0 + 0 ≤ (expand job0.format job0.limit job0.source).1.length) ∧
    (∃ s : State, s = { live with comp := { Compression.reset with waiting := [job0] }, keeper := taken 2 .acqStatus .spi } ∧ s.comp.waiting = [job0]) := by
  refine ⟨fun b => ⟨_, rfl, ?_⟩, ?_, ⟨_, rfl, ?_⟩, ⟨_, rfl, ?_⟩⟩ <;> and_intros <;> first | (revert b; decide +kernel) | decide +kernel

/-! ### Links -/

def withPort (s : State) (p : Fin 18) (x : Port) : State := { s with ports := s.ports.set p.val x }
/-- A CTRL frame with `h` hops up or down to mailbox `mb`, an EVQ frame of one record, an ADMIT frame. -/
def ctrl (up : Bool) (mb : BitVec 3) (h : BitVec 4) : CtrlFrame := ⟨up, false, mb, h, 0x10, 2, 0, List.replicate 16 0⟩
def evq1 (n : Nat) : EvqFrame := ⟨7, 0, 2, 0, List.replicate n 5⟩
def adm (link arg : Byte) : AdmitFrame := ⟨link, arg, 9, 0, 1, 0xB1, 0x0204⟩
def testTx : TxFrame := ⟨.test 5, none, 0, false, 0⟩
def lanternTx : TxFrame := ⟨.lantern 0 2 0, none, 0, false, 0⟩
def freshTx : TxRecord := ⟨none, waybill, List.replicate 8 1, 0, false⟩

theorem test_stale_link_is_counted : (after (withPort linkS 16 (portIn .admitted)) (.testFrame 16 { good with link := 9 } 5)).rd (pPortPCntStale 16) = 1 := by decide +kernel
theorem test_test_frame_is_taken : ((after linkS (.testFrame 16 good 5)).ports[(16 : Fin 18)]).testTag = 5 := by decide +kernel
theorem test_rank_orders_frames : firstOfRank [lanternTx, testTx] = some testTx := by decide +kernel

theorem witness_FramesAreCheckedAndTaken :
    live.lanesUp 16 = false ∧ linkS.on (portDomain 16) = true ∧ linkS.lanesUp 16 = true ∧ (linkS.ports[(16 : Fin 18)]).oldInc = none ∧
    linkS.linked 16 = true ∧ linkS.linked 5 = false ∧ (9 : Byte) ≠ (linkS.ports[(16 : Fin 18)]).inc ∧ (linkS.ports[(17 : Fin 18)]).state = .standby ∧
    (linkS.ports[(16 : Fin 18)]).state = .admitted ∧ (linkS.ports[(16 : Fin 18)]).cut = none ∧ live.on 30 = true ∧
    ({ good with viols := [1] } : FrameMeta).laneViols 0 ≠ 0 ∧ ({ good with viols := [1] } : FrameMeta).codeViolation = true ∧
    ({ upLanes with ports := upLanes.ports.set 16 { Bringup.reset with width := 1 } } : Lanes).ports[(16 : Fin 18)].width = 1 := by
  and_intros <;> decide +kernel

/-- `linkS` with one violation on a lane of port 16 in the middle of an exchange. -/
theorem test_violation_spoils_the_exchange :
    (((domS [] { Domain.reset with exchange := exchanged } 9).noteViols 16 { good with viols := [1] }).time.domains[(0 : Fin 2)]).exchange.bad = true := by decide +kernel

theorem test_skip_every_4096th_column : (insertSkips 1 4095 [[.data 1], [.data 2]]) = [[.data 1], [.special .skip], [.data 2]] := by decide +kernel

/-- Port 5 shares unit 1 of the courier with port 1, whose frame has not ended. -/
theorem witness_FramesAreStripedAndChecked :
    (∃ s : State, s = { withPort linkS 1 { portIn .standby with busyUntil := 9 } with checks := { live.checks with owner := live.checks.owner.set 1 (some 1) } } ∧
      s.checks.owner[(1 : Fin 4)] = some (1 : Fin 18).val ∧ s.time.clock < (s.ports[(1 : Fin 18)]).busyUntil) ∧ live.checks.owner[(0 : Fin 4)] = none ∧
    [(1 : Byte), 2].length % 2 = 0 ∧ (0 < 2) := by
  refine ⟨⟨_, rfl, ?_⟩, ?_⟩ <;> and_intros <;> decide +kernel

theorem witness_ControlAndEventFramesAreRouted :
    (ctrl true 5 7).hops.toNat < 8 ∧ ((linkS.ports[linkS.dataPort]).tx.filter (fun y => y.forwarded)).length < 16 ∧ (0 : Fin 18).val < 16 ∧
    (ctrl false 0 0).hops = 0 ∧ (ctrl false 0 0).mailbox.toNat = (0 : Fin 8).val ∧ mbPort 0 = 16 ∧ mbPort 4 = 17 ∧
    0 < (ctrl false 0 8).hops.toNat ∧ (ctrl false 0 8).hops.toNat ≤ 8 ∧ (0 : Fin 18).val = (ctrl false 0 8).route.toNat % 16 ∧ linkS.linked 0 = true ∧
    (evq1 1).records.length = 1 ∧ (evq1 8).records.length = 8 ∧ (evq1 1).hops.toNat < 8 ∧ 9 ≤ (evq1 9).records.length ∧
    (List.replicate 16 (0 : Byte)).length % 4 = 0 ∧ live.fd.mb[(3 : Fin 8)] = .free ∧
    ({ live.fd with mb := live.fd.mb.set 3 .posted } : FrontDesk).mb[(3 : Fin 8)] ≠ .free := by
  and_intros <;> decide +kernel

/-- The first and the last DATA frame of port 0's record for booking 7. -/
def data1 : DataFrame := ⟨true, false, 0, { waybill with kind := 1, source := 2, start := 50, payload := 8 }, true, [1, 2, 3, 4]⟩
def data2 : DataFrame := { data1 with first := false, last := true, offset := 4 }

theorem witness_FramesAreSentByRankAndCredit :
    ((atTick linkS 1).time.tick.toNat % 16384 ≠ 0 ∧ linkS.time.tick.toNat % 16384 = 0 ∧ linkS.on 30 = true) ∧
    ((atTick linkS 65536).linked 16 = true ∧ ((atTick linkS 65536).ports[(16 : Fin 18)]).lanternAt + 65536 ≤ (atTick linkS 65536).time.clock ∧
      (atTick linkS 65535).time.clock < (linkS.ports[(16 : Fin 18)]).lanternAt + 65536) ∧
    (∃ s : State, s = { atTick linkS 1024 with fd := { live.fd with upstream := [4] } } ∧ (s.ports[s.dataPort]).state = .admitted ∧ s.fd.upstream ≠ [] ∧
      s.fd.upstreamAt + 1024 ≤ s.time.clock) ∧
    ((linkS.ports[downPort 0]).state = .admitted ∧ (linkS.ports[downPort 0]).creditAt + 16384 ≤ (atTick linkS 16384).time.clock ∧ linkS.atReserve = true ∧
      (linkS.ports[downPort 3]).state ≠ .admitted) ∧
    (∃ s : State, s = withPort linkS 0 { portIn .admitted with tx := [lanternTx, testTx] } ∧ 0 ≠ s.dataPort ∧ firstOfRank (s.ports[(0 : Fin 18)]).tx = some testTx ∧
      testTx.body = .test 5 ∧ testTx.launched = none ∧ s.clearOfLaunch 0 (.test 5) = true ∧ (s.ports[(0 : Fin 18)]).sending = none ∧
      s.sendable 0 = true ∧ s.time.clock ≤ (s.ports[(0 : Fin 18)]).lanternDue + 4096 ∧ (s.ports[(0 : Fin 18)]).busyUntil ≤ s.time.clock ∧
      (s.ports[(0 : Fin 18)]).state ≠ .disabled) ∧
    (∀ b : Bool, ∃ s : State, s = withPort linkS 0 { portIn .admitted with tx := [testTx], sending := some data1, sendingUntil := 9, inserted := b } ∧
      s.sendable 0 = true ∧ firstOfRank (s.ports[(0 : Fin 18)]).tx = some testTx ∧ s.clearOfLaunch 0 (.test 5) = true ∧ (s.ports[(0 : Fin 18)]).sending = some data1 ∧
      s.time.clock < (s.ports[(0 : Fin 18)]).sendingUntil ∧ (s.ports[(0 : Fin 18)]).inserted = b ∧ (s.ports[(0 : Fin 18)]).busyUntil = s.time.clock) ∧
    (∃ s : State, s = withPort linkS 0 { portIn .admitted with busyUntil := 9 } ∧ s.sendable 0 = true ∧ s.time.clock < (s.ports[(0 : Fin 18)]).busyUntil) ∧
    live.sendable 0 = false ∧
    (∃ s : State, s = { withPort linkS 0 { portIn .admitted with tx := [lanternTx] } with time := { TimeState.reset with queue := [.frame 20 0 (.test 5) 1] } } ∧
      s.clearOfLaunch 0 lanternTx.body = false ∧ s.sendable 0 = true ∧ firstOfRank (s.ports[(0 : Fin 18)]).tx = some lanternTx) ∧
    (∃ s : State, s = withPort linkS 16 { portIn .admitted with record := some freshTx, granted := 1 } ∧ 16 = s.dataPort ∧ s.acq.prims = [] ∧
      (s.ports[(16 : Fin 18)]).record = some freshTx ∧ (s.ports[(16 : Fin 18)]).tx = [] ∧ s.sendable 16 = true ∧ (s.ports[(16 : Fin 18)]).busyUntil ≤ s.time.clock ∧ freshTx.sent < freshTx.content.length ∧
      (∀ o ∈ s.porter.readouts, freshTx.source ≠ some o.source) ∧ ((1 : Nat) : Int) ≤ ((s.ports[(16 : Fin 18)]).granted - (s.ports[(16 : Fin 18)]).consumed).toInt ∧
      ((portIn .admitted).granted - (portIn .admitted).consumed).toInt < ((1 : Nat) : Int)) := by
  refine ⟨by decide +kernel, by decide +kernel, ⟨_, rfl, ?_⟩, by decide +kernel, ⟨_, rfl, ?_⟩, fun b => ⟨_, rfl, ?_⟩, ⟨_, rfl, ?_⟩, by decide +kernel, ⟨_, rfl, ?_⟩, ⟨_, rfl, ?_⟩⟩ <;> and_intros <;>
    first | decide +kernel | (cases b <;> decide +kernel)

/-- Port 0 with a record for booking 7 in progress, and a frame whose head fails its check. -/
def filling : State := { withPort linkS 0 { portIn .admitted with rx := some ⟨.booking 7, data1.waybill, 4⟩ } with porter := booked book [7] }
def badCheck : FrameMeta := { good with checkOk := false }

theorem witness_DataFramesFillTheirBooking :
    (∃ s : State, s = { linkS with porter := booked book [7] } ∧ s.Hears 0 good ∧ (s.ports[(0 : Fin 18)]).state = .admitted ∧ data1.waybillOk = true ∧
      (s.ports[(0 : Fin 18)]).rx = none ∧ (s.ports[(0 : Fin 18)]).rxWait = [] ∧ data1.waybill.kind = 1 ∧ s.booking (data1.waybill.event.toNat % 65536) = some book ∧
      book.event = data1.waybill.event ∧ book.expected.getLsbD 0 = true ∧ book.absent.getLsbD 0 = false ∧ book.reported.getLsbD 0 = false ∧
      data1.waybill.source = (s.ports[(0 : Fin 18)]).partner ∧ data1.waybill.start = book.start ∧ data1.waybill.length = book.length ∧ book.children = []) ∧
    live.booking (data1.waybill.event.toNat % 65536) = none ∧
    (∃ s : State, s = { withPort linkS 0 { portIn .admitted with rx := some ⟨.booking 7, data1.waybill, 4⟩ } with porter := booked book [7] } ∧
      (s.ports[(0 : Fin 18)]).rx = some ⟨.booking 7, data1.waybill, 4⟩ ∧ data2.waybill = data1.waybill ∧ data2.offset = 4 ∧ 4 + data2.segment.length = data2.waybill.payload ∧
      s.linked 0 = true) ∧
    (withPort linkS 0 { portIn .admitted with rx := some ⟨.drop, data1.waybill, 4⟩ }).linked 0 = true ∧
    (filling.on (portDomain 0) = true ∧ filling.lanesUp 0 = true ∧ badCheck.checkOk = false ∧ (filling.ports[(0 : Fin 18)]).state = .admitted ∧
      (filling.ports[(0 : Fin 18)]).rx = some ⟨.booking 7, data1.waybill, 4⟩ ∧ filling.booking 7 = some book ∧ (filling.ports[(0 : Fin 18)]).cut = none) ∧
    (∃ s : State, s = { withPort linkS 0 { portIn .absent with cut := some ⟨.admitted, some ⟨.booking 7, data1.waybill, 4⟩, [7], []⟩ } with porter := booked book [7] } ∧
      s.on (portDomain 0) = true ∧ (s.ports[(0 : Fin 18)]).cut = some ⟨.admitted, some ⟨.booking 7, data1.waybill, 4⟩, [7], []⟩ ∧
      (s.ports[(0 : Fin 18)]).state = .absent ∧ good.link = (s.ports[(0 : Fin 18)]).inc ∧ data2.waybill = data1.waybill ∧ data2.offset = 4 ∧
      4 + data2.segment.length = data2.waybill.payload ∧ s.booking 7 = some book ∧ book.reported.getLsbD 0 = false) := by
  unfold State.Hears State.HearsAny
  refine ⟨⟨_, rfl, ?_⟩, ?_, ⟨_, rfl, ?_⟩, ?_, ?_, ⟨_, rfl, ?_⟩⟩ <;> and_intros <;> first | exact good_clean | decide +kernel

theorem test_bad_head_damages_the_record_in_progress :
    (after filling (.dataFrame 0 badCheck data2)).rd (pPortPCntDamaged 0) = 1 ∧
      ((after filling (.dataFrame 0 badCheck data2)).ports[(0 : Fin 18)]).rx = some ⟨.drop, data1.waybill, 0⟩ := by
  and_intros <;> decide +kernel

theorem witness_AdmissionIsRequestedAndGranted :
    (∃ s : State, s = withPort linkS 2 Port.reset ∧ s.on (portDomain 2) = true ∧ s.lanesUp 2 = true ∧ s.linked 2 = false ∧
      (linkP [(pPortPEnable 2, 1)]).rd (pPortPEnable 2) = 1 ∧ (Port.reset.lastInc ≠ some (adm 3 1).link) ∧ (adm 3 1).link ≠ 0 ∧
      (portIn .admitting).lastInc = some (adm 1 1).link) ∧
    (linkP [(pPortPEnable 2, 0)]).rd (pPortPEnable 2) = 0 ∧ ({ adm 3 1 with stepping := 0xB0 } : AdmitFrame).stepping ≠ 0xB1 ∧ (adm 3 3).argument ≠ 1 ∧
    (∃ x : Port, x = { portIn .admitting with grantAt := some 0, role := 1 } ∧ (adm 1 1).link = x.inc ∧ x.grantAt = some 0 ∧ x.role = 1 ∧ x.state = .admitting) ∧
    (∃ s : State, s = withPort linkS 16 (portIn .admitting) ∧ (s.ports[(16 : Fin 18)]).state = .admitting ∧ s.on (portDomain 16) = true ∧ s.lanesUp 16 = true) := by
  refine ⟨⟨_, rfl, ?_⟩, ?_, ?_, ?_, ⟨_, rfl, ?_⟩, ⟨_, rfl, ?_⟩⟩ <;> and_intros <;> decide +kernel

theorem witness_LinksCloseRenewAndRetry :
    (linkS.on (portDomain 0) = true ∧ linkS.linked 0 = true ∧ linkS.linked 5 = false ∧ (linkS.ports[(0 : Fin 18)]).inc = 1 ∧ (adm 2 1).argument = (1 : Byte) ∧
      (portIn .admitted).lastInc ≠ some (adm 2 1).link ∧ (linkS.ports[(0 : Fin 18)]).rx = none) ∧
    ({ linkS with porter := booked book [7] } : State).porter.bookings = [(7, book)] ∧
    (∃ s : State, s = { withPort (atTick (linkP [(pPortPEnable 16, 1)]) 16384) 16 { portIn .admitting with askedAt := some 0 } with mram := { Mram.reset with incarnation := 1 } } ∧
      s.lanesUp 16 = true ∧ s.rd (pPortPEnable 16) = 1 ∧ s.incarnationWaits = false ∧ s.mram.incarnation ≠ 0 ∧ (s.ports[(16 : Fin 18)]).askedAt = some 0 ∧
      0 + 16384 ≤ s.time.clock) ∧
    (∃ s : State, s = withPort (atTick linkS 1048576) 16 { portIn .admitting with refusedAt := some 0 } ∧ (s.ports[(16 : Fin 18)]).refusedAt = some 0 ∧
      0 + 1048576 ≤ s.time.clock ∧ (atTick linkS 1048575).time.clock < 0 + 1048576) ∧
    (∃ s : State, s = withPort (atTick linkS 16384) 16 { portIn .admitted with renewAt := some 0, oldInc := some 9, windowEnd := some 16384 } ∧
      (s.ports[(16 : Fin 18)]).renewAt = some 0 ∧ (s.ports[(16 : Fin 18)]).oldInc = some 9 ∧ s.linked 16 = true ∧ (s.ports[(16 : Fin 18)]).windowEnd = some 16384 ∧
      16384 ≤ s.time.clock) ∧
    (withPort (atTick linkS 16384) 0 { portIn .admitting with grantAt := some 0 }).time.clock = 0 + 16384 := by
  refine ⟨by decide +kernel, by decide +kernel, ⟨_, rfl, ?_⟩, ⟨_, rfl, ?_⟩, ⟨_, rfl, ?_⟩, by decide +kernel⟩ <;> and_intros <;> decide +kernel

/-! ### Serial lanes -/

/-- `linkS` with port 16's bring-up as `b`; every lane has signal where `sig`. -/
def laneS (b : Bringup) (sig : Bool) : State :=
  { linkS with lanes := { upLanes with ports := upLanes.ports.set 16 b, lanes := Vector.replicate 21 { Lane.reset with signal := sig } } }
def bring (st : LaneState) (g : TrainStage) : Bringup := { Bringup.reset with state := st, stage := g }
/-- A training set of rung `r` on lane 0 of a link of width 1, from the parent. -/
def set0 (r : BitVec 3) : TrainSet := ⟨true, r, 0, 1, false, true, true, 0, 9⟩

/-- `s` with every lane's detector seeded by a START set. -/
def seeded (s : State) : State := { s with lanes := { s.lanes with lanes := s.lanes.lanes.map (fun x => { x with seeded := true }) } }

theorem test_one_cap_set_does_not_train : ((after (laneS (bring .caps .none) true) (.capSet 16 0 (set0 3) 16)).lanes.ports[(16 : Fin 18)]).state = .caps := by decide +kernel
theorem test_prbs_pass : ((after (seeded (laneS (bring .training .prbs) true)) (.prbsEnd 16 [live.rd pLanePrbsMax])).lanes.ports[(16 : Fin 18)]).ownPass = some true := by decide +kernel
theorem test_prbs_fail : ((after (seeded (laneS (bring .training .prbs) true)) (.prbsEnd 16 [live.rd pLanePrbsMax + 1])).lanes.ports[(16 : Fin 18)]).ownPass = some false := by decide +kernel

theorem witness_PortsLockAndAgreeOnARung :
    (∃ s : State, s = laneS (bring .locking .none) true ∧ s.portOfLane 16 = some 16 ∧ (s.lanes.ports[(16 : Fin 18)]).state = .locking ∧
      (∀ k ∈ s.myLanes 16, (s.lanes.lanes[k]).signal = true) ∧ s.basexPort 16 = false ∧ s.on (portDomain 16) = true ∧ s.portWidth 16 ≠ 0 ∧ s.lanes.refclk128 = true) ∧
    (∃ s : State, s = laneS (bring .locking .none) false ∧ ∃ k ∈ s.myLanes 16, (s.lanes.lanes[k]).signal = false) ∧
    (linkP [(pPortPEnable 0, 1)]).rd (pPortPEnable 0) = 1 ∧ (linkP [(pPortPEnable 0, 0)]).rd (pPortPEnable 0) ≠ 1 ∧ (bring .locking .search).stage = .search ∧
    ({ linkS with lanes := { upLanes with onBasex := Vector.replicate 2 true } } : State).basexPort 16 = true ∧ linkS.lanes.refclk125 = true ∧
    (∃ b : Bringup, b = bring .caps .none ∧ b.mismatch = false ∧ (0 : Fin 4).val < b.width ∧ (set0 3).ok = true ∧ (set0 3).width.toNat = b.width ∧
      ({ set0 3 with width := 2 } : TrainSet).width.toNat ≠ b.width ∧ (set0 3).laneIndex.toNat = (0 : Fin 4).val ∧ (set0 3).fromChild = decide ((16 : Fin 18).val < 16) ∧
      (set0 3).seen = true) ∧
    portLane 16 + (0 : Fin 4).val = (16 : Fin 21).val ∧ ({ Lane.reset with capSeen := 2 } : Lane).capSeen = 2 ∧ Lane.reset.capSeen < 2 ∧
    ({ bring .caps .none with mismatch := true } : Bringup).mismatch = true ∧
    (5 : Fin 21) ∉ lanesOf 16 1 ∧ (16 : Fin 21) ∈ lanesOf 16 1 ∧ linkS.basexPort 16 = false ∧
    ({ Lane.reset with capSeen := 2 } : Lane).capSeen = 2 ∧ linkS.onBasex (basexIdx 16) = decide (linkS.rd (pTimeDTransport 0) = 1) ∧
    linkS.lanesFree 16 (portLane 16) 1 = true ∧ (∀ q : Fin 16, (16 : Fin 18).val < q.val → (linkS.lanes.ports[downPort q]).width = 0) ∧ live.on (portDomain 16) = true ∧
    linkS.portOfLane 17 = none ∧ (bring .locking .none).state = .locking := by
  refine ⟨⟨_, rfl, ?_⟩, ⟨_, rfl, ?_⟩, ?_, ?_, ?_, ?_, ?_, ⟨_, rfl, ?_⟩, ?_, ?_, ?_, ?_, ?_, ?_, ?_⟩ <;> and_intros <;> first | decide +kernel | (intro q h; exact absurd h (by have := q.isLt; omega))

theorem witness_RungsAreVerifiedAndClimbed :
    (∀ g ∈ ([.start, .prbs, .verdict, .verdictLate, .stepping, .acking, .relock, .waitRetry, .finalCommas] : List TrainStage),
      ((laneS (bring .training g) true).lanes.ports[(16 : Fin 18)]).stage = g ∧ ((laneS (bring .training g) true).lanes.ports[(16 : Fin 18)]).state = .training ∧
      (0 : Fin 4).val < (bring .training g).width) ∧
    (set0 0).rung.toNat = (bring .training .start).rung ∧ (set0 1).rung.toNat = (bring .training .stepping).rung + 1 ∧ (set0 0).pass = true ∧
    ({ set0 0 with pass := false } : TrainSet).pass = false ∧
    (∃ s : State, s = { laneS { bring .training .verdict with ownPass := some true } true with lanes := { (laneS { bring .training .verdict with ownPass := some true } true).lanes with
        lanes := Vector.replicate 21 { Lane.reset with verdictPass := some true } } } ∧ (s.lanes.ports[(16 : Fin 18)]).ownPass = some true ∧
      ∀ k ∈ s.myLanes 16, (s.lanes.lanes[k]).verdictPass = some true) ∧
    (bring .training .verdict).ownPass ≠ some true ∧ (bring .training .verdict).ownPass ≠ some false ∧
    (Lane.reset.ackCount < 2 ∧ 2 ≤ ({ Lane.reset with ackCount := 2 } : Lane).ackCount) ∧
    (∃ b : Bringup, b = { bring .training .verdict with rung := 1, target := 2 } ∧ b.resume = false ∧ b.rung < b.target ∧ b.rung ≠ 0) ∧
    (bring .training .verdict).target ≤ (bring .training .verdict).rung ∧ (16 : Fin 21) ∈ (laneS (bring .training .prbs) true).myLanes 16 := by
  refine ⟨by decide +kernel, ?_, ?_, ?_, ?_, ⟨_, rfl, ?_⟩, ?_, ?_, ?_, ⟨_, rfl, ?_⟩, ?_, ?_⟩ <;> and_intros <;> decide +kernel

theorem witness_PortsLoseLockAndSleep :
    linkS.portOfLane 16 = some 16 ∧ (linkS.lanes.ports[(16 : Fin 18)]).state = .running ∧
    (∃ s : State, s = laneS (bring .idle .none) true ∧ (s.lanes.ports[(16 : Fin 18)]).state = .idle ∧ (∃ k ∈ s.myLanes 16, (s.lanes.lanes[k]).signal = true) ∧
      s.on (portDomain 16) = true ∧ s.basexPort 16 = false ∧ s.portWidth 16 ≠ 0 ∧ s.lanes.refclk128 = true) ∧
    (∃ s : State, s = laneS { bring .locking .none with wokenByRetry := true } false ∧ (s.lanes.ports[(16 : Fin 18)]).wokenByRetry = true ∧
      ¬∃ k ∈ s.myLanes 16, (s.lanes.lanes[k]).signal = true) ∧
    (∃ s : State, s = laneS (bring .basex .none) true ∧ (s.lanes.ports[(16 : Fin 18)]).state = .basex ∧ (s.lanes.basex[(0 : Fin 2)]).linkUp = false) ∧
    (0x20 : Half).getLsbD 5 = true ∧ (0x40 : Half).getLsbD 5 = false := by
  refine ⟨?_, ?_, ⟨_, rfl, ?_⟩, ⟨_, rfl, ?_⟩, ⟨_, rfl, ?_⟩, ?_, ?_⟩ <;> and_intros <;> decide +kernel

/-! ### External memory -/

/-- A live part whose memory channel 1 is `c`, with words of data and check bytes. -/
def chanM (c : MemChannel) (d k : Memory) : State := { live with mem := { channels := ExtMem.reset.channels.set 1 c, data := d, check := k, poisoned := [] } }
def readyM : MemChannel := { MemChannel.reset with state := .ready }
/-- A hit word for index 1 of room 0. -/
def hitW : HitWrite := ⟨0, 0, 1, 0x1122334455667788, 5⟩
def access (op : MemOp) : Access := ⟨3, 1, op⟩

/-- Table 12.6's poison word and a flipped data bit. -/
theorem test_poison_is_poison : classify 0 0x03 = .poison := by decide +kernel
theorem test_one_flip_is_corrected : classify (0xAB ^^^ (1#64 <<< 5)) (checkBits 0xAB) = .corrected 0xAB 5 := by decide +kernel
theorem test_hit_write_stores_its_word :
    (after (chanM { readyM with hits := [hitW] } [] []) (.hitWriteSlot 1 .a)).mem.data.getLe 0x480008 8 = 0x1122334455667788 := by decide +kernel

theorem witness_DamagedWordsAreCorrectedAndWatched :
    (chanM readyM [] []).mem.read 1 = .good ∧ (chanM readyM [(8, 1)] []).mem.read 1 = .corrected 0 0 ∧ live.rd pMemLogCe = 0 ∧
    (chanM readyM [(8, 3)] []).mem.read 1 = .bad ∧ (chanM readyM [] [(1, 3)]).mem.read 1 = .poison ∧ live.mram.logBuffer.length < 64 ∧
    MemChannel.reset.merge = [] ∧
    (∃ c : MemChannel, c = { readyM with merge := [⟨9, [(0, 5)], 7⟩, ⟨5, [(0, 5)], 3⟩, ⟨13, [(0, 5)], 3⟩] } ∧ c.merge = [⟨9, [(0, 5)], 7⟩] ++ ⟨5, [(0, 5)], 3⟩ :: [⟨13, [(0, 5)], 3⟩]) ∧
    1 ∉ live.mem.poisoned ∧ 1 ∈ ({ live.mem with poisoned := [1] } : ExtMem).poisoned ∧ (chanM readyM [] []).porter.monQueue = [] ∧ Room.reset.wroteAt = [] ∧
    (∃ i : Fin 8, ∀ b ∈ ([(0, 5)] : List (Nat × Byte)), b.1 ≠ i.val) ∧
    (∀ i : Fin 8, ∃ b ∈ ((List.range 8).map (fun k => (k, (5 : Byte)))), b.1 = i.val) ∧ (5 % 4 = (1 : Fin 4).val) ∧
    ((chanM readyM [] []).mem.channels[(1 : Fin 4)]).state = .ready ∧ (live.mem.channels[(1 : Fin 4)]).state ≠ .ready ∧ live.rd pMemScrubPeriod ≠ 0 := by
  and_intros <;> first | decide +kernel | exact ⟨_, rfl, rfl⟩

theorem witness_MemoryChannelsTrainServeAndFault :
    (∃ s : State, s = chanM { readyM with hits := [hitW] } [] [] ∧ (s.mem.channels[(1 : Fin 4)]).state = .ready ∧ s.frontHit 1 .a = some hitW ∧ s.frontHit 1 .b = none ∧
      (∀ u : Fin 16, (s.tiles[u]).output = [])) ∧
    (∃ s : State, s = chanM { readyM with general := [access (.write 5)] } [] [] ∧ s.frontAccess 1 .a = some (access (.write 5)) ∧ s.frontAccess 1 .b = none ∧
      s.mem.read 1 = .good) ∧
    ((chanM { readyM with general := [access (.corrected 5)] } [] []).frontAccess 1 .a = some (access (.corrected 5))) ∧
    ((chanM { readyM with general := [access .poison] } [] []).frontAccess 1 .a = some (access .poison)) ∧
    ((chanM { readyM with general := [access (.modify [(0, 9)])] } [] []).frontAccess 1 .a = some (access (.modify [(0, 9)]))) ∧
    ((chanM { readyM with general := [access (.read .none)] } [] []).frontAccess 1 .a = some (access (.read .none))) ∧
    ((chanM { readyM with general := [access (.read (.own (.monitor 0) 3 4))] } [] []).frontAccess 1 .a = some (access (.read (.own (.monitor 0) 3 4)))) ∧
    (∃ s : State, s = chanM { MemChannel.reset with state := .training } [] [] ∧ (s.mem.channels[(1 : Fin 4)]).state = .training ∧ s.porter.rebuild = false ∧
      true = decide ((s.mem.channels[(1 : Fin 4)]).density = 1)) ∧
    (∃ s : State, s = chanM { readyM with ap := 1, hits := [hitW], parity := List.replicate 14 0 } [] [] ∧ (s.mem.channels[(1 : Fin 4)]).ap = 1 ∧ s.frontHit 1 .a = some hitW ∧
      (((s.mem.channels[(1 : Fin 4)]).parity.filter (fun t => s.time.clock < t + 1024000)) ++ [s.time.clock]).length = 15 ∧ s.streaming = false) ∧
    (∃ s : State, s = chanM { readyM with ap := 1, hits := [hitW], parity := List.replicate 15 0 } [] [] ∧
      16 ≤ (((s.mem.channels[(1 : Fin 4)]).parity.filter (fun t => s.time.clock < t + 1024000)) ++ [s.time.clock]).length) := by
  refine ⟨⟨_, rfl, ?_⟩, ⟨_, rfl, ?_⟩, ?_, ?_, ?_, ?_, ?_, ⟨_, rfl, ?_⟩, ⟨_, rfl, ?_⟩, ⟨_, rfl, ?_⟩⟩ <;> and_intros <;> decide +kernel

/-! ### The front desk -/

def fdS (f : FrontDesk) : State := { live with fd := f }
def mbox (k : Fin 8) (st : MbState) : FrontDesk := { live.fd with mb := live.fd.mb.set k.val st }

theorem test_doorbell_posts : (after live (.doorbell .spi 0x20)).fd.mb[(5 : Fin 8)] = .posted := by decide +kernel
theorem test_doorbell_of_another_mailbox_is_ignored : (after live (.doorbell .spi 0x80)).fd.mb[(7 : Fin 8)] = .free := by decide +kernel
theorem test_write_to_posted_mailbox_flags : (after (fdS (mbox 5 .posted)) (.mailboxWrite .spi 5 0 7)).fd.mbErr = 0x20 := by decide +kernel
theorem test_evq_read_takes_the_oldest : (after (fdS { live.fd with events := [0x100000002, 3] }) .evqRead).fd.events = [3] := by decide +kernel
/-- Table 13.7: tick 9, source 505, reason 2, argument 3. -/
theorem test_eventRecord : eventRecord 9 false 505 2 3 = BitVec.ofNat 64 (9 * 2 ^ 34 + 505 * 2 ^ 24 + 2 * 2 ^ 16 + 3) := by decide +kernel

theorem witness_RecordsEnterTheirSourceBuffer :
    ((live.fd.sources.filter (fun r => r.1 = 511)).length < 4) ∧
    (∃ s : State, s = fdS { live.fd with sources := List.replicate 4 (511, 0) } ∧ 4 ≤ (s.fd.sources.filter (fun r => r.1 = 511)).length ∧ s.rd pEvqCntSrcLost = 0 ∧
      (s.fd.sources.filter (fun r => r.1 = 507)).length < 4) ∧
    (liveP [(pEvqCntSrcLost, 0xFFFFFFFF)]).rd pEvqCntSrcLost ≠ 0 ∧ SparseWf resetOf [(pEvqCntSrcLost, 0xFFFFFFFF)] := by
  refine ⟨?_, ⟨_, rfl, ?_⟩, ?_, ?_⟩ <;> and_intros <;> decide +kernel

theorem witness_MailboxesAreWrittenPostedAndCleared :
    live.fdOpen .spi = true ∧ live.fdOpen .jtag = true ∧ live.fdOpen .parent = false ∧ mbAllowed .spi (5 : Fin 8).val = true ∧ mbAllowed .jtag (7 : Fin 8).val = true ∧
    mbAllowed .spi (7 : Fin 8).val = false ∧ live.fd.mb[(5 : Fin 8)] = .free ∧ (fdS (mbox 5 .done)).fd.mb[(5 : Fin 8)] = .done ∧ (fdS (mbox 5 .busy)).fd.mb[(5 : Fin 8)] = .busy := by
  and_intros <;> decide +kernel

theorem witness_RegistersAndEventQueueActAsWritten :
    live.fdOpen .spi = true ∧ live.power.poreset = false ∧ State.reset.power.poreset = true ∧
    (0x30 : Half).toNat / 4 * 4 = 0x30 ∧ (0x3B : Half).toNat / 4 * 4 = 0x38 ∧ (0x1FFC : Half).toNat / 4 * 4 = 0x1000 + 512 * (7 : Fin 8).val + 4 * (127 : Fin 128).val ∧
    (∃ s : State, s = fdS { live.fd with sources := [(9, 7)], sourceNext := 10 } ∧ s.nextSource = some 9 ∧ s.fd.sources.find? (fun x => x.1 = 9) = some (9, 7) ∧
      s.masked 9 = false ∧ s.fd.events.length < 1024 ∧ (∀ x ∈ s.fd.sources, x.1 < 512) ∧ s.fd.sourceNext < 512 ∧ s.fd.upstream.length < 64) ∧
    ((liveP [(pEvqMask 0, 0x200)]).masked 9 = true) ∧ (liveP [(pEvqUp, 1)]).rd pEvqUp = 1 ∧ (liveP [(pEvqUp, 0)]).rd pEvqUp ≠ 1 ∧
    ((1 : DWord) :: 2 :: List.replicate 1022 0).length = 1024 := by
  refine ⟨?_, ?_, ?_, ?_, ?_, ?_, ⟨_, rfl, ?_⟩, ?_, ?_, ?_, ?_⟩ <;> and_intros <;> decide +kernel

/-- PARAM_READ of address 0 with tag 9 in mailbox 5, with a good check value, and one of an unknown command. -/
def request (code : Nat) : Memory := Memory.putBytes [] (512 * 5) (mbBlock code 9 0 0 [0, 0, 0, 0])
def posted (m : Memory) : State := fdS { mbox 5 .posted with mbMem := m }
def entry0 : LedgerEntry := ⟨0, 0, 1, 10, 0, 0, 0, 0, 0, true⟩

theorem witness_RoundsCommitsAndTimeLimits :
    (live.aelkoRuns = true ∧ State.reset.aelkoRuns = false ∧ live.Affords 4) ∧
    (∃ s : State, s = { live with mram := { Mram.reset with buffer := [entry0] } } ∧ s.mram.running = none ∧ s.mram.buffer = [entry0] ∧ s.mram.gap = none) ∧
    (∃ s : State, s = posted (request 0x0202) ∧ (∀ k : Fin 8, s.unstarted k = false) ∧ s.keeper.window = [] ∧ (∀ k : Fin 8, s.fd.mb[k] = .posted ↔ k = 5) ∧
      leNat (s.mbBytes 5 4 4) ≤ 496 ∧
      (crc32c (s.mbBytes 5 0 12 ++ s.mbBytes 5 16 (leNat (s.mbBytes 5 4 4)))).toNat = leNat (s.mbBytes 5 12 4) ∧ leNat (s.mbBytes 5 10 2) = 0 ∧
      parseCmd (leNat (s.mbBytes 5 0 2)) false (s.mbBytes 5 16 (leNat (s.mbBytes 5 4 4))) = some (.paramRead 0) ∧
      s.mayIssue (mbOrigin 5) (leNat (s.mbBytes 5 0 2)) (s.mbBytes 5 16 4) = true) ∧
    (cmdLength 0xFFFF = none) ∧
    (∃ s : State, s = posted ((request 0x0202).put (512 * 5 + 12) 0x5A) ∧
      (crc32c (s.mbBytes 5 0 12 ++ s.mbBytes 5 16 (leNat (s.mbBytes 5 4 4)))).toNat ≠ leNat (s.mbBytes 5 12 4)) ∧
    clash (live.objects (.paramWrite 0 1)) (live.objects (.paramWrite 0 2)) = true ∧
    (fdS { live.fd with maint := live.fd.maint.set 1 (some ⟨false, some 9, 9⟩) }).fd.maint[maintIdx true] = some ⟨false, some 9, 9⟩ ∧
    (∃ s : State, s = { live with keeper := { Keeper.reset with transfers := Keeper.reset.transfers.set 2 (some ⟨0x105, 3, 4, 268, [], 0xFFFFFFFF, 0⟩) } } ∧
      s.keeper.transfers[(2 : Fin 8)] = some ⟨0x105, 3, 4, 268, [], 0xFFFFFFFF, 0⟩ ∧ 0 + 10 * 1024000000 ≤ (atTick live 10240000000).time.clock) := by
  unfold State.Affords
  refine ⟨by decide +kernel, ⟨_, rfl, ?_⟩, ⟨_, rfl, ?_⟩, ?_, ⟨_, rfl, ?_⟩, ?_, ?_, ⟨_, rfl, ?_⟩⟩ <;> and_intros <;> decide +kernel

/-- A reply's length is at most 496 and a multiple of 4; a mailbox holds a command that is the first not yet started. -/
theorem witness_CommandsStartInTurnAndReply :
    ((List.replicate 496 (0 : Byte)).length ≤ 496 ∧ (List.replicate 496 (0 : Byte)).length % 4 = 0 ∧ linkS.linked (mbPort 0) = true ∧ live.linked (mbPort 0) = false) ∧
    ({ live with keeper := taken 5 .acqStatus .spi } : State).starts 5 .acqStatus = some (flight .acqStatus .spi) ∧
    ({ live with keeper := taken 5 .acqStatus .spi } : State).starts 6 .acqStatus = none := by
  and_intros <;> decide +kernel

/-- A transaction of R301: opcode 0x02, address 0x0044 (FD_ATTN_EN), the word 0x20 with its least significant byte first; and a read of FD_ID. -/
theorem test_spi_write_transaction :
    ((fdS live.fd).spiTransaction (([0x02, 0x00, 0x44, 0x20, 0, 0, 0] : List Byte).flatMap spiByte)).2.fd.attnEn = 0x20 := by decide +kernel
theorem test_spi_read_transaction :
    ((fdS live.fd).spiTransaction (([0x03, 0x00, 0x00, 0, 0, 0, 0, 0] : List Byte).flatMap spiByte)).1 = ([0x28, 0x91, 0x47, 0x4C] : List Byte).flatMap spiByte := by
  decide +kernel
/-- FDACCESS (R302): bit 48 clear reads the address in bits 47–32. -/
theorem test_jtag_fdaccess_reads : ((fdS live.fd).jtagUpdate).fd.jtagLast = 0x4C479128 := by decide +kernel

/-! ### Aelko's commands -/

/-- A live part in whose mailbox 5 Aelko has taken `c` from SPI. -/
def cmdS (s : State) (c : AelkoCmd) : State := { s with keeper := { s.keeper with inFlight := Keeper.reset.inFlight.set 5 (some (flight c .spi)) } }
/-- The reply of mailbox 5: its status and its payload. -/
def replied (t : State) : Nat × List Byte := (leNat (t.mbBytes 5 8 2), t.mbBytes 5 16 (leNat (t.mbBytes 5 4 4)))
/-- A live part before its capacitance test has ended. -/
def untested : State := { live with power := { live.power with testEnded := false } }

theorem test_paramRead_replies : replied (after (cmdS live (.paramRead (BitVec.ofNat 32 pPwrHoldCap))) (.paramRead 5 (BitVec.ofNat 32 pPwrHoldCap))) = (0, [0x40, 0x42, 0x0F, 0]) := by
  decide +kernel
theorem test_sysReset_wants_its_key : replied (after (cmdS live (.sysReset 1)) (.sysReset 5 1)) = (3, []) := by decide +kernel
theorem test_bootSelect_bad_bank : replied (after (cmdS live (.sysBootSelect 1)) (.sysBootSelect 5 1)) = (2, []) := by decide +kernel
theorem test_ledgerNote_is_deferred : replied (after (cmdS untested (.ledgerNote 1 2 3)) (.ledgerNote 5 1 2 3)) = (6, []) := by decide +kernel
theorem test_identify : ((replied (after (cmdS live .sysIdentify) (.sysIdentify 5))).2.take 8) = [0x28, 0x91, 0x47, 0x4C, 0xB1, 0, 0, 0] := by decide +kernel
theorem test_memRead : replied (after (cmdS { chanM readyM [(8, 7)] [(1, checkBits 7)] with fd := live.fd } (.memRead 8 8)) (.memRead 5 8 8)) = (0, [7, 0, 0, 0, 0, 0, 0, 0]) := by
  decide +kernel

theorem witness_SystemCommandsAnswer :
    (cmdS live .sysIdentify).starts 5 .sysIdentify = some (flight .sysIdentify .spi) ∧ ((0x10 : Half).toNat % 4 = 0 ∧ (0x10 : Half).toNat < 0x1000) ∧
    (0x1000 < (0xFFC : Half).toNat + 4 * 2) ∧ (0x31 : Half).toNat / 4 * 4 = 0x30 ∧ (0x44 : Half).toNat / 4 * 4 ≠ 0x30 ∧
    live.Affords 4 ∧ live.Affords 8 ∧ untested.power.testEnded = false ∧ ({ live with keeper := { Keeper.reset with sysReset := some 0 } } : State).keeper.sysReset.isSome = true ∧
    (86400 : Word).toNat ≤ 86400 ∧ 86400 < (86401 : Word).toNat ∧ live.strapHeld true = false ∧
    (∃ s : State, s = fdS { live.fd with maint := live.fd.maint.set 1 (some ⟨false, none, 0⟩) } ∧ (s.fd.maint[maintIdx true]).isSome = true ∧ s.strapHeld true = false ∧
      s.fd.isSealed = false ∧ (s.fd.maint[(1 : Fin 2)]).isSome = true) ∧
    live.fd.maint[maintIdx true] = none ∧ (fdS { live.fd with maint := live.fd.maint.set 1 (some ⟨true, none, 0⟩) }).strapHeld true = true ∧
    (fdS { live.fd with isSealed := true }).fd.isSealed = true := by
  unfold State.Affords
  refine ⟨?_, ?_, ?_, ?_, ?_, ?_, ?_, ?_, ?_, ?_, ?_, ?_, ⟨_, rfl, ?_⟩, ?_, ?_, ?_⟩ <;> and_intros <;> decide +kernel

/-- The CRC over bytes in a form that the kernel evaluates byte by byte. -/
def crcForced (poly : Word) : Word → List Byte → Word
  | c, [] => c
  | c, b :: bs => if c.toNat < 2 ^ 32 then crcForced poly (times (crcDown poly) 8 (c ^^^ b.setWidth 32)) bs else c

theorem crc32Run_forced (poly : Word) (bs : List Byte) : ∀ c : Word, crc32Run poly c bs = crcForced poly c bs := by
  induction bs with
  | nil => intro c; rfl
  | cons b bs ih =>
    intro c
    unfold crcForced
    rw [if_pos c.isLt, ← ih]
    rfl

theorem crc32c_forced (bs : List Byte) : crc32c bs = crcForced 0x82F63B78#32 0xFFFFFFFF#32 bs ^^^ 0xFFFFFFFF#32 := by
  unfold crc32c crc32cRun crc32cSeed
  rw [crc32Run_forced]

/-- An equalisation image of 268 bytes, all zero but its magic, version and check value. -/
def eqImg : List Byte :=
  let head : List Byte := [0x51, 0x45, 1, 0, 0, 0, 0, 0, 0, 0, 0, 0]
  let body : List Byte := List.replicate 252 0
  head ++ natLe 4 (crc32c (head ++ body)).toNat ++ body
/-- A linearisation image of channel 5 whose span is 200 to 201. -/
def linImg : List Byte := { table with spanHigh := 201, inc := List.replicate 200 0 ++ [4] ++ List.replicate 823 0 }.image

theorem witness_ImagesAreTransferredAndApplied :
    (imageSelectorOk 5 = false ∧ imageSelectorOk 4 = true ∧ imageSelectorOk 0x01040003 = true ∧ live.keeper.transfers[(5 : Fin 8)] = none) ∧
    eqImageFail eqImg = 0 ∧ eqImg.length = 268 ∧ live.Affords 67 ∧ (parseImage linImg).isSome = true ∧ linImg.length = 536 ∧ leNat ((linImg.drop 0).take 2) = 5 ∧
    parseImage (List.replicate 536 0) = none ∧ live.imageBlocked 3 5 = false ∧
    (∀ m : Fin 8, m ≠ 5 → live.keeper.transfers[m] = none) ∧ live.Affords ((196608 + 7) / 8) ∧
    (live.imageBytes 2 0 0).isSome = true ∧ bootImageOk live.mram.bootImages[(1 : Fin 2)] = false ∧
    live.bankHeld none 1 = false ∧ live.savedParams.length ≤ 7934 ∧
    ({ live with keeper := { Keeper.reset with transfers := Keeper.reset.transfers.set 2 (some ⟨0x105, 3, 1, 268, [], 0xFFFFFFFF, 0⟩) } } : State).bankHeld none 1 = true := by
  unfold State.Affords
  and_intros <;> first | decide +kernel | (simp only [eqImageFail, parseImage, eqImg, linImg, LinTable.image, crc32c_forced]; decide +kernel)

/-- The image in boot bank 0 of a part from the factory passes the checks of R323. -/
theorem witness_factoryImage : bootImageOk State.reset.mram.bootImages[(0 : Fin 2)] = true := by
  simp only [bootImageOk, crc32c_forced]
  decide +kernel

/-- CHAN.THRESH of channel 5, written by SPI under maintenance. -/
def maintained : State := fdS { live.fd with maint := live.fd.maint.set 0 (some ⟨false, none, 0⟩) }
def threshA : Word := BitVec.ofNat 32 (pChanThresh 5)

theorem witness_ParameterCommandsAnswer :
    (cmdS maintained (.paramWrite threshA 9)).AcceptsWrite .spi threshA.toNat 9 ∧ live.addressOk 0xFFFFFFFF = false ∧
    (live.addressOk threshA.toNat = true ∧ originAllowed .spi threshA.toNat = true) ∧ originAllowed .enginePort (pPwrHoldCap) = false ∧
    live.writeStatus (live.stored threshA.toNat 9) threshA.toNat 9 = .ok ∧ live.readable 0xFFFFFFFF = false ∧ live.readable threshA.toNat = true ∧
    (let ps := [(threshA.toNat, 9), (threshA.toNat, 10)]
     live.listStatus (ps.foldl (fun t p => t.stored p.1 p.2) live) .spi 0 ps = none) ∧
    (let ps := [(threshA.toNat, 9), (0xFFFFFFFF, 10)]
     live.listStatus (ps.foldl (fun t p => t.stored p.1 p.2) live) .spi 0 ps = some (1, .badarg, false)) ∧
    (∀ x ∈ ([none, some (0, .badarg, false), some (0, .denied, true)] : List (Option (Nat × Status × Bool))),
      let f : InFlight := { flight (.paramWriteList [(threshA, 9)]) .spi with verdict := x }
      ({ live with keeper := { live.keeper with inFlight := Keeper.reset.inFlight.set 5 (some f) } } : State).starts 5 (.paramWriteList [(threshA, 9)]) = some f) ∧
    live.listCheck .spi [(0xFFFFFFFF, 10)] = some (0, .badarg, false) ∧
    live.Affords (4 * 62) ∧ threshA.toNat < (BitVec.ofNat 32 (pChanThresh 6)).toNat := by
  unfold State.Affords State.AcceptsWrite
  and_intros <;> decide +kernel

/-- `linkS` with a port that is not in service. -/
def noPort (p : Fin 18) : State := { linkS with lanes := { upLanes with ports := upLanes.ports.set p.val { Bringup.reset with width := 0 } } }
def milestoneS (st : ArmState) : State := { liveP [(pDevNumber, 3), (pAcqArmUnlocked, 1)] with
  acq := { Acq.reset with state := st }, mem := { ExtMem.reset with channels := Vector.replicate 4 readyM } }

/-- ACQ_ARM of the next milestone at least 1,024 ticks ahead (R148). -/
theorem test_arm_picks_a_milestone : milestoneAt (0xFFC00 + 1024) = 0x100000 ∧ milestoneAt (0xFFC01 + 1024) = 0x200000 := by decide +kernel

theorem witness_AcquisitionCommandsAnswer :
    ((0x100000 : DWord).toNat % 2 ^ 20 = 0 ∧ 1024 ≤ ((0x100000 : DWord) - (atTick live 0xFFC00).time.tick).toInt ∧ ¬ 1024 ≤ ((0x100000 : DWord) - (atTick live 0xFFC01).time.tick).toInt) ∧
    ((0x100000 : DWord) ≠ 0 ∧ (5 : DWord).toNat % 2 ^ 20 ≠ 0) ∧ (milestoneS .disarmed).mayArm = true ∧ live.mayArm = false ∧ (milestoneS .armed).acq.state = .armed ∧
    (milestoneS .disarmed).acq.state ≠ .armed ∧ 16 ≤ (16 : Byte).toNat ∧ (noPort 1).inService (downPort 1) = false ∧
    linkS.inService (downPort 0) = true ∧ (linkS.ports[downPort 0]).state = .admitted ∧ (linkS.ports[downPort 2]).state ≠ .admitted ∧ linkS.inService (downPort 2) = true ∧
    linkS.time.queue.length < 256 ∧ 256 ≤ ((256 : DWord) - linkS.time.tick).toInt ∧ ((255 : DWord) - linkS.time.tick).toInt < 256 ∧ (0x7FFFFFFF : Word).toNat < 2 ^ 31 ∧
    (porterS (booked book [7])).booking 7 = some book ∧ 7 ∈ (booked book [7]).cached ∧ 7 ∉ (booked book []).cached ∧ live.booking 7 = none ∧ 7 ∉ live.porter.heldSlots ∧
    (milestoneS .armed).memReaches (64 * 7) 64 = true ∧ ((milestoneS .armed).readBytes (64 * 7) 64).1.isSome = true ∧
    live.roomsFit ≤ (243712 : Word).toNat ∧ (31 : Byte).toNat + (1 : Byte).toNat ≤ 32 ∧ 32 < (31 : Byte).toNat + (2 : Byte).toNat ∧ (live.room 0).state ≠ .out ∧
    (milestoneS .armed).memReaches ((milestoneS .armed).roomAddr 0 + 8 * 31) 8 = true ∧ ((milestoneS .armed).readBytes ((milestoneS .armed).roomAddr 0 + 8 * 31) 8).1.isSome = true ∧
    (({ milestoneS .armed with mem := { (milestoneS .armed).mem with data := [(8, 3)] } } : State).readBytes 8 8).1.isNone = true ∧
    live.Affords 4 := by
  unfold State.Affords
  and_intros <;> decide +kernel

/-- An image of one instruction, HALT, at address 2047; one with a wrong magic. -/
def engImg : List Byte :=
  let head : List Byte := [0x4E, 0x45, 1, 1, 0xFF, 7, 0, 0, 4, 0, 0, 0, 0, 0, 0, 0]
  let body : List Byte := [0, 0, 0, 0xFC]
  head ++ natLe 4 (crc32c (head ++ body)).toNat ++ body

theorem test_engLoad_writes_instruction_memory :
    ((after (cmdS (engS Engine.reset) (.engLoad ⟨false, 0x800, 0, 24, engImg⟩)) (.engLoad 5 ⟨false, 0x800, 0, 24, engImg⟩)).engines[(3 : Fin 128)]).imem = [(8191, 0xFC)] := by
  decide +kernel

theorem witness_EngineCommandsAnswer :
    (∀ m : Fin 8, m ≠ 5 → live.keeper.transfers[m] = none) ∧ (∀ k : Fin 2, live.comp.jobs[k] = none) ∧ live.comp.waiting = [] ∧ engSelectorOk 0x10 = false ∧
    (0x800 : Word).toNat = (tileOfEng 3).val + 2 ^ 8 * 2 ^ ((3 : Fin 128).val % 8) ∧ engImg.length = 24 ∧ engImageFail engImg = 0 ∧ engImageFail (0 :: engImg.tail) ≠ 0 ∧
    imageAt engImg 3 1 = 1 ∧ live.on (tileOfEng 3).val = true ∧ ((live.engines[(3 : Fin 128)]).state = .stopped) ∧ ((engS eng).engines[(3 : Fin 128)]).state = .running ∧
    (0x10800 : Word).toNat = (tileOfEng 3).val + 2 ^ 8 * 2 ^ ((3 : Fin 128).val % 8) + 2 ^ 16 ∧ live.on 21 = true ∧ 65556 ≤ live.rd pCmpDLimitMax ∧
    (2047 : Word).toNat + 4 / 4 ≤ 2048 ∧ (0x1FFC : Word).toNat + 4 ≤ 0x2000 ∧ (0xFFFC : Word).toNat + 4 ≤ 0x10000 ∧
    live.dataFit < (0x4000001 : Word).toNat ∧ (1 : Word).toNat ≤ live.rd pCmpDLimitMax ∧ (milestoneS .armed).memReaches 8 8 = true ∧
    ({ live with power := { live.power with domains := 0 } } : State).on 21 = false := by
  and_intros <;> decide +kernel

theorem witness_TimeCommandsAnswer :
    (∃ s : State, s = domS [] { Domain.reset with lost := false, tracking := true, proposalValid := true } 9 ∧ s.healthy 0 = true ∧ (s.time.domains[(0 : Fin 2)]).proposalValid = true ∧
      s.time.active = 0) ∧
    ({ domS [] { Domain.reset with lost := false, tracking := true } 9 with time := { (domS [] { Domain.reset with lost := false, tracking := true } 9).time with active := 1 } }
      : State).time.active ≠ 0 ∧
    live.healthy 0 = false ∧ (live.time.domains[(0 : Fin 2)]).proposalValid = false ∧ live.time.restep = none ∧ live.on 30 = true ∧
    (0x200000 : Int) ≤ ((0x200000 : DWord) - live.time.tick).toInt ∧ ¬ (0x200000 : Int) ≤ ((0x200000 : DWord) - (atTick live 1).time.tick).toInt ∧
    (∃ s : State, s = { live with time := { TimeState.reset with restep := some { restep with milestone := 0x200000 } } } ∧ s.time.restep = some { restep with milestone := 0x200000 }) := by
  refine ⟨⟨_, rfl, ?_⟩, ?_, ?_, ?_, ?_, ?_, ?_, ?_, ⟨_, rfl, ?_⟩⟩ <;> and_intros <;> decide +kernel

theorem witness_MemoryAndLedgerCommandsAnswer :
    (15 : Byte).toNat ≤ 15 ∧ 15 < (16 : Byte).toNat ∧ (∀ e ∈ (ringFrom live.mram.ledger live.mram.ledgerHead 0 15).2, e.crcOk = true) ∧
    ([entry0] : List LedgerEntry).length < 2 ^ 31 ∧ retireOk 0 = true ∧ retireOk 0xFFFFFFFF = false ∧ 16380 < 16380 + ([0] : List Word).length ∧
    0 + (List.replicate 120 (0 : Word)).length ≤ 16380 ∧ live.Affords ((4 * 120 + 7) / 8) ∧ live.Affords (4 * 120) ∧ 120 < (121 : Byte).toNat ∧
    (8 : Word).toNat % 8 = 0 ∧ (480 : Half).toNat ≤ 480 ∧ (8 : Word).toNat + (480 : Half).toNat ≤ live.dataFit ∧ live.memReaches 8 480 = false ∧
    (milestoneS .armed).memReaches 8 480 = true ∧ ((milestoneS .armed).readBytes 8 16).1.isSome = true ∧ untested.power.testEnded = false := by
  unfold State.Affords
  and_intros <;> decide +kernel

/-- `live` with domain 0 off, whose needs are met. -/
def tileOff : State := { live with power := { live.power with domains := live.power.domains &&& ~~~1 } }

theorem witness_PowerLaneAndFrontEndCommandsAnswer :
    (1 : DWord).toNat = 2 ^ 0 ∧ 2 ^ 36 ≤ (0x1000000000 : DWord).toNat ∧ live.switchAllowed [29] true = false ∧ live.switchAllowed [33] false = false ∧
    live.switchAllowed [0] true = true ∧ live.on 0 = true ∧ tileOff.switchAllowed [0] true = true ∧ tileOff.on 0 = false ∧ live.switchAllowed [0] false = true ∧ live.Affords 4 ∧
    live.Affords 7 ∧ (20 : Byte).toNat ≤ 20 ∧ (17 : Byte).toNat = (17 : Fin 18).val ∧ live.inService 17 = true ∧ (noPort 17).inService 17 = false ∧
    live.rd pPfeMode = 0 ∧ (liveP [(pPfeMode, 1)]).rd pPfeMode = 1 ∧ live.pfe.converting = false ∧
    (0x7F800000 : Word).toNat / 2 ^ 23 % 256 = 255 ∧ (0x3F800000 : Word).toNat / 2 ^ 23 % 256 ≠ 255 ∧ live.on 32 = true := by
  unfold State.Affords
  and_intros <;> decide +kernel

/-- A live part whose management cores stand in a state. -/
def keepS (st : SpareState) (fenced : Bool) : State := { live with keeper := { Keeper.reset with spare := st, fenced := fenced } }

theorem test_mismatch_fences : ((after live (.lockstepMismatch 1)).keeper.spare, (after live (.lockstepMismatch 1)).keeper.fenced) = (.spareActive, true) := by decide +kernel

theorem witness_RedundancyCommandsAnswer :
    live.Affords 8192 ∧ live.Affords 4 ∧ untested.power.testEnded = false ∧ (keepS .pair false).keeper.spare = .pair ∧ (keepS .pairCycled true).keeper.fenced = true ∧
    (cmdS (keepS .pairCycled true) .redReadmit).starts 5 .redReadmit = some (flight .redReadmit .spi) ∧ (keepS .pair false).keeper.selftestFailed = false ∧
    live.throttled = false ∧ ({ live with therm := { Thermal.reset with state := .throttle } } : State).throttled = true := by
  unfold State.Affords
  and_intros <;> decide +kernel

theorem witness_FailoverTakesItsSteps :
    ((1 : Fin 5) ≠ 0 ∧ live.keeper.spare = .pair ∧ live.on 28 = true ∧ (keepS .pair true).keeper.fenced = true) ∧
    (∃ s : State, s = { keepS .spareActive true with fd := { live.fd with aelkoReady := false }, mram := { Mram.reset with bootBank := 0 } } ∧ s.on 29 = true ∧
      s.power.poreset = false ∧ 4 ≤ s.fd.stage ∧ (∀ k : Fin 8, s.fd.mb[k] = .busy → (s.keeper.inFlight[k]).isSome = true) ∧ s.fd.aelkoReady = false) ∧
    ((keepS .handover false).keeper.spare = .handover) ∧
    (∃ s : State, s = { live with keeper := { Keeper.reset with ckptCommitted := 4096 } } ∧ s.aelkoRuns = true ∧ 4096 ≤ s.keeper.ckptCommitted ∧
      s.mram.waiting ++ s.mram.running.toList = []) ∧
    ((liveP [(pSpareSelftestPeriod, 1)]).rd pSpareSelftestPeriod ≠ 0 ∧ (liveP [(pSpareSelftestPeriod, 1)]).rd pSpareSelftestPeriod * 1024000000 ≤
      (atTick live 1024000000).time.clock - live.keeper.selftestAt) ∧
    (live.rd pSpareCkptPeriod * 1024000000 ≤ (atTick live (live.rd pSpareCkptPeriod * 1024000000)).time.clock - live.keeper.ckptAt) ∧
    live.rd pSpareSelftestPeriod ≠ 0 ∧ (liveP [(pSpareSelftestPeriod, 0)]).rd pSpareSelftestPeriod = 0 ∧
    (∃ s : State, s = { live with keeper := { Keeper.reset with spare := .selftest, selftestRunning := some (true, 9) } } ∧ s.keeper.selftestRunning = some (true, 9) ∧
      s.keeper.selftestMb = none) ∧
    (∃ s : State, s = atTick { linkP [(pSpareDpAuto, 1)] with ports := upPorts.set 16 (portIn .down) } 1024000000 ∧ s.rd pSpareDpHold * 1024000 ≤ s.time.clock - s.keeper.dpUpAt ∧ s.rd pSpareDpAuto = 1 ∧ (s.ports[s.dataPort]).state ≠ .admitted ∧
      s.power.poreset = false ∧ s.keeper.dpMovedAt = none ∧ (s.ports[s.otherPort]).state = .standby ∧ s.rd pPortDataPath ≤ 1 ∧ s.keeper.noStandby = false) ∧
    (atTick live 1023999999).time.clock - 0 < 1024000000 := by
  refine ⟨by decide +kernel, ⟨_, rfl, ?_⟩, ?_, ⟨_, rfl, ?_⟩, ?_, ?_, ?_, ?_, ⟨_, rfl, ?_⟩, ⟨_, rfl, ?_⟩, ?_⟩ <;> and_intros <;> decide +kernel

theorem test_checkpoint_header_is_32_bytes :
    (({ seq := 17, tick := 0, ledger := 0, bootCount := 0, quarantined := [], calNext := [], dacCodes := [], maint := [], valid := true } : Checkpoint).header [1]).take 4 =
      [0x4B, 0x43, 1, 1] := by decide +kernel

/-! ### Power and thermal -/

def powS (p : Power) : State := { live with power := p }
def logE : LogEntry := ⟨0, 0, 6, 1, 8, 0, 0, none, 0x7F⟩
def ckpt : Checkpoint := ⟨0, 0, 0, 0, [], [], [], [], true⟩
def thermS (st : ThermState) (calm : Nat) (r : Int) : State :=
  { live with therm := { Thermal.reset with state := st, calm := calm, sensors := Thermal.reset.sensors.set 3 { Sensor.reset with reading := r } } }

theorem test_pwrgood_low_keeps_the_ledger_and_resets : ((after (powS { live.power with pwrgood := false }) .pwrgoodLowExpiry).power.cause,
    (after (powS { live.power with pwrgood := false }) .pwrgoodLowExpiry).power.domains) = (2, 0) := by decide +kernel
theorem test_capacitance_is_100_nF_a_microsecond : (after (powS { live.power with testRunning := true }) (.capacitanceTestEnd 8000)).power.cMeas = some 800000 := by decide +kernel
theorem test_hottest_sensor : (thermS .normal 0 1234).hottest = (1234, 3) := by decide +kernel

theorem witness_ResetsAndColdStartTakeTheirSteps :
    (State.reset.power.poreset = true ∧ State.reset.power.lowLong = false ∧ State.reset.power.pwrgood = true ∧ State.reset.keeper.spare ≠ .none ∧ live.power.poreset = false ∧
      live.power.pairTesting = false ∧ (powS { live.power with pairTesting := true }).power.pairTesting = true ∧ live.power.pwrgood = true ∧ live.mram.running = none) ∧
    (∃ s : State, s = { live with mram := { Mram.reset with running := some (.log logE) } } ∧ s.mram.running = some (.log logE) ∧ s.power.pwrgood = true ∧ s.power.poreset = false) ∧
    ((powS { Power.reset with pwrgood := false, lowLong := true }).power.lowLong = true) ∧
    (∃ s : State, s = powS { live.power with handshakes := [(43, 48)] } ∧ (∃ h ∈ s.power.handshakes, h = (43, 48) ∨ h = (48, 43)) ∧ (43 : Fin 51) ≠ 48) ∧
    live.crossingLive (0 : Fin 28).val = true ∧ State.reset.crossingLive (0 : Fin 28).val = false ∧ live.lanes.refclk128 = true ∧ live.lanes.refclk125 = true ∧
    live.on (16 + (3 : Fin 4).val) = true ∧ (live.mem.channels[(3 : Fin 4)]).state ≠ .fault ∧ live.on (portDomain 16) = true ∧ live.inService 16 = true ∧ live.basexPort 16 = false ∧
    (live.lanes.ports[(16 : Fin 18)]).state ≠ .running ∧ (linkS.lanes.ports[(16 : Fin 18)]).state = .running ∧ ({ linkS with lanes := { upLanes with onBasex := Vector.replicate 2 true } } : State).basexPort 16 = true := by
  refine ⟨?_, ⟨_, rfl, ?_⟩, ?_, ⟨_, rfl, ?_⟩, ?_, ?_, ?_, ?_, ?_, ?_, ?_, ?_, ?_, ?_, ?_, ?_⟩ <;> and_intros <;> decide +kernel

theorem witness_HoldUpAndSensorsGuardTheDevice :
    (live.power.poreset = false ∧ live.power.testRunning = false ∧ (powS { live.power with testRunning := true }).power.testRunning = true ∧
      8 * live.rd pPwrHoldCap ≤ 10 * (100 * 8000) ∧ 10 * (100 * 7999) < 8 * live.rd pPwrHoldCap) ∧
    (live.power.testEnded = true ∧ live.power.pwrgood = true ∧ live.on 33 = true ∧ live.energyOk 8192 = true ∧ live.power.short = false ∧
      (powS { live.power with hold := 1000 }).energyOk 1 = false) ∧
    (live.aelkoRuns = true ∧ live.mram.running = none ∧ live.mram.buffer = [] ∧ live.mram.waiting = []) ∧
    (({ live with mram := { Mram.reset with waiting := [.checkpoint ckpt, .log logE] } } : State).mram.waiting = [.checkpoint ckpt, .log logE]) ∧
    (live.fd.stage ≠ 0 ∧ State.reset.fd.stage = 0 ∧ (live.therm.sensors[(3 : Fin 17)]).broken = false ∧ live.deviates 3 = false ∧ (thermS .normal 0 1234).deviates 3 = true) ∧
    (∀ d : Bool, ∃ s : State, s = { live with therm := { Thermal.reset with sensors := Thermal.reset.sensors.set 3 { Sensor.reset with reading := 1234, deviating := if d then 15 else 14 } } } ∧
      s.deviates 3 = true ∧ (s.therm.sensors[(3 : Fin 17)]).deviating = (if d then 15 else 14) ∧ (∀ j : Fin 17, (s.therm.sensors[j]).broken = false)) ∧
    (live.hottest.1 < live.limit pThermTCrit ∧ (thermS .normal 0 (live.limit pThermTCrit)).limit pThermTCrit ≤ (thermS .normal 0 (live.limit pThermTCrit)).hottest.1 ∧
      (thermS .normal 0 (live.limit pThermTCrit)).hottest.2 = 3 ∧ (thermS .normal 0 0).therm.critRun < 15) ∧
    live.rd (pTileTrimEn 3) = 1 ∧ live.rd (pTileTacTrim 3) ≤ 1023 ∧
    (∀ st ∈ ([.normal, .warn, .throttle, .critical] : List ThermState), (thermS st 63 0).therm.state = st ∧ 63 ≤ (thermS st 63 0).therm.calm) := by
  refine ⟨?_, ?_, ?_, ?_, ?_, fun b => ⟨_, rfl, ?_⟩, ?_, ?_, ?_, ?_⟩ <;> and_intros <;> first | (revert b; decide +kernel) | decide +kernel

/-! ### The precision front end and the writes of parameters -/

def pfeS (ps : Params) (q : Pfe) : State := { liveP ps with pfe := q }

theorem test_delay_end_unsettles : (after (pfeS [(pPfeMode, 2)] { Pfe.reset with delay := true }) .pfeDelayEnd).pfe.unsettled =
    live.rd pPfeOrder * (1 + live.rd pPfeInterleave) := by decide +kernel
theorem test_write_without_maintenance_is_denied : (after live (.chanConfigWrite .spi 5 .thresh 9)).lastStatus = .denied := by decide +kernel
theorem test_write_under_maintenance_is_stored : (after maintained (.chanConfigWrite .spi 5 .thresh 9)).rd (pChanThresh 5) = 9 := by decide +kernel

theorem witness_ConversionsExcitationsAndDacsAct :
    (live.on 32 = true ∧ live.rd pPfeMode = 0) ∧
    (∃ s : State, s = pfeS [(pPfeMode, 2)] { Pfe.reset with converting := true } ∧ s.rd pPfeMode = 2 ∧ s.pfe.testing = false ∧ s.pfe.delay = false ∧ s.pfe.converting = true ∧
      s.rd (pPfeIBurnout s.pfeSelected.val) = 0 ∧ s.streaming = false) ∧
    (pfeS [(pPfeMode, 1)] { Pfe.reset with converting := true }).rd pPfeMode = 1 ∧
    (∃ s : State, s = pfeS [(pPfeMode, 1), (pPfeIBurnout 0, 1)] { Pfe.reset with converting := true } ∧ s.rd (pPfeIExc s.pfeSelected.val) = 0 ∧
      0 < s.rd (pPfeIBurnout s.pfeSelected.val) ∧ s.rd (pPfeIBurnout s.pfeSelected.val) ≤ (s.pfe.inputs[s.pfeSelected]).count + 1) ∧
    ((pfeS [] { Pfe.reset with testing := true, delay := true, tripA := true }).pfe.testing = true) ∧
    (∃ s : State, s = pfeS [(pPfeExcAMode, 1), (pPfeIExc 0, 3)] Pfe.reset ∧ s.pfe.tripA = false ∧ s.pfe.tripB = false ∧ s.pfeDrives false = true ∧ s.pfeDrives true = true) ∧
    live.pfeDrives false = false ∧
    (∃ s : State, s = pfeS [(pPfeDMode 2, 2), (pPfeDTinput 2, 32)] Pfe.reset ∧ s.rd (pPfeDMode 2) = 2 ∧ s.aelkoRuns = true ∧ s.dacTemp 2 = some (0, 16) ∧
      s.rd (pPfeDMin 2) ≤ s.rd (pPfeDCode 2) ∧ s.rd (pPfeDCode 2) ≤ s.rd (pPfeDMax 2) ∧ (s.pfe.dacs[(2 : Fin 8)]).hold = false ∧
      (s.pfe.dacs[(2 : Fin 8)]).lastTemp + 10240000000 ≤ (atTick s 10240000000).time.clock) ∧
    (pfeS [(pPfeDMode 2, 2), (pPfeDTinput 2, 0)] Pfe.reset).dacTemp 2 = none := by
  refine ⟨?_, ⟨_, rfl, ?_⟩, ?_, ⟨_, rfl, ?_⟩, ?_, ⟨_, rfl, ?_⟩, ?_, ⟨_, rfl, ?_⟩, ?_⟩ <;> and_intros <;> decide +kernel

/-- Each write row is accepted from SPI under maintenance at a value of its range; ENG.PRIV only from a host. -/
theorem witness_AcceptsWrite :
    (maintained.setChan 255 { Channel.reset with state := .quarantined }).AcceptsWrite .spi (pChanReadmit 255) 1 ∧ maintained.AcceptsWrite .spi (pChanThresh 0) 4095 ∧ maintained.AcceptsWrite .spi (pChanHyst 0) 0 ∧
    maintained.AcceptsWrite .spi (pChanPolarity 0) 1 ∧ maintained.AcceptsWrite .spi (pChanTerm 0) 0 ∧ maintained.AcceptsWrite .spi (pChanMode 5) 2 ∧
    maintained.AcceptsWrite .spi (pChanMode 5) 0 ∧ maintained.AcceptsWrite .spi (pEngRun 127) 1 ∧ maintained.AcceptsWrite .spi (pEngRun 3) 2 ∧
    live.AcceptsWrite .parent (pEngPriv 3) 1 ∧ maintained.AcceptsWrite .spi pTimeSource 1 ∧ maintained.AcceptsWrite .spi (pTimeDAsym 1) 0xFFFFFFFF ∧
    live.AcceptsWrite .parent (pCmpUReadmit 3) 1 ∧ maintained.AcceptsWrite .spi (pPortPEnable 17) 1 ∧ maintained.AcceptsWrite .spi (pPortPEnable 0) 0 ∧
    live.AcceptsWrite .parent pPortDataPath 1 ∧ maintained.AcceptsWrite .spi (pLaneRetrain 20) 1 ∧ maintained.AcceptsWrite .spi pMemRetrain 1 ∧
    maintained.AcceptsWrite .spi (pRefinCal 3) 1 ∧ maintained.AcceptsWrite .spi (pRefinMode 0) 1 ∧ maintained.AcceptsWrite .spi (pRefinPrescale 0) 1 ∧
    maintained.AcceptsWrite .spi (pRefinEdge 0) 1 ∧ maintained.AcceptsWrite .spi (pRefinDmClear 0) 1 ∧ maintained.AcceptsWrite .spi (pRefinCoArm 0) 1 ∧
    maintained.AcceptsWrite .spi (pRefinCoArm 0) 0 ∧ maintained.AcceptsWrite .spi (pRefinCkEn 1) 1 ∧ maintained.AcceptsWrite .spi (pRefinCkEn 1) 0 ∧
    maintained.AcceptsWrite .spi pRefinPpsEn 1 ∧ maintained.AcceptsWrite .spi pRefinPpsEn 0 ∧ maintained.AcceptsWrite .spi (pThermSReadmit 16) 1 ∧
    maintained.AcceptsWrite .spi pPwrHoldCap 1000000 ∧ maintained.AcceptsWrite .spi pPfeMode 1 ∧ maintained.AcceptsWrite .spi pPfeSelect 31 ∧
    maintained.AcceptsWrite .spi pPfeOrder 2 ∧ maintained.AcceptsWrite .spi pPfeDecim 64 ∧ maintained.AcceptsWrite .spi pPfeInterleave 1 ∧
    maintained.AcceptsWrite .spi pPfeExcAMode 1 ∧ maintained.AcceptsWrite .spi pPfeExcAI 1 ∧ maintained.AcceptsWrite .spi pPfeExcBI 1 ∧ maintained.AcceptsWrite .spi (pPfeIExc 31) 1 := by
  unfold State.AcceptsWrite
  and_intros <;> decide +kernel

theorem test_attn_is_low_while_enabled : (fdS { live.fd with attnEn := 1, events := [5] }).pin .attnN = (if (BitVec.ofNat 8 (fdS { live.fd with events := [5] }).fdAttn).getLsbD 0 then .low else .released) := by
  decide +kernel

theorem witness_PinsRestInReset :
    State.reset.power.poreset = true ∧ live.power.poreset = false ∧ (Pin.hit 3).domain = some 0 ∧ tileOff.on 0 = false ∧ (5 : Fin 32).val ≠ live.rd pPfeSelect % 32 ∧
    live.rd (pPfeDMode (2 : Fin 8).val) = 0 := by
  and_intros <;> decide +kernel

/-! ### The block as a whole -/

/-- `live` with one command waiting. -/
def queued (c : Instr) : State := { live with pending := [c] }
def armedS : State := { live with acq := { live.acq with state := .armed } }

theorem test_idle_without_timebase : step State.reset = .next State.reset := rfl
theorem test_armed_tick_is_counted : armedS.countTick.acq.armedTicks = 1 := by decide +kernel
/-- An uncorrectable upset of engine 3's instruction word 9 (R288). -/
theorem test_double_upset_is_noted : ((live.upset (some (3, 9, true))).engines[(3 : Fin 128)]).imemBad = [9] := by decide +kernel
theorem test_queue_is_first_in_first_out : (∃ t : State, step { live with pending := [.pfeDelayEnd, .memRetrain .spi] } = .next t ∧ t.pending = [.memRetrain .spi]) :=
  ⟨_, rfl, by decide +kernel⟩

theorem witness_EmptyQueueIsOneTick :
    (State.reset.pending = [] ∧ State.reset.on 30 = false) ∧
    (live.pending = [] ∧ live.on 30 = true ∧ (∀ p : Fin 18, (live.ports[p]).cut = none) ∧ (live.ports[live.dataPort]).state ≠ .admitted ∧
      (live.engines[(3 : Fin 128)]).imemCe = [] ∧ live.on (tileOfEng 3).val = true ∧ live.acq.state = .disarmed ∧ live.acq.deadMask = 0 ∧ live.Inv) ∧
    (armedS.pending = [] ∧ armedS.on 30 = true ∧ armedS.streaming = true) ∧ ((linkS.ports[linkS.dataPort]).state = .admitted ∧ linkS.Inv) :=
  ⟨⟨rfl, by decide +kernel⟩, ⟨rfl, by decide +kernel, by decide +kernel, by decide +kernel, by decide +kernel, by decide +kernel, rfl, by decide +kernel, live_inv⟩,
    ⟨rfl, by decide +kernel, by decide +kernel⟩, by decide +kernel, linkS_inv⟩

theorem witness_StepsKeepTheInvariant : (queued (.memRetrain .spi)).Inv ∧ ∃ t : State, step (queued (.memRetrain .spi)) = .next t := ⟨live_inv, _, rfl⟩

theorem witness_ChannelEngineAndPathWrites :
    ((chanS { Channel.reset with state := .running }).chans[(5 : Fin 256)]).state = .running ∧ live.streaming = false ∧
    (∀ h ∈ ((chanS { Channel.reset with state := .running }).chans[(5 : Fin 256)]).entries, h.status ≠ .openHit) ∧
    (∀ st : ChanState, st = .disabled ∨ st = .quarantined ∨ st = .calibrating → ((chanS { Channel.reset with state := st }).chans[(5 : Fin 256)]).state = st) ∧
    (∀ st : EngState, ((engS { Engine.reset with state := st }).engines[(3 : Fin 128)]).state = st) ∧
    live.aelkoRuns = true ∧ live.mayWrite .aelko = true ∧ live.addressOk (pEngPriv 3) = true ∧
    live.rd (pPortPEnable 17) ≠ 1 ∧ (liveP [(pPortPEnable 17, 1)]).rd (pPortPEnable 17) = 1 ∧ live.rd pPortDataPath ≠ 1 ∧ live.rd pPortDataPath = 0 ∧
    live.portOfLane 20 = some 17 := by
  and_intros
  · decide +kernel
  · decide +kernel
  · decide +kernel
  · intro st; cases st <;> decide +kernel
  · intro st; cases st <;> decide +kernel
  all_goals decide +kernel

theorem witness_ReferenceAndAnalogueWrites :
    (∃ s : State, s = liveP [(pRefinCoTickLo 3, 1024)] ∧ 1024 ≤ (BitVec.ofNat 64 (s.rd (pRefinCoTickHi 3) * 2 ^ 32 + s.rd (pRefinCoTickLo 3)) - s.time.tick).toInt) ∧
    (∃ s : State, s = liveP [(pRefinCoTickLo 3, 1023)] ∧ (BitVec.ofNat 64 (s.rd (pRefinCoTickHi 3) * 2 ^ 32 + s.rd (pRefinCoTickLo 3)) - s.time.tick).toInt < 1024) ∧
    (31 ≠ live.rd pPfeSelect ∧ 0 = live.rd pPfeSelect ∧ 0 = live.rd pPfeExcAMode) ∧
    (∃ s : State, s = liveP [(pPfeIExc 0, 3)] ∧ 5 ≠ s.rd pPfeExcAI ∧ s.pfeUses s.pfeSelected false = true ∧ 5 ≠ s.rd pPfeExcBI ∧ s.pfeUses s.pfeSelected true = true ∧
      1 ≠ s.rd (pPfeIExc 0) ∧ 0 = s.pfeSelected) ∧
    (State.reset.aelkoRuns = false ∧ live.aelkoRuns = true ∧ live.mayWrite .spi = false ∧ maintained.aelkoRuns = true ∧ maintained.mayWrite .spi = true ∧
      originAllowed .spi (pChanThresh 255) = true ∧ maintained.addressOk (pChanThresh 255) = true) := by
  refine ⟨⟨_, rfl, ?_⟩, ⟨_, rfl, ?_⟩, ?_, ⟨_, rfl, ?_⟩, ?_⟩ <;> and_intros <;> decide +kernel

/-! ### Witnesses of further clauses -/

theorem witness_EmptyQueueIsOneTick_more :
    (∀ e : Fin 128, (live.engines[e]).late = []) ∧ live.keeper.selftestMb = none ∧ (∀ p : Fin 18, (live.ports[p]).lapsed = false) := by
  and_intros <;> decide +kernel

theorem witness_RecordsEnterTheirSourceBuffer_more :
    (∃ s : State, s = { liveP [(pEvqCntSrcLost, 3)] with fd := { live.fd with sources := List.replicate 4 (511, 0) } } ∧
      4 ≤ (s.fd.sources.filter (fun r => r.1 = 511)).length ∧ s.rd pEvqCntSrcLost ≠ 0) ∧ SparseWf resetOf [(pEvqCntSrcLost, 3)] := by
  refine ⟨⟨_, rfl, ?_⟩, ?_⟩ <;> and_intros <;> decide +kernel

/-- Engines that budgets, stalls and their own traps hold up, in X in the same cycle as others of their tile. -/
def engP (ps : Params) (w : Word) (x : Engine) : State := (liveP ps).setEng 3 { x with imem := Memory.putLe [] (4 * x.pc.toNat) 4 w.toNat }

theorem witness_EngineBranchesCallsAndMemoryAccesses_budget :
    (∃ s : State, s = engP [(pEngBudget 3, 3)] (engWord3 0x22 0 3 1 8) eng ∧ s.Ready 3 (engWord3 0x22 0 3 1 8) [3, 1] false ∧ s.budgetReached 3 3 = true) ∧
    (∃ s : State, s = engP [(pEngBudget 3, 3)] (engWord 0x33 0 0 0) eng ∧ s.Ready 3 (engWord 0x33 0 0 0) [15] false ∧ s.budgetReached 3 3 = true) ∧
    (∃ s : State, s = engP [(pEngBudget 3, 4)] (engWord 0x33 0 0 0) eng ∧ s.budgetReached 3 3 = false) ∧
    SparseWf resetOf [(pEngBudget 3, 3)] ∧ SparseWf resetOf [(pEngBudget 3, 4)] := by
  unfold State.Ready
  refine ⟨⟨_, rfl, ?_⟩, ⟨_, rfl, ?_⟩, ⟨_, rfl, ?_⟩, ?_, ?_⟩ <;> and_intros <;> decide +kernel

theorem witness_EngineBranchesCallsAndMemoryAccesses_banks :
    ((engAt (engWord 0x2E 1 13 0) eng).presents 3 = true ∧ (∀ f : Fin 128, f ≠ 3 → (engAt (engWord 0x2E 1 13 0) eng).presents f = false)) ∧
    (∃ s : State, s = (engAt (engWord 0x2E 1 13 0) eng).setTile 0 { TileState.reset with banks := #v[0, 0, 0, 2] } ∧ s.presents 3 = true ∧
      ¬ (s.tiles[tileOfEng 3]).banks[bankOf (s.engines[(3 : Fin 128)]).wordEa] ≤ s.therm.cycles) ∧
    (∃ s : State, s = (engAt (engWord 0x2E 1 13 0) eng).setEng 2 (engAt (engWord 0x2E 1 13 0) eng).engines[(3 : Fin 128)] ∧ s.presents 3 = true ∧ s.presents 2 = true) := by
  refine ⟨?_, ⟨_, rfl, ?_⟩, ⟨_, rfl, ?_⟩⟩ <;> and_intros <;> decide +kernel

/-- A lower engine of the tile with the same instruction in X, and queues that are full. -/
theorem witness_EngineStreamWaitsAndOutputs_more :
    (∃ s : State, s = (engAt (engWord3 0x3A 0 1 2 0) eng).setEng 2 (engAt (engWord3 0x3A 0 1 2 0) eng).engines[(3 : Fin 128)] ∧ s.emitsFirst 3 0x3A = true ∧
      s.emitsFirst 2 0x3A = false) ∧
    (∃ s : State, s = (engAt (engWord3 0x3B 0 1 2 0) eng).setEng 2 (engAt (engWord3 0x3B 0 1 2 0) eng).engines[(3 : Fin 128)] ∧ s.emitsFirst 3 0x3B = true) ∧
    (∃ s : State, s = (engAt (engWord3 0x3A 0 1 2 0) eng).setTile 0 { TileState.reset with prims := List.replicate 4 ⟨0, 0, 0, 0, 0⟩ } ∧
      s.emitsFirst 3 0x3A = false ∧ s.Ready 3 (engWord3 0x3A 0 1 2 0) [1, 2] false ∧ 4 ≤ (s.tiles[tileOfEng 3]).prims.length) ∧
    (∃ s : State, s = (engAt (engWord3 0x3B 0 1 2 0) eng).setTile 0 { TileState.reset with records := List.replicate 8 ⟨0, 0, 0, 0⟩ } ∧
      s.emitsFirst 3 0x3B = false ∧ s.Ready 3 (engWord3 0x3B 0 1 2 0) [1, 2] false ∧ 8 ≤ (s.tiles[tileOfEng 3]).records.length) ∧
    (∃ s : State, s = { engAt (engWord 0x38 0 0 0) { eng with queue := List.replicate 16 ⟨7, 0⟩, late := [⟨8, 4⟩] } with time := { TimeState.reset with clock := 4 } } ∧
      s.visible 3 = List.replicate 16 ⟨7, 0⟩ ∧ (s.engines[(3 : Fin 128)]).late = [⟨8, 4⟩]) := by
  unfold State.Ready
  refine ⟨⟨_, rfl, ?_⟩, ⟨_, rfl, ?_⟩, ⟨_, rfl, ?_⟩, ⟨_, rfl, ?_⟩, ⟨_, rfl, ?_⟩⟩ <;> and_intros <;> decide +kernel

theorem witness_EngineEventsAndStates_more :
    (∃ s : State, s = engAt 0xFFFFFFFF { eng with imemCe := [0] } ∧ legalWord (s.engines[(3 : Fin 128)]).word = false ∧ 0 ∈ (s.engines[(3 : Fin 128)]).imemCe ∧
      0 ∉ (s.engines[(3 : Fin 128)]).imemBad) ∧
    (∃ s : State, s = engAt 0xFFFFFFFF { eng with ready := 9 } ∧ s.therm.cycles < (s.engines[(3 : Fin 128)]).ready) ∧
    (∀ w : Word, w = engWord3 0x00 1 1 2 0 ∨ w = 0xFFFFFFFF ∨ w = engWord 0x28 1 12 0 → ∃ s : State, s = engP [(pEngBudget 3, 6)] w { eng with watchdog := 5 } ∧
      s.rd (pEngBudget 3) = (s.engines[(3 : Fin 128)]).watchdog + 1 ∧ (s.engines[(3 : Fin 128)]).loaded = .none ∧ (s.engines[(3 : Fin 128)]).ready ≤ s.therm.cycles ∧
      (w = engWord3 0x00 1 1 2 0 → legalWord (s.engines[(3 : Fin 128)]).word = true ∧ s.ownTrap 3 = none ∧ 0 ≤ (s.engines[(3 : Fin 128)]).target ∧
        (s.engines[(3 : Fin 128)]).target ≤ 0x7FF ∧ s.stalls 3 = false) ∧
      (w = engWord 0x28 1 12 0 → legalWord (s.engines[(3 : Fin 128)]).word = true ∧ s.ownTrap 3 = some (.inl 3))) ∧
    (∃ s : State, s = { engP [(pEngAutorestart 3, 3)] 0 { eng with state := .trapped, trapCycle := 4, restarts := 2 } with therm := { Thermal.reset with cycles := 20 } } ∧
      (s.engines[(3 : Fin 128)]).state = .trapped ∧ (s.engines[(3 : Fin 128)]).restarts < s.rd (pEngAutorestart 3) ∧ (s.engines[(3 : Fin 128)]).trapCycle + 16 ≤ s.therm.cycles) ∧
    (∃ s : State, s = engAt 0 { eng with state := .waiting, waitTarget := 0 } ∧ (s.engines[(3 : Fin 128)]).state = .waiting) ∧
    (∃ s : State, s = { engAt 0 { eng with state := .sleeping, queue := [⟨7, 0⟩] } with time := { TimeState.reset with clock := 4 } } ∧
      (s.engines[(3 : Fin 128)]).state = .sleeping ∧ (s.engines[(3 : Fin 128)]).queue.filter (fun (q : QueueWord) => q.entered + 4 ≤ s.time.clock) ≠ []) := by
  refine ⟨⟨_, rfl, ?_⟩, ⟨_, rfl, ?_⟩, ?_, ⟨_, rfl, ?_⟩, ⟨_, rfl, ?_⟩, ⟨_, rfl, ?_⟩⟩
  · and_intros <;> decide +kernel
  · decide +kernel
  · rintro w (rfl | rfl | rfl) <;> refine ⟨_, rfl, ?_⟩ <;> and_intros <;> decide +kernel
  all_goals and_intros <;> decide +kernel

/-- Digital mode, inverted polarity and both. -/
theorem witness_EdgesAndBlindIntervalsMakeHits_more :
    (∃ c : Channel, c = { chan with front := { chan.front with mode := 2 } } ∧ c.front.mode = 2 ∧ (0 + 1600 : Int) < 1601) ∧
    (∃ c : Channel, c = { chan with front := { chan.front with polarity := 1 } } ∧ c.front.polarity = 1 ∧ (25 * signed 12 c.front.thresh + 32 * (c.front.hyst : Int) : Int) < -(-129)) ∧
    (∃ c : Channel, c = { chan with front := { chan.front with mode := 2, polarity := 1 } } ∧ c.front.mode = 2 ∧ c.front.polarity = 1 ∧ (0 + 1600 : Int) < -(-1601)) := by
  refine ⟨⟨_, rfl, ?_⟩, ⟨_, rfl, ?_⟩, ⟨_, rfl, ?_⟩⟩ <;> and_intros <;> decide +kernel

theorem witness_HitsAreConvertedOfferedAndReleased_more :
    (∃ h : HitEntry, h = { closedHit with trail := some ⟨164, 7, 0, 310⟩ } ∧ h.trail = some ⟨164, 7, 0, 310⟩ ∧ (65536 : Int) ≤ (164 * 1024 + 7 + 9) - (100 * 1024 + 7 + 5)) ∧
    (∃ s : State, s = hitS { chan with entries := [{ openHit with lead := ⟨100, 7, 0, 456⟩ }], table := some table } 9 ∧
      (s.chans[(5 : Fin 256)]).entries = [{ openHit with lead := ⟨100, 7, 0, 456⟩ }] ∧ table.spanHigh < 456) := by
  refine ⟨⟨_, rfl, ?_⟩, ⟨_, rfl, ?_⟩⟩ <;> and_intros <;> decide +kernel

theorem witness_ChannelTimersAndRecalibrationRun_more :
    (∃ s : State, s = hitS { chan with state := .waitInactive, stuckFrom := some 0 } (live.rd (pChanStuckLimit 5)) ∧ (s.chans[(5 : Fin 256)]).state = .waitInactive ∧
      s.streaming = true ∧ 0 + s.rd (pChanStuckLimit 5) ≤ s.time.clock) ∧
    (∃ s : State, s = hitS { chan with state := .calibrating, calStart := some 0 } 9 ∧ (s.chans[(5 : Fin 256)]).state = .calibrating ∧ s.aelkoFree = true ∧
      s.on (tileOf 5).val = true ∧ (s.tryBatch 67).1 = true ∧ s.power.cutting = false) ∧
    (∃ s : State, s = { hitS { chan with state := .calibrating, calStart := some 0 } 9 with power := { live.power with hold := 0 } } ∧ (s.tryBatch 67).1 = false ∧ s.aelkoFree = true) ∧
    buildTable (histOf flatAt) (2 ^ 20) 8 59 60 100 5 0 0 = .inl 6 := by
  refine ⟨⟨_, rfl, ?_⟩, ⟨_, rfl, ?_⟩, ⟨_, rfl, ?_⟩, ?_⟩
  iterate 3 · and_intros <;> decide +kernel
  · unfold buildTable; simp only [flat_at, buildCodes_at flat_at]; decide +kernel

/-- A stamper whose last edge came at `l` and whose TACs run since `ts`. -/
def stamperAt (l : Nat) (ts : List Nat) : Stamper := { RefBlock.reset.stampers[(0 : Fin 5)] with lastEdge := some l, tacs := ts, table := some table }
/-- Gate 0 as `g` behind that stamper. -/
def refEdgeS (g : Gate) (l : Nat) (ts : List Nat) (n : Nat) : State :=
  refS { RefBlock.reset with gates := RefBlock.reset.gates.set 0 g, stampers := RefBlock.reset.stampers.set 0 (stamperAt l ts) } n

/-- Edges that find an earlier edge and a TAC free again: the gate opens, counts, and closes with the next. -/
theorem witness_ReferenceGatesMeasure_edges :
    (∀ o : Bool, ∃ s : State, s = refEdgeS { gate0 with opened := if o then some 0 else none, boundary := 100 * 1024 } 0 [0, 4719] 30 ∧ s.on 31 = true ∧ s.rd (pRefinMode 0) = 1 ∧
      (s.ref.stampers[(0 : Fin 5)]).calibrating = false ∧ (s.ref.stampers[(0 : Fin 5)]).lastEdge = some 0 ∧ 4718592 ≤ ((30 * 1024 : Int) - 0) * 1000 ∧
      (s.ref.stampers[(0 : Fin 5)]).tacs.head? = some 0 ∧ 262144 ≤ ((30 * 1024 : Int) - 0) * 10 ∧
      (s.ref.gates[(0 : Fin 4)]).opened = (if o then some 0 else none) ∧ (30 * 1024 + s.stampFine 0 456 : Int) < (s.ref.gates[(0 : Fin 4)]).boundary) ∧
    (∀ o : Bool, ∃ s : State, s = refEdgeS { gate0 with opened := if o then some (-5) else none } 0 [0, 4719] 30 ∧ (s.ref.gates[(0 : Fin 4)]).closing = none ∧
      (s.ref.gates[(0 : Fin 4)]).opened = (if o then some (-5) else none) ∧ (s.ref.gates[(0 : Fin 4)]).boundary ≤ 30 * 1024) ∧
    (∃ s : State, s = { refEdgeS gate0 0 [0, 4719] 30 with params := [(pRefinMode 0, 2)] } ∧ s.rd (pRefinMode 0) = 2 ∧ s.on 31 = true) ∧
    (∃ s : State, s = refEdgeS { gate0 with boundary := 100 * 1024 } 4000 [3000, 4000] 9 ∧ (s.ref.stampers[(0 : Fin 5)]).tacs.length = 2 ∧
      ((9 * 1024 + 1023 : Int) - 3000) * 10 < 262144 ∧ 4718592 ≤ ((9 * 1024 : Int) - 4000) * 1000 ∧ (s.ref.gates[(0 : Fin 4)]).boundary = 100 * 1024) ∧
    (∃ s : State, s = refEdgeS { gate0 with boundary := 100 * 1024 } 9000 [9000] 9 ∧ (s.ref.gates[(0 : Fin 4)]).overspeed = false ∧ 9000 < 9 * 1024 ∧
      ((9 * 1024 + 1023 : Int) - 9000) * 1000 < 4718592) := by
  refine ⟨fun o => ⟨_, rfl, ?_⟩, fun o => ⟨_, rfl, ?_⟩, ⟨_, rfl, ?_⟩, ⟨_, rfl, ?_⟩, ⟨_, rfl, ?_⟩⟩ <;> and_intros <;> first | (revert o; decide +kernel) | decide +kernel

theorem witness_ReferenceGatesMeasure_lost :
    (∀ l : Bool, ∃ s : State, s = refS (refGate { gate0 with opened := some (-5), edges := 7, lost := l, late := [(8, 5), (32, 1)] }) (1024 * live.rd (pRefinGate 0)) ∧
      (s.ref.gates[(0 : Fin 4)]).opened = some (-5) ∧ (s.ref.gates[(0 : Fin 4)]).lost = l ∧ (s.ref.gates[(0 : Fin 4)]).closing = none ∧
      (s.ref.gates[(0 : Fin 4)]).lostTo + (s.rd (pRefinGate 0) * 2 ^ 20 : Nat) ≤ (s.time.tick.toNat : Int) * 1024 + s.time.fine.toNat) ∧
    (refS (refGate { gate0 with opened := some (-5) }) 9).Inv := by
  refine ⟨fun l => ⟨_, rfl, ?_⟩, (liveP_inv (ps := [(pRefinMode 0, 1)]) (by decide +kernel)).1, (liveP_inv (ps := [(pRefinMode 0, 1)]) (by decide +kernel)).2⟩
  and_intros <;> first | (revert l; decide +kernel) | decide +kernel

theorem witness_StampersAndDelayUnitsMeasure_more :
    (∃ s : State, s = { refS { RefBlock.reset with stampers := RefBlock.reset.stampers.set 2 { RefBlock.reset.stampers[(2 : Fin 5)] with calibrating := true } } 9 with power := { live.power with hold := 0 } } ∧
      s.aelkoFree = true ∧ (s.tryBatch 67).1 = false ∧ s.power.cutting = false) ∧
    (∃ s : State, s = { live with ref := { RefBlock.reset with stampers := RefBlock.reset.stampers.set 2 { RefBlock.reset.stampers[(2 : Fin 5)] with calibrating := true } } } ∧
      (s.tryBatch 67).1 = true ∧ s.aelkoFree = true ∧ (s.ref.stampers[(2 : Fin 5)]).calibrating = true) ∧
    buildTable (histOf gapAt) (2 ^ 20) 0 275 225 275 0x102 (live.sensorTemp 16) live.stamperTrim = .inl 2 := by
  refine ⟨⟨_, rfl, ?_⟩, ⟨_, rfl, ?_⟩, ?_⟩
  · and_intros <;> decide +kernel
  · and_intros <;> decide +kernel
  · unfold buildTable; simp only [gap_at, buildCodes_at gap_at]; decide +kernel

theorem witness_PulsesClocksAndSecondsGoOut_more :
    (∃ s : State, s = refS (refPps { RefBlock.reset.pps with enabled := true, staged := some (3, 5), lastSecond := none }) 1024000000 ∧ s.ref.pps.enabled = true ∧ s.ref.pps.staged = some (3, 5) ∧
      (lockedOnce s).time.everLocked = true ∧ s.ref.pps.lastSecond = none) ∧
    (∀ v : Bool, ∃ s : State, s = refS { refPps { RefBlock.reset.pps with inValid := v, inLast := some 0 } with
        stampers := RefBlock.reset.stampers.set 4 (stamperAt 0 [0, 4719]) } 1024000000 ∧ s.ref.pps.inValid = v ∧ s.ref.pps.inLast = some 0 ∧
      (s.ref.stampers[(4 : Fin 5)]).lastEdge = some 0 ∧ (s.ref.stampers[(4 : Fin 5)]).tacs.head? = some 0 ∧ (s.ref.stampers[(4 : Fin 5)]).calibrating = false ∧ s.on 31 = true ∧
      (((s.time.tick.toNat : Int) * 1024 + s.stampFine 4 456) - 1048576000000).natAbs ≤ s.rd pRefinPpsinWindow * 2 ^ 20) ∧
    (∃ s : State, s = refS { refPps { RefBlock.reset.pps with inValid := true, inLast := some 0 } with
        stampers := RefBlock.reset.stampers.set 4 (stamperAt 0 [0, 4719]) } 512000000 ∧
      s.rd pRefinPpsinWindow * 2 ^ 20 < (((s.time.tick.toNat : Int) * 1024 + s.stampFine 4 456) - 1048576000000).natAbs ∧
      s.rd pRefinPpsinWindow * 2 ^ 20 < (((s.time.tick.toNat : Int) * 1024 + s.stampFine 4 456) - 0).natAbs) := by
  refine ⟨⟨_, rfl, ?_⟩, fun v => ⟨_, rfl, ?_⟩, ⟨_, rfl, ?_⟩⟩ <;> and_intros <;> first | (revert v; decide +kernel) | decide +kernel

/-- A step, a first exchange and a 16th that valid exchanges make. -/
theorem witness_TimeExchangesMoveTheDomains_more :
    (∃ s : State, s = domS [] { Domain.reset with exchange := exchanged } 9 ∧ s.dEnabled 0 = true ∧ (s.time.domains[(0 : Fin 2)]).exchange.seq ≠ none) ∧
    (∃ s : State, s = { domS [] { Domain.reset with exchange := { exchanged with epoch := 1 } } 9 with params := [] } ∧ (s.time.domains[(0 : Fin 2)]).exchange.epoch ≠ s.time.epoch) ∧
    (∃ s : State, s = domS [] { Domain.reset with jumps := [1 + live.stepLimit] } 9 ∧ s.stepLimit.toNat < (1 + live.stepLimit).natAbs ∧
      (s.time.domains[(0 : Fin 2)]).jumps.length < 2 ∧ (s.time.domains[(0 : Fin 2)]).masterJump = false) := by
  refine ⟨⟨_, rfl, ?_⟩, ⟨_, rfl, ?_⟩, ⟨_, rfl, ?_⟩⟩ <;> and_intros <;> decide +kernel

theorem witness_MilestonesAndLaunchesAct_more :
    (∃ s : State, s = { atTick live 0x100000 with acq := { Acq.reset with state := .armPending, armTick := 0x200000 } } ∧ s.acq.state = .armPending ∧
      atOrBefore s.acq.armTick s.time.tick = false ∧ s.acq.criticalOff = none ∧ s.time.tick.toNat % 2 ^ 20 = 0 ∧ s.time.lastMilestone ≠ some s.time.tick) ∧
    (∃ s : State, s = { atTick live 0x100000 with acq := { Acq.reset with state := .disarmPending, disarmTick := 0x100000 } } ∧ s.acq.state = .disarmPending ∧
      atOrBefore s.acq.disarmTick s.time.tick = true ∧ s.on 20 = true) ∧
    (∃ s : State, s = (live.setTile 0 { TileState.reset with disarmWord := some 3 }).setChan 5 { chan with entries := [openHit] } ∧
      (s.tiles[(0 : Fin 16)]).disarmWord = some 3 ∧ (s.chans[chanOf 0 5]).entries ≠ []) ∧
    (∃ s : State, s = { live with red := { Reduction.reset with due := some 0x100000 }, power := { live.power with domains := 0xBFFFFFFFF } } ∧ s.on 34 = false ∧
      s.red.due = some 0x100000 ∧ (∀ u : Fin 16, (s.tiles[u]).held = [] ∧ (s.tiles[u]).disarmWord = none)) ∧
    (∀ k : Fin 3, ∃ s : State, s = atTick { linkS with time := { TimeState.reset with queue := [.frame 9 ⟨k.val, by omega⟩ (.ctrl 4 0 5 (List.replicate 16 0)) 1] } } 9 ∧
      s.dueLaunch = some (.frame 9 ⟨k.val, by omega⟩ (.ctrl 4 0 5 (List.replicate 16 0)) 1) ∧
      (s.ports[downPort ⟨k.val, by omega⟩]).state = (if k = 0 then .admitted else if k = 1 then .standby else Port.reset.state)) ∧
    (∀ k : Fin 3, ∃ s : State, s = atTick { linkS with time := { TimeState.reset with queue := [.frame 9 ⟨k.val, by omega⟩ (.test 5) 1] } } 9 ∧
      s.dueLaunch = some (.frame 9 ⟨k.val, by omega⟩ (.test 5) 1) ∧ s.on 30 = true) ∧
    (∃ s : State, s = atTick { linkS with porter := porter0, acq := armedAcq, time := { TimeState.reset with queue := [.booking acc none (rc 100 16)] } } 200 ∧
      s.dueLaunch = some (.booking acc none (rc 100 16)) ∧ (s.ports[downPort 0]).state = .admitted ∧ (s.ports[downPort 0]).lapsed = false ∧
      (s.ports[downPort 1]).state = .standby) := by
  refine ⟨⟨_, rfl, ?_⟩, ⟨_, rfl, ?_⟩, ⟨_, rfl, ?_⟩, ⟨_, rfl, ?_⟩, fun k => ⟨_, rfl, ?_⟩, fun k => ⟨_, rfl, ?_⟩, ⟨_, rfl, ?_⟩⟩ <;> and_intros <;>
    first | (revert k; decide +kernel) | decide +kernel

theorem witness_AcceptsPrimitivesAndRecordsAreTaken_more :
    (∃ a : Accept, a = { acc with length := 0 } ∧ a.length = 0) ∧
    (∃ s : State, s = { linkS with ports := upPorts.set 0 Port.reset } ∧ ¬ 0 ≤ (s.time.tick - acc.launch).toInt ∧ s.HearsAny 16 good) ∧
    (∃ s : State, s = (liveP [(pAcqPrimUp, 0)]).setTile 2 { TileState.reset with prims := [⟨0, 0, 0, 0, 0⟩] } ∧ s.rd pAcqPrimUp ≠ 1 ∧
      (s.tiles[(2 : Fin 16)]).prims = [⟨0, 0, 0, 0, 0⟩]) ∧
    (∃ s : State, s = ({ live with acq := armedAcq } : State).setTile 2 { TileState.reset with records := [⟨16, 5, 9, 0⟩] } ∧ s.streaming = true ∧
      (s.tiles[(2 : Fin 16)]).records = [⟨16, 5, 9, 0⟩] ∧ (∀ u : Fin 16, u ≠ 2 → (s.tiles[u]).records = [])) ∧
    (∃ s : State, s = { linkS with acq := { Acq.reset with prims := List.replicate 32 ⟨0, 0, 0, 0, 0⟩ } } ∧ 32 ≤ s.acq.prims.length ∧ (s.ports[(0 : Fin 18)]).state = .admitted) := by
  unfold State.HearsAny
  refine ⟨⟨_, rfl, ?_⟩, ⟨_, rfl, ?_⟩, ⟨_, rfl, ?_⟩, ⟨_, rfl, ?_⟩, ⟨_, rfl, ?_⟩⟩ <;> and_intros <;> first | exact good_clean | decide +kernel

/-- A part with PD20 and PD21 off. -/
def unpowered : State := { live with power := { live.power with domains := 0xFFFCFFFFF } }

theorem witness_RoomsAreGrantedAndShown_more : unpowered.on 20 = false ∧ unpowered.on 21 = false ∧ unpowered.on 22 = true := by and_intros <;> decide +kernel

/-- The eight words of a record, and the same with its last word changed. -/
theorem witness_BookingsCloseAndFetch_more :
    (∃ s : State, s = porterS (booked book []) ∧ s.booking (7 : Half).toNat = some book ∧ 7 ∉ s.porter.cached ∧ s.on 20 = true ∧ (∀ y ∈ s.porter.fetches, y.slot ≠ 7)) ∧
    (∃ s : State, s = porterS (booked { book with index := none } []) ∧ s.booking (7 : Half).toNat = some { book with index := none } ∧ ({ book with index := none } : Booking).index = none) ∧
    (∃ x : Fetch, x = ⟨7, 0, recWords, false, false⟩ ∧ x.slot = 7 ∧ x.walking = false ∧ x.bad = false) ∧
    (∃ x : Fetch, x = ⟨7, 0, recWords, true, false⟩ ∧ x.slot = 7) ∧ (∃ x : Fetch, x = ⟨7, 0, recWords, false, true⟩ ∧ x.slot = 7) := by
  refine ⟨⟨_, rfl, ?_⟩, ⟨_, rfl, ?_⟩, ⟨_, rfl, ?_⟩, ⟨_, rfl, rfl⟩, ⟨_, rfl, rfl⟩⟩ <;> and_intros <;> decide +kernel

/-- Booking 7 READY beside a monitor fragment, with deficits of the two classes. -/
def bothS (dT dM : Int) (turn : Bool) (ps : Params) : State :=
  porterS { booked { book with state := .ready } [7] with monitor := [fragment0], deficitT := dT, deficitM := dM, turnM := turn, inForce := ps ++ [(pRoomsLowWater, 0), (pRoomsReserve, 0)] }

theorem witness_ReadoutsStartAndRelease_deficits :
    (∀ b : Bool, ∃ s : State, s = bothS 1 1 b [] ∧ firstWaiting s.waitingT = some (.booking 7) ∧ firstWaiting s.waitingM = some (.monitor 0) ∧ s.porter.turnM = b ∧
      0 < s.porter.deficitT ∧ 0 < s.porter.deficitM) ∧
    (∃ s : State, s = bothS 0 0 false [] ∧ s.porter.deficitT ≤ 0 ∧ 0 < (s.roomsItem pRoomsWMon * 4096 : Nat) ∧ (0 : Int) < s.porter.deficitM + (s.roomsItem pRoomsWMon * 4096 : Nat)) ∧
    (∃ s : State, s = bothS 0 (-9999999) false [] ∧ s.porter.deficitT ≤ 0 ∧ 0 < s.roomsItem pRoomsWTrig ∧ s.porter.deficitM + (s.roomsItem pRoomsWMon * 4096 : Nat) ≤ 0 ∧
      0 < s.porter.deficitT + (s.roomsItem pRoomsWTrig * 4096 : Nat)) ∧
    (∃ s : State, s = bothS 0 0 true [] ∧ s.porter.deficitM ≤ 0 ∧ (0 : Int) < s.porter.deficitT + (s.roomsItem pRoomsWTrig * 4096 : Nat)) ∧
    (∃ s : State, s = bothS (-9999999) 0 true [] ∧ s.porter.deficitM ≤ 0 ∧ s.porter.deficitT + (s.roomsItem pRoomsWTrig * 4096 : Nat) ≤ 0 ∧
      (0 : Int) < s.porter.deficitM + (s.roomsItem pRoomsWMon * 4096 : Nat)) := by
  refine ⟨fun b => ⟨_, rfl, ?_⟩, ⟨_, rfl, ?_⟩, ⟨_, rfl, ?_⟩, ⟨_, rfl, ?_⟩, ⟨_, rfl, ?_⟩⟩ <;> and_intros <;> first | (revert b; decide +kernel) | decide +kernel

theorem witness_ReadoutsStartAndRelease_more :
    (∃ s : State, s = { porterS { porter0 with readouts := [readout1 .again] } with power := { live.power with domains := 0xFFF3FFFFF } } ∧ s.on 20 = true ∧ s.on 21 = true ∧
      s.on 22 = false ∧ s.on 23 = false ∧ s.lookDeficits.chooseReadout = none) ∧
    (∃ s : State, s = { porterS { porter0 with readouts := [readout1 .again] } with power := { live.power with domains := 0xFFFDFFFFF } } ∧ s.on 20 = true ∧ s.on 21 = false ∧
      s.porter.readouts.find? (fun o => o.stage = .again) = some (readout1 .again)) ∧
    (∃ s : State, s = { porterS (booked { book with state := .ready } [7]) with params := [(pCmpMode, 1)], comp := { Compression.reset with units := Vector.replicate 4 ⟨.pass1, 0⟩ } } ∧
      s.idleUnitNo = none ∧ s.noUnit = false ∧ s.wantedCodec (.booking 7) ≠ 0 ∧ 7 ∈ s.porter.cached ∧ s.on 20 = true) ∧
    (∃ s : State, s = { live with ports := upPorts.set 16 { portIn .admitted with record := some { txRec with started := false } } } ∧
      (s.ports[s.dataPort]).record = some { txRec with started := false } ∧ ({ txRec with started := false } : TxRecord).started = false) := by
  refine ⟨⟨_, rfl, ?_⟩, ⟨_, rfl, ?_⟩, ⟨_, rfl, ?_⟩, ⟨_, rfl, ?_⟩⟩ <;> and_intros <;> decide +kernel

/-- A live part whose first decompressor does the job `j` for the command `c` of mailbox 2. -/
def jobS (j : Job) (c : AelkoCmd) : State :=
  { live with comp := { Compression.reset with jobs := Compression.reset.jobs.set 0 (some j) }, keeper := taken 2 c .spi }
/-- Four bytes as a stored block. -/
def stored4 : List Byte := [1, 4, 0, 0xFB, 0xFF, 1, 2, 3, 4]
def raw4 : Job := { job0 with source := stored4 }
def engBlock0 : TransferBlock := { cont := false, selector := 3, offset := 0, total := 4, data := [] }

theorem witness_CompressionAndDecompressionEnd_more :
    (∀ two : Bool, ∃ s : State, s = { porterS { porter0 with readouts := [{ readout1 (if two then .pass2 else .pass1) with awaiting := 1 }] } with comp := unitIn (if two then .pass2 else .pass1) 2 } ∧
      s.on 21 = true ∧ s.unitReadout 1 = some { readout1 (if two then .pass2 else .pass1) with awaiting := 1 } ∧ s.porter.readouts.length = 1) ∧
    (∃ s : State, s = { porterS { porter0 with readouts := [{ readout1 .pass2 with payload := [1] }] } with comp := unitIn .pass2 2 } ∧
      s.unitReadout 1 = some { readout1 .pass2 with payload := [1] } ∧ ({ readout1 .pass2 with payload := [1] } : Readout).differs = true) ∧
    (∀ c : Fin 4, ∃ s : State, s = jobS (match c with | 0 => { job0 with format := 1, window := some (0, 4) } | 1 => { raw4 with window := some (2, 4) } | 2 => { raw4 with window := some (4, 1) } | 3 => { raw4 with memErr := true })
        .acqStatus ∧ s.aelkoRuns = true ∧ s.keeper.inFlight[(2 : Fin 8)] = some (flight .acqStatus .spi) ∧ (flight .acqStatus .spi).cont = false) ∧
    (∃ n : Nat, (expand 1 64 []).2 = some n ∧ (expand 1 64 []).1.length < 0 + 4) ∧
    ((expand 0 64 stored4).2 = none ∧ (expand 0 64 stored4).1.length < 2 + 4 ∧ 2 < (expand 0 64 stored4).1.length ∧ (expand 0 64 stored4).1.length ≤ 4) ∧
    (∃ s : State, s = jobS { job0 with format := 1, window := none } (.engLoad engBlock0) ∧ s.keeper.inFlight[(2 : Fin 8)] = some (flight (.engLoad engBlock0) .spi) ∧
      s.comp.jobs[(0 : Fin 2)] = some { job0 with format := 1, window := none } ∧ (∃ b : TransferBlock, (flight (.engLoad engBlock0) .spi).cmd = .engLoad b)) := by
  refine ⟨fun b => ⟨_, rfl, ?_⟩, ⟨_, rfl, ?_⟩, fun c => ⟨_, rfl, ?_⟩, ?_, ?_, ⟨_, rfl, ?_⟩⟩
  · and_intros <;> revert b <;> decide +kernel
  · and_intros <;> decide +kernel
  · and_intros <;> revert c <;> decide +kernel
  · exact ⟨6, by decide +kernel⟩
  · decide +kernel
  · and_intros
    · decide +kernel
    · decide +kernel
    · exact ⟨_, rfl⟩

/-- A part whose upstream port has 16 forwarded frames waiting. -/
def fullUp : State := withPort linkS 16 { portIn .admitted with tx := List.replicate 16 ⟨.test 5, none, 0, true, 0⟩ }

theorem witness_ControlAndEventFramesAreRouted_more :
    (fullUp.dataPort = 16 ∧ ¬ fullUp.forwarding (decide ((16 : Fin 18).val < 16)) < 16 ∧ linkS.forwarding false < 16 ∧ linkS.forwarding true < 16) ∧
    (4 < (ctrl true 5 0).mailbox.toNat ∧ 8 < (ctrl true 4 9).hops.toNat ∧ (ctrl true 4 7).mailbox.toNat < 5 ∧ (ctrl true 4 7).hops.toNat < 8) ∧
    (linkS.ports[(0 : Fin 18)]).state = .admitted ∧ linkS.aelkoIsland ∉ linkS.power.signals ∧
    ({ linkS with power := { linkS.power with signals := [43] } } : State).aelkoIsland ∈ ({ linkS with power := { linkS.power with signals := [43] } } : State).power.signals := by
  and_intros <;> decide +kernel

/-- Port 0 ADMITTED at a porter above its reserve. -/
def creditS (x : Port) : State := { porterS porter0 with lanes := upLanes, ports := upPorts.set 0 x }

theorem witness_FramesAreSentByRankAndCredit_more :
    (∃ s : State, s = withPort linkS 16 { portIn .admitted with lapsed := true } ∧ s.linked 16 = true ∧ (s.ports[(16 : Fin 18)]).lapsed = true ∧
      (∀ k : Fin 18, k ≠ 16 → (s.ports[k]).lapsed = false)) ∧
    (∀ n : Word, n = 0 ∨ n = 13 → ∃ s : State, s = { creditS { portIn .admitted with granted := n, announced := n } with time := { TimeState.reset with clock := 16384 } } ∧
      (s.ports[downPort 0]).state = .admitted ∧ s.atReserve = false ∧ (s.ports[downPort 0]).rxWait = [] ∧ s.rd (pPortPCreditMax (0 : Fin 16).val) = 16 ∧
      0 < ((0 + 16#32) - n).toInt ∧ (4 ≤ ((0 + 16#32) - n).toNat ↔ n = 0) ∧ (s.ports[downPort 0]).creditAt + 16384 ≤ s.time.clock) ∧
    (∃ s : State, s = withPort linkS 1 { portIn .standby with tx := [testTx, lanternTx] } ∧ s.sendable 1 = true ∧
      firstOfRank ((s.ports[(1 : Fin 18)]).tx.filter (fun g => (s.ports[(1 : Fin 18)]).carries g.body)) = some lanternTx) ∧
    (∃ s : State, s = { linkS with fd := { live.fd with upstream := List.replicate 8 4 } } ∧ 8 ≤ s.fd.upstream.length ∧ (s.ports[s.dataPort]).state = .admitted) := by
  refine ⟨⟨_, rfl, ?_⟩, ?_, ⟨_, rfl, ?_⟩, ⟨_, rfl, ?_⟩⟩
  · and_intros <;> decide +kernel
  · rintro n (rfl | rfl) <;> refine ⟨_, rfl, ?_⟩ <;> and_intros <;> decide +kernel
  all_goals and_intros <;> decide +kernel

theorem witness_DataFramesFillTheirBooking_more :
    (∃ s : State, s = { linkS with porter := porter0 } ∧ s.Hears 0 good ∧ (s.ports[(0 : Fin 18)]).state = .admitted ∧ (s.ports[(0 : Fin 18)]).rx = none ∧
      (s.ports[(0 : Fin 18)]).rxWait = [] ∧ s.booking (data1.waybill.event.toNat % 65536) = none ∧ data1.first = true ∧ data1.offset = 0 ∧ data1.last = false ∧ s.Inv) ∧
    (∃ d : DataFrame, d = { data1 with waybillOk := false } ∧ d.waybillOk = false) ∧
    (∃ s : State, s = withPort linkS 0 { portIn .admitted with rx := some ⟨.drop, data1.waybill, 4⟩ } ∧ s.linked (downPort 0) = true ∧ (s.ports[downPort 0]).cut = none ∧
      (s.ports[downPort 0]).rx = some ⟨.drop, data1.waybill, 4⟩) ∧
    (filling.linked (downPort 0) = true ∧ (filling.ports[downPort 0]).rx = some ⟨.booking 7, data1.waybill, 4⟩ ∧ filling.booking 7 = some book) ∧ linkS.HearsAny 16 good := by
  unfold State.Hears State.HearsAny
  refine ⟨⟨_, rfl, ?_⟩, ⟨_, rfl, rfl⟩, ⟨_, rfl, ?_⟩, ?_, ?_⟩ <;> and_intros <;> first | exact good_clean | exact live_inv.1 | decide +kernel | exact live_inv.2 | exact linkS_inv

theorem witness_AdmissionIsRequestedAndGranted_more :
    (∃ s : State, s = { withPort linkS 0 { portIn .admitted with role := 2, grantAt := some 0, tx := [testTx, lanternTx] } with time := { TimeState.reset with queue := [.frame 20 0 (.test 5) 1] } } ∧
      (adm 1 2).link = (s.ports[(0 : Fin 18)]).inc ∧ (s.ports[(0 : Fin 18)]).grantAt = some 0 ∧ (s.ports[(0 : Fin 18)]).role = 2 ∧ (s.ports[(0 : Fin 18)]).state = .admitted ∧
      .frame 20 0 (.test 5) 1 ∈ s.time.queue) ∧
    (∃ x : Port, x = portIn .admitting ∧ (adm 9 1).link ≠ x.inc ∧ x.grantAt = none) ∧
    (∀ b : Bool, ∃ s : State, s = { withPort linkS 16 { portIn .admitting with role := 1 } with keeper := { Keeper.reset with dpAwaits := b }, porter := booked book [7] } ∧
      s.on (portDomain 16) = true ∧ s.lanesUp 16 = true ∧ (s.ports[(16 : Fin 18)]).state = .admitting ∧ (adm 1 1).link = (s.ports[(16 : Fin 18)]).inc ∧
      (adm 1 1).argument.toNat = (s.ports[(16 : Fin 18)]).role ∧ s.keeper.dpAwaits = b ∧ 16 = s.dataPort ∧ (adm 1 1).argument = 1 ∧ s.porter.bookings = [(7, book)]) ∧
    (adm 9 1).link ≠ (portIn .admitting).inc ∧ (adm 1 2).argument = 2 ∧ (adm 1 3).argument ≠ 2 ∧ (adm 0 1).link = 0 ∧ ({ adm 3 1 with release := 5 } : AdmitFrame).release ≠ linkS.fd.release ∧
    (∃ f : AdmitFrame, f = { adm 3 2 with release := linkS.fd.release } ∧ f.stepping = 0xB1 ∧ f.release = linkS.fd.release ∧ f.argument = 2) := by
  refine ⟨⟨_, rfl, ?_⟩, ⟨_, rfl, ?_⟩, fun b => ⟨_, rfl, ?_⟩, ?_, ?_, ?_, ?_, ?_, ⟨_, rfl, ?_⟩⟩ <;> and_intros <;> first | decide +kernel | (revert b; decide +kernel)

theorem witness_LinksCloseRenewAndRetry_more :
    (∀ k : Bool, ∃ s : State, s = { withPort (atTick (linkP [(pPortPEnable 16, 1)]) 1048576) 16 { portIn .absent with refusedAt := if k then some 0 else none } with mram := { Mram.reset with incarnation := 1 } } ∧
      16 ≤ (16 : Fin 18).val ∧ s.lanesUp 16 = true ∧ s.rd (pPortPEnable 16) = 1 ∧ s.incarnationWaits = false ∧ s.mram.incarnation ≠ 0 ∧ (s.ports[(16 : Fin 18)]).state = .absent ∧
      (s.ports[(16 : Fin 18)]).askedAt = none ∧ (s.ports[(16 : Fin 18)]).refusedAt = (if k then some 0 else none) ∧ 0 + 1048576 ≤ s.time.clock) ∧
    ((portIn .down).askedAt = none ∧ (portIn .down).state ≠ .absent) ∧
    (∃ s : State, s = withPort (atTick linkS 16384) 0 { portIn .admitting with grantAt := some 0 } ∧ (s.ports[downPort 0]).grantAt = some 0 ∧ 0 + 16384 ≤ s.time.clock) ∧
    (∀ o : Bool, ∃ s : State, s = { atTick linkS 200 with porter := booked { book with state := if o then .opened else .closed } [7] } ∧ s.linked (downPort 0) = true ∧
      (s.ports[downPort 0]).rx = none ∧ s.porter.bookings = [(7, { book with state := if o then .opened else .closed })] ∧ book.launch = s.time.tick ∧
      book.expected.getLsbD 0 = true ∧ book.reported.getLsbD 0 = false ∧ s.Inv) ∧
    ((adm 1 1).link = (linkS.ports[downPort 0]).inc ∧ (adm 1 2).argument = 2 ∧ (adm 9 1).link ≠ (linkS.ports[downPort 0]).inc ∧ (adm 9 1).argument = (linkS.ports[downPort 0]).inc ∧
      (adm 9 1).link ≠ 0 ∧ (adm 9 1).link ≠ (adm 9 1).argument ∧ (linkS.ports[downPort 0]).lastInc ≠ some (adm 9 1).link ∧ (adm 9 2).argument ≠ (linkS.ports[downPort 0]).inc) := by
  refine ⟨fun k => ⟨_, rfl, ?_⟩, ?_, ⟨_, rfl, ?_⟩, fun o => ⟨_, rfl, ?_⟩, ?_⟩ <;> and_intros <;>
    first | decide +kernel | (revert k; decide +kernel) | (revert o; decide +kernel) | exact linkS_inv.1 | exact linkS_inv.2

/-- `laneS` with other parameters. -/
def laneP (ps : Params) (b : Bringup) (sig : Bool) : State := { laneS b sig with params := ps }
/-- `laneS` with every lane as `x`. -/
def laneX (b : Bringup) (x : Lane) : State := { linkS with lanes := { upLanes with ports := upLanes.ports.set 16 b, lanes := Vector.replicate 21 x } }
def onBaseX (s : State) : State := { s with lanes := { s.lanes with onBasex := Vector.replicate 2 true } }

theorem witness_PortsLockAndAgreeOnARung_more :
    (∀ v : Fin 2, ∃ s : State, s = laneP [(pPortPEnable 16, v.val)] (bring .locking .search) true ∧ (s.lanes.ports[(16 : Fin 18)]).state = .locking ∧
      (s.lanes.ports[(16 : Fin 18)]).stage = .search ∧ s.basexPort 16 = false ∧ s.rd (pPortPEnable 16) = v.val) ∧
    (∃ s : State, s = onBaseX (laneS (bring .locking .search) true) ∧ s.basexPort 16 = true ∧ s.lanes.refclk125 = true ∧ (s.lanes.ports[(16 : Fin 18)]).stage = .search) ∧
    (∀ g : Bool, ∃ s : State, s = laneS (bring .locking (if g then .search else .none)) true ∧ (s.lanes.ports[(16 : Fin 18)]).state = .locking ∧ s.basexPort 16 = false) ∧
    (∀ n : Fin 3, ∃ s : State, s = laneX (bring .caps .none) { Lane.reset with capSeen := n.val, capSets := n.val } ∧ (s.lanes.ports[(16 : Fin 18)]).state = .caps ∧
      (s.lanes.ports[(16 : Fin 18)]).mismatch = false ∧ (set0 3).ok = true ∧ (0 : Fin 4).val < (s.lanes.ports[(16 : Fin 18)]).width ∧ portLane 16 + (0 : Fin 4).val = (16 : Fin 21).val ∧
      (set0 3).width.toNat = (s.lanes.ports[(16 : Fin 18)]).width ∧ (set0 3).laneIndex.toNat = 0 ∧ (set0 3).fromChild = false ∧ (s.lanes.ports[(16 : Fin 18)]).width = 1 ∧
      (s.lanes.lanes[(16 : Fin 21)]).capSeen = n.val ∧ (set0 3).seen = true ∧ 17 > 16) ∧
    (∃ s : State, s = laneX { bring .caps .none with mismatch := true } { Lane.reset with capSeen := 2, capSets := 2 } ∧ (s.lanes.ports[(16 : Fin 18)]).mismatch = true ∧
      (s.lanes.ports[(16 : Fin 18)]).state = .caps) ∧ ({ set0 3 with ok := false } : TrainSet).ok = false ∧
    (∃ s : State, s = { linkS with power := { live.power with domains := 0xFFFBFFFFF }, lanes := { upLanes with ports := upLanes.ports.set 16 { Bringup.reset with state := .off } } } ∧
      s.on (portDomain 16) = false) ∧
    (∃ s : State, s = { linkS with lanes := { upLanes with ports := upLanes.ports.set 16 { Bringup.reset with state := .off }, refclk128 := false } } ∧ s.lanes.refclk128 = false ∧
      s.basexPort 16 = false ∧ s.portWidth 16 = 1 ∧ s.lanesFree 16 (portLane 16) 1 = true ∧ s.on (portDomain 16) = true) ∧
    (∀ st ∈ ([.off, .idle, .sleep, .locking, .caps, .running, .basex, .training] : List LaneState), (laneS (bring st .start) true).portOfLane 16 = some 16 ∧
      ((laneS (bring st .start) true).lanes.ports[(16 : Fin 18)]).state = st) := by
  refine ⟨fun v => ⟨_, rfl, ?_⟩, ⟨_, rfl, ?_⟩, fun g => ⟨_, rfl, ?_⟩, fun n => ⟨_, rfl, ?_⟩, ⟨_, rfl, ?_⟩, ?_, ⟨_, rfl, ?_⟩, ⟨_, rfl, ?_⟩, ?_⟩
  · and_intros <;> revert v <;> decide +kernel
  · and_intros <;> decide +kernel
  · and_intros <;> revert g <;> decide +kernel
  · and_intros <;> revert n <;> decide +kernel
  all_goals and_intros <;> decide +kernel

/-- Port 0 in training on lane 0. -/
def downTraining (g : TrainStage) (acks : Nat) : State :=
  { linkS with lanes := { upLanes with ports := upLanes.ports.set 0 (bring .training g), lanes := Vector.replicate 21 { Lane.reset with ackCount := acks } } }

theorem witness_RungsAreVerifiedAndClimbed_more :
    (∃ s : State, s = laneS { bring .training .verdict with ownPass := some false } true ∧ (s.lanes.ports[(16 : Fin 18)]).ownPass = some false ∧ (s.lanes.ports[(16 : Fin 18)]).stage = .verdict) ∧
    (∀ n : Fin 3, ∃ s : State, s = downTraining .stepping n.val ∧ (0 : Fin 18).val < 16 ∧ (s.lanes.ports[(0 : Fin 18)]).stage = .stepping ∧ (s.lanes.ports[(0 : Fin 18)]).width = 1 ∧
      (set0 1).rung.toNat = (s.lanes.ports[(0 : Fin 18)]).rung + 1 ∧ (s.lanes.lanes[(0 : Fin 21)]).ackCount = n.val ∧ portLane 0 + (0 : Fin 4).val = (0 : Fin 21).val) ∧
    (∃ s : State, s = laneP [(pPortPEnable 16, 1)] (bring .training .finalCommas) true ∧ (s.lanes.ports[(16 : Fin 18)]).stage = .finalCommas ∧ (s.lanes.ports[(16 : Fin 18)]).state = .training) ∧
    (∀ r : Bool, ∃ s : State, s = laneS { bring .training .verdict with rung := 1, target := 2, resume := r } true ∧ (s.lanes.ports[(16 : Fin 18)]).resume = r ∧
      (s.lanes.ports[(16 : Fin 18)]).rung < (s.lanes.ports[(16 : Fin 18)]).target ∧ (s.lanes.ports[(16 : Fin 18)]).rung ≠ 0 ∧ (16 : Fin 21) ∈ s.myLanes 16) := by
  refine ⟨⟨_, rfl, ?_⟩, fun n => ⟨_, rfl, ?_⟩, ⟨_, rfl, ?_⟩, fun r => ⟨_, rfl, ?_⟩⟩
  · and_intros <;> decide +kernel
  · and_intros <;> revert n <;> decide +kernel
  · and_intros <;> decide +kernel
  · and_intros <;> revert r <;> decide +kernel

theorem witness_PortsLoseLockAndSleep_more :
    (∀ n : Fin 3, ∀ g : Bool, ∃ s : State, s = laneP [(pLaneLowpower 16, n.val)] (bring (if g then .locking else .running) .none) false ∧ s.rd (pLaneLowpower (portLane 16)) = n.val ∧
      ((s.lanes.ports[(16 : Fin 18)]).state = .locking ↔ g = true)) ∧
    (∀ b : Bool, ∃ s : State, s = { laneS (bring .basex .none) true with lanes := { (laneS (bring .basex .none) true).lanes with basex := Vector.replicate 2 ⟨true, b, b, 0x20⟩ } } ∧
      s.portOfLane 16 = some 16 ∧ (s.lanes.ports[(16 : Fin 18)]).state = .basex ∧ (s.lanes.basex[(0 : Fin 2)]).linkUp = b ∧ idx? 21 (portLane 16) = some 16) := by
  refine ⟨fun n g => ⟨_, rfl, ?_⟩, fun b => ⟨_, rfl, ?_⟩⟩ <;> and_intros <;> first | decide +kernel | (revert n g; decide +kernel) | (revert b; decide +kernel)

theorem witness_DamagedWordsAreCorrectedAndWatched_more :
    (∃ s : State, s = chanM readyM [(8, 1)] [] ∧ s.mem.read 1 = .corrected 0 0 ∧ s.rd pMemLogCe = 0 ∧ s.Inv) ∧
    (∀ b : Bool, ∃ s : State, s = { chanM readyM [] [(1, 3)] with mem := { (chanM readyM [] [(1, 3)]).mem with poisoned := if b then [1] else [] } } ∧ s.mem.read 1 = .poison ∧
      (1 ∈ s.mem.poisoned ↔ b = true) ∧ s.mram.logBuffer.length < 64 ∧ s.Inv) ∧
    (∀ b : Bool, ∃ s : State, s = chanM { readyM with merge := [⟨9, [(0, 5)], 7⟩, ⟨5, if b then (List.range 8).map (fun k => (k, 5)) else [(0, 5)], 3⟩, ⟨13, [(0, 5)], 3⟩] } [] [] ∧
      (s.mem.channels[(1 : Fin 4)]).merge = [⟨9, [(0, 5)], 7⟩] ++ ⟨5, if b then (List.range 8).map (fun k => (k, 5)) else [(0, 5)], 3⟩ :: [⟨13, [(0, 5)], 3⟩] ∧ 5 % 4 = (1 : Fin 4).val) := by
  refine ⟨⟨_, rfl, ?_⟩, fun b => ⟨_, rfl, ?_⟩, fun b => ⟨_, rfl, ?_⟩⟩
  · exact ⟨by decide +kernel, by decide +kernel, live_inv.1, by decide +kernel, by decide +kernel, live_inv.2.2.2⟩
  · refine ⟨?_, ?_, ?_, live_inv.1, live_inv.2.1, ?_, live_inv.2.2.2⟩ <;> revert b <;> decide +kernel
  · and_intros <;> revert b <;> decide +kernel

theorem witness_MailboxesAreWrittenPostedAndCleared_more :
    (∃ s : State, s = { fdS { mbox 5 .done with mbDone := 0x20 } with fresh := { live.fresh with done := 0x20 } } ∧ s.fdOpen .spi = true ∧ s.fd.mbDone.getLsbD 5 = true ∧
      s.fresh.done.getLsbD 5 = true ∧ (0x20 : Word).getLsbD (5 : Fin 8).val = true ∧ s.fd.mb[(5 : Fin 8)] = .done) ∧
    (∃ s : State, s = fdS { mbox 5 .done with mbDone := 0x20 } ∧ s.fresh.done.getLsbD 5 = false ∧ s.fd.mbDone.getLsbD 5 = true) ∧ live.aelkoIsland ∉ live.power.signals := by
  refine ⟨⟨_, rfl, ?_⟩, ⟨_, rfl, ?_⟩, ?_⟩ <;> and_intros <;> decide +kernel

/-- A front desk with one record waiting, its queue holding `n` events. -/
def queueS (ps : Params) (n : Nat) : State := { liveP ps with fd := { live.fd with sources := [(9, 7)], sourceNext := 10, events := List.replicate n 3 } }

theorem witness_RegistersAndEventQueueActAsWritten_more :
    (∃ s : State, s = queueS [(pEvqMask 0, 0x200)] 0 ∧ s.nextSource = some 9 ∧ s.masked 9 = true ∧ s.power.poreset = false) ∧
    (∃ s : State, s = queueS [(pEvqUp, 0)] 1024 ∧ s.nextSource = some 9 ∧ s.masked 9 = false ∧ s.rd pEvqUp ≠ 1 ∧ s.fd.events = 3 :: 3 :: List.replicate 1022 3 ∧
      s.fd.sources.find? (fun x => x.1 = 9) = some (9, 7)) ∧
    (∃ s : State, s = queueS [(pEvqUp, 1)] 1023 ∧ s.rd pEvqUp = 1 ∧ s.masked 9 = false ∧ s.fd.events.length < 1024 ∧ s.fd.upstream.length < 64 ∧ s.nextSource = some 9) ∧
    (∃ s : State, s = { fdS { live.fd with mbErr := 0x101 } with fresh := { live.fresh with err := 0x100 } } ∧ s.fdOpen .spi = true ∧ s.fd.mbErr = 0x101 ∧ s.fresh.err = 0x100) ∧
    ((0x3C : Half).toNat / 4 * 4 = 0x3C ∧ (0x44 : Half).toNat / 4 * 4 = 0x44 ∧ (0x60 : Half).toNat / 4 * 4 = 0x60 ∧ (1 : Word).getLsbD 0 = true ∧ (0xFFC : Half).toNat / 4 * 4 < 0x1000 ∧
      0x2000 ≤ (0x2000 : Half).toNat / 4 * 4) := by
  refine ⟨⟨_, rfl, ?_⟩, ⟨_, rfl, ?_⟩, ⟨_, rfl, ?_⟩, ⟨_, rfl, ?_⟩, ?_⟩ <;> and_intros <;> decide +kernel

/-- A live part with a batch in progress. -/
def batchS : State := { live with mram := { Mram.reset with running := some (.incarnation 2) } }

theorem witness_RoundsCommitsAndTimeLimits_more :
    (batchS.aelkoFree = false ∧ batchS.aelkoRuns = true ∧ batchS.mram.running.isSome = true) ∧
    (∃ s : State, s = { live with power := { live.power with signals := [43, 20] } } ∧ s.aelkoFree = true ∧ (∀ k : Fin 8, s.unstarted k = false) ∧ s.keeper.window = [] ∧
      (∀ k : Fin 8, s.fd.mb[k] ≠ .posted) ∧ s.power.signals = [43, 20]) ∧
    ((cmdS live .acqStatus).unstarted 5 = true ∧ (cmdS live .acqStatus).aelkoFree = true) ∧
    (∃ s : State, s = { untested with mram := { Mram.reset with buffer := [entry0] } } ∧ s.mram.buffer = [entry0] ∧ s.power.testEnded = false) ∧
    (∃ s : State, s = posted (request 0xFFFF) ∧ s.aelkoFree = true ∧ cmdLength (leNat (s.mbBytes 5 0 2)) = none ∧ leNat (s.mbBytes 5 10 2) = 0 ∧ leNat (s.mbBytes 5 4 4) ≤ 496 ∧
      (crc32c (s.mbBytes 5 0 12 ++ s.mbBytes 5 16 (leNat (s.mbBytes 5 4 4)))).toNat = leNat (s.mbBytes 5 12 4) ∧ (∀ k : Fin 8, s.fd.mb[k] = .posted ↔ k = 5)) ∧
    (∀ n : Fin 2, ∃ s : State, s = atTick (fdS { live.fd with maint := live.fd.maint.set 1 (some ⟨false, some 9, 9⟩) }) (8 + n.val) ∧ s.fd.maint[maintIdx true] = some ⟨false, some 9, 9⟩ ∧
      (9 ≤ s.time.clock ↔ n = 1)) ∧
    (∀ n : Fin 2, ∃ s : State, s = atTick { live with keeper := { Keeper.reset with transfers := Keeper.reset.transfers.set 2 (some ⟨0x105, 3, 4, 268, [], 0xFFFFFFFF, 0⟩) } } (10239999999 + n.val) ∧
      s.keeper.transfers[(2 : Fin 8)] = some ⟨0x105, 3, 4, 268, [], 0xFFFFFFFF, 0⟩ ∧ (0 + 10 * 1024000000 ≤ s.time.clock ↔ n = 1) ∧ s.aelkoRuns = true) := by
  refine ⟨?_, ⟨_, rfl, ?_⟩, ?_, ⟨_, rfl, ?_⟩, ⟨_, rfl, ?_⟩, fun n => ⟨_, rfl, ?_⟩, fun n => ⟨_, rfl, ?_⟩⟩
  iterate 5 · and_intros <;> decide +kernel
  all_goals and_intros <;> revert n <;> decide +kernel

theorem witness_CommandsStartInTurnAndReply_more :
    ({ batchS with keeper := taken 5 .sysConfigSave .spi } : State).starts 5 .acqStatus = none ∧ batchCommand 0x0107 = true ∧ batchCommand 0x0304 = false ∧
    (∃ s : State, s = { live with keeper := { Keeper.reset with inFlight := (Keeper.reset.inFlight.set 5 (some (flight .acqStatus .spi))).set 2 (some (flight .acqStatus .spi)) } } ∧
      s.unstarted 2 = true ∧ s.starts 5 .acqStatus = none ∧ s.starts 2 .acqStatus = some (flight .acqStatus .spi)) := by
  refine ⟨?_, ?_, ?_, ⟨_, rfl, ?_⟩⟩ <;> and_intros <;> decide +kernel

theorem none_of : ∀ i : Fin 8, Keeper.reset.inFlight[i] = none := by decide

/-- The block of `img` from `n` on, and a part whose mailbox 5 holds what came before and the command that carries it. -/
def lastBlock (sel : Word) (img : List Byte) (n : Nat) : TransferBlock := ⟨true, sel, BitVec.ofNat 32 n, BitVec.ofNat 32 img.length, img.drop n⟩
def midS (s : State) (c : AelkoCmd) (sel : Word) (img : List Byte) (n : Nat) : State :=
  { s with keeper := { Keeper.reset with
    inFlight := Keeper.reset.inFlight.set 5 (some (flight c .spi)), transfers := Keeper.reset.transfers.set 5 (some ⟨0, 3, sel, img.length, img.take n, 0xFFFFFFFF, 0⟩) } }

/-- The command of a last block has started, its transfer is the one in progress, and the bytes of both are the image. -/
theorem last_of (s : State) (c : AelkoCmd) (sel : Word) (img : List Byte) (n : Nat) (hn : n ≤ img.length) (hl : img.length < 2 ^ 32) :
    (midS s c sel img n).keeper.transfers[(5 : Fin 8)] = some ⟨0, 3, sel, img.length, img.take n, 0xFFFFFFFF, 0⟩ ∧ (lastBlock sel img n).cont = true ∧
      (lastBlock sel img n).total.toNat = img.length ∧ (lastBlock sel img n).offset.toNat = (img.take n).length ∧ img.take n ++ (lastBlock sel img n).data = img := by
  refine ⟨rfl, rfl, ?_, ?_, List.take_append_drop n img⟩
  · simp only [lastBlock, BitVec.toNat_ofNat]; omega
  · simp only [lastBlock, BitVec.toNat_ofNat, List.length_take]; omega

theorem started (s : State) (c : AelkoCmd) (sel : Word) (img : List Byte) (n : Nat) (ha : s.aelkoRuns = true) (hr : s.mram.running = none) (hj : s.comp = Compression.reset) :
    (midS s c sel img n).starts 5 c = some (flight c .spi) := by
  have h1 : (midS s c sel img n).aelkoRuns = true := ha
  have h2 : (midS s c sel img n).mram.running = none := hr
  have h3 : (midS s c sel img n).cmdWaits 5 = false := by
    unfold State.cmdWaits
    rw [show (midS s c sel img n).comp = Compression.reset from hj]
    rfl
  have h4 : ∀ k : Fin 8, k < 5 → (midS s c sel img n).unstarted k = false := by
    intro k hk
    unfold State.unstarted
    have : (midS s c sel img n).keeper.inFlight[k] = none := by
      show (Keeper.reset.inFlight.set 5 (some (flight c .spi)))[k] = none
      rw [Fin.getElem_fin, Vector.getElem_set_ne _ _ (by omega)]
      exact none_of k
    rw [this]; rfl
  have h5 : (midS s c sel img n).keeper.inFlight[(5 : Fin 8)] = some (flight c .spi) := rfl
  unfold State.starts
  rw [h5]
  have h6 : (List.finRange 8).any (fun k => decide (k < 5) && (midS s c sel img n).unstarted k) = false := by
    rw [List.any_eq_false]
    intro k _
    by_cases hk : k < 5
    · simp [h4 k hk]
    · simp [hk]
  simp only [h1, h2, h3]
  rw [if_pos]
  simp [flight, h6]

theorem alone_of (s : State) (c : AelkoCmd) (sel : Word) (img : List Byte) (n : Nat) : ∀ m : Fin 8, m ≠ 5 → (midS s c sel img n).keeper.transfers[m] = none := by
  intro m hm
  show (Keeper.reset.transfers.set 5 _)[m] = none
  rw [Fin.getElem_fin, Vector.getElem_set_ne _ _ (by omega)]
  exact (by decide : ∀ i : Fin 8, Keeper.reset.transfers[i] = none) m

/-- An empty configuration list, an engine image of kind 2 and one of kind 3. -/
def configImg : List Byte := configImage []
def dataImg (k : Byte) : List Byte :=
  let head : List Byte := [0x4E, 0x45, 1, k, 0, 0, 0, 0, 4, 0, 0, 0, 0, 0, 0, 0]
  let body : List Byte := [1, 2, 3, 4]
  head ++ natLe 4 (crc32c (head ++ body)).toNat ++ body

/-- Continued last blocks: a linearisation image of 536 bytes after 484, a boot image, good and bad, and a configuration list; each with its transfer in progress and its command started. -/
theorem witness_ImagesAreTransferredAndApplied_last :
    (∀ img : List Byte, img = linImg ∨ img = List.replicate 536 0 → ∃ s : State, s = midS live (.sysImageWrite (lastBlock 0x50003 img 484)) 0x50003 img 484 ∧
      s.starts 5 (.sysImageWrite (lastBlock 0x50003 img 484)) = some (flight (.sysImageWrite (lastBlock 0x50003 img 484)) .spi) ∧
      s.keeper.transfers[(5 : Fin 8)] = some ⟨0, 3, 0x50003, img.length, img.take 484, 0xFFFFFFFF, 0⟩ ∧ img.take 484 ++ (lastBlock 0x50003 img 484).data = img ∧
      (lastBlock 0x50003 img 484).offset.toNat = (img.take 484).length ∧ (lastBlock 0x50003 img 484).data.length = 52) ∧
    (∃ s : State, s = midS (chanS { chan with state := .calibrating }) (.sysImageWrite (lastBlock 0x50003 linImg 484)) 0x50003 linImg 484 ∧ s.imageBlocked 3 5 = true ∧
      s.starts 5 (.sysImageWrite (lastBlock 0x50003 linImg 484)) = some (flight (.sysImageWrite (lastBlock 0x50003 linImg 484)) .spi)) ∧
    (∀ img : List Byte, img = State.reset.mram.bootImages[(0 : Fin 2)] ∨ img = List.replicate 1024 0 → 1024 ≤ img.length ∧ img.length ≤ 196608 ∧ img.length % 4 = 0 ∧
      ∃ s : State, s = midS live (.sysImageWrite (lastBlock 2 img (img.length - 4))) 2 img (img.length - 4) ∧
        s.starts 5 (.sysImageWrite (lastBlock 2 img (img.length - 4))) = some (flight (.sysImageWrite (lastBlock 2 img (img.length - 4))) .spi) ∧ (∀ m : Fin 8, m ≠ 5 → s.keeper.transfers[m] = none) ∧
        s.keeper.transfers[(5 : Fin 8)] = some ⟨0, 3, 2, img.length, img.take (img.length - 4), 0xFFFFFFFF, 0⟩) ∧
    bootImageOk (List.replicate 1024 0) = false ∧ configImg.length = 16 ∧ parseConfig configImg = .inr [] ∧
    (∃ s : State, s = midS live (.sysImageWrite (lastBlock 1 configImg 8)) 1 configImg 8 ∧
      s.starts 5 (.sysImageWrite (lastBlock 1 configImg 8)) = some (flight (.sysImageWrite (lastBlock 1 configImg 8)) .spi) ∧ (∀ m : Fin 8, m ≠ 5 → s.keeper.transfers[m] = none) ∧
      s.keeper.transfers[(5 : Fin 8)] = some ⟨0, 3, 1, configImg.length, configImg.take 8, 0xFFFFFFFF, 0⟩) := by
  have hl : linImg.length = 536 := by simp only [linImg, LinTable.image, crc32c_forced]; decide +kernel
  refine ⟨?_, ⟨_, rfl, ?_, started _ _ _ _ _ rfl rfl rfl⟩, ?_, ?_, ?_, ?_, ⟨_, rfl, started _ _ _ _ _ rfl rfl rfl, ?_, rfl⟩⟩
  · intro img h
    have hi : img.length = 536 := by rcases h with h | h <;> rw [h]; exact hl; exact List.length_replicate
    have k := last_of live (.sysImageWrite (lastBlock 0x50003 img 484)) 0x50003 img 484 (by omega) (by omega)
    refine ⟨_, rfl, started _ _ _ _ _ rfl rfl rfl, k.1, k.2.2.2.2, k.2.2.2.1, ?_⟩
    simp only [lastBlock, List.length_drop, hi]
  · decide +kernel
  · intro img h
    have hi : 1024 ≤ img.length ∧ img.length ≤ 196608 ∧ img.length % 4 = 0 := by rcases h with rfl | rfl <;> decide +kernel
    exact ⟨hi.1, hi.2.1, hi.2.2, _, rfl, started _ _ _ _ _ rfl rfl rfl, alone_of _ _ _ _ _, rfl⟩
  · simp only [bootImageOk, crc32c_forced]; decide +kernel
  · decide +kernel
  · simp only [configImg, configImage, parseConfig, crc32c_forced]; decide +kernel
  · exact alone_of _ _ _ _ _

theorem witness_ImagesAreTransferredAndApplied_first :
    (∀ x : Word × Word, x = (0x50003, 536) ∨ x = (4, 268) ∨ x = (2, 1024) → ∃ (b : TransferBlock) (s : State), b = ⟨false, x.1, 0, x.2, List.replicate 8 0⟩ ∧
      s = cmdS live (.sysImageWrite b) ∧ s.starts 5 (.sysImageWrite b) = some (flight (.sysImageWrite b) .spi) ∧ b.data.length < b.total.toNat ∧ b.cont = false ∧ b.offset = 0 ∧
      (∀ m : Fin 8, m ≠ 5 → s.keeper.transfers[m] = none)) ∧
    (∀ k : Fin 3, ∃ (b : TransferBlock) (s : State), b = ⟨k = 1, if k = 0 then 5 else 4, 4, 268, []⟩ ∧ s = cmdS live (.sysImageWrite b) ∧
      s.starts 5 (.sysImageWrite b) = some (flight (.sysImageWrite b) .spi) ∧ s.keeper.transfers[(5 : Fin 8)] = none ∧ (imageSelectorOk b.selector = false ↔ k = 0) ∧ (b.cont = true ↔ k = 1) ∧ b.offset ≠ 0) ∧
    (∃ (b : TransferBlock) (s : State), b = ⟨false, 4, 0, 268, eqImg⟩ ∧ s = midS live (.sysImageWrite b) 4 eqImg 8 ∧ s.starts 5 (.sysImageWrite b) = some (flight (.sysImageWrite b) .spi)) := by
  refine ⟨?_, fun k => ?_, ⟨_, _, rfl, rfl, started _ _ _ _ _ rfl rfl rfl⟩⟩
  · rintro x (rfl | rfl | rfl) <;> refine ⟨_, _, rfl, rfl, ?_⟩ <;> and_intros <;> decide +kernel
  · refine ⟨_, _, rfl, rfl, ?_⟩; revert k; decide +kernel

/-- Engine 3 and tile 0, whose images of each kind have come whole, on executing engines and unpowered tiles. -/
theorem witness_EngineCommandsAnswer_images :
    (∀ k : Byte, k = 1 ∨ k = 2 ∨ k = 3 → (dataImg k).length = 24 ∧ imageAt (dataImg k) 3 1 = k.toNat ∧ engImageFail (dataImg k) = 0) ∧
    (∀ (k : Byte) (sel : Word), k = 1 ∨ k = 2 ∨ k = 3 → sel = 0x800 ∨ sel = 0 → ∃ s : State, s = midS live (.engLoad (lastBlock sel (dataImg k) 8)) sel (dataImg k) 8 ∧
      s.starts 5 (.engLoad (lastBlock sel (dataImg k) 8)) = some (flight (.engLoad (lastBlock sel (dataImg k) 8)) .spi) ∧ (∀ m : Fin 8, m ≠ 5 → s.keeper.transfers[m] = none) ∧
      s.keeper.transfers[(5 : Fin 8)] = some ⟨0, 3, sel, (dataImg k).length, (dataImg k).take 8, 0xFFFFFFFF, 0⟩ ∧
      (∀ j : Fin 2, s.comp.jobs[j] = none) ∧ s.comp.waiting = [] ∧ (s.engines[(3 : Fin 128)]).state = .stopped ∧ s.on (tileOfEng 3).val = true) ∧
    (∀ st : EngState, st = .running ∨ st = .sleeping ∨ st = .waiting → ∃ s : State, s = midS (engS { eng with state := st }) (.engLoad (lastBlock 0x800 (dataImg 2) 8)) 0x800 (dataImg 2) 8 ∧
      (s.engines[(3 : Fin 128)]).state = st ∧ s.starts 5 (.engLoad (lastBlock 0x800 (dataImg 2) 8)) = some (flight (.engLoad (lastBlock 0x800 (dataImg 2) 8)) .spi)) ∧
    (∃ s : State, s = midS { live with power := { live.power with domains := live.power.domains &&& ~~~1 } } (.engLoad (lastBlock 0 (dataImg 3) 8)) 0 (dataImg 3) 8 ∧ s.on (tileOfEng 3).val = false ∧
      s.starts 5 (.engLoad (lastBlock 0 (dataImg 3) 8)) = some (flight (.engLoad (lastBlock 0 (dataImg 3) 8)) .spi)) ∧
    (∃ (b : TransferBlock) (s : State), b = ⟨false, 0x800, 0, 24, (dataImg 1).take 8⟩ ∧ s = cmdS live (.engLoad b) ∧ s.starts 5 (.engLoad b) = some (flight (.engLoad b) .spi) ∧ b.data.length < b.total.toNat) ∧
    (∃ s : State, s = cmdS (engS { eng with imemBad := [5] }) (.engRead 3 1 4 8) ∧ 5 ∈ (s.engines[(3 : Fin 128)]).imemBad ∧ (4 : Word).toNat ≤ 5 ∧ 5 < (4 : Word).toNat + (8 : Half).toNat / 4 ∧
      s.starts 5 (.engRead 3 1 4 8) = some (flight (.engRead 3 1 4 8) .spi)) := by
  refine ⟨?_, ?_, ?_, ⟨_, rfl, ?_, started _ _ _ _ _ rfl rfl rfl⟩, ⟨_, _, rfl, rfl, ?_⟩, ⟨_, rfl, ?_⟩⟩
  · rintro k (rfl | rfl | rfl) <;> and_intros <;> decide +kernel
  · rintro k sel hk hs
    refine ⟨_, rfl, started _ _ _ _ _ rfl rfl rfl, ?_, rfl, ?_, rfl, ?_, ?_⟩
    · exact alone_of _ _ _ _ _
    · show ∀ j : Fin 2, live.comp.jobs[j] = none; decide +kernel
    · show (live.engines[(3 : Fin 128)]).state = .stopped; decide +kernel
    · show live.on (tileOfEng 3).val = true; decide +kernel
  · rintro st h
    refine ⟨_, rfl, ?_, started _ _ _ _ _ rfl rfl rfl⟩
    rcases h with rfl | rfl | rfl <;> (simp only [midS]; decide +kernel)
  · simp only [midS]; decide +kernel
  · and_intros <;> decide +kernel
  · and_intros <;> decide +kernel

/-- PARAM_WRITE in each of its ends: accepted, a bad address, an item closed to its origin with and without the energy for the entry, and short of energy; a list of each verdict. -/
theorem witness_ParameterCommandsAnswer_more :
    (∃ s : State, s = cmdS maintained (.paramWrite threshA 9) ∧ s.starts 5 (.paramWrite threshA 9) = some (flight (.paramWrite threshA 9) .spi) ∧ s.AcceptsWrite .spi threshA.toNat (9 : Word).toNat) ∧
    (∃ s : State, s = cmdS live (.paramWrite 0xFFFFFFFF 9) ∧ s.starts 5 (.paramWrite 0xFFFFFFFF 9) = some (flight (.paramWrite 0xFFFFFFFF 9) .spi) ∧ s.addressOk (0xFFFFFFFF : Word).toNat = false) ∧
    (∀ b : Bool, ∃ s : State, s = cmdS (if b then live else untested) (.paramWrite (BitVec.ofNat 32 (pEngPriv 3)) 1) ∧
      s.starts 5 (.paramWrite (BitVec.ofNat 32 (pEngPriv 3)) 1) = some (flight (.paramWrite (BitVec.ofNat 32 (pEngPriv 3)) 1) .spi) ∧ originAllowed .spi (BitVec.ofNat 32 (pEngPriv 3)).toNat = false ∧
      s.addressOk (BitVec.ofNat 32 (pEngPriv 3)).toNat = true ∧ s.power.testEnded = b) ∧
    (∃ s : State, s = cmdS untested (.paramWrite threshA 9) ∧ s.starts 5 (.paramWrite threshA 9) = some (flight (.paramWrite threshA 9) .spi) ∧ s.power.testEnded = false ∧
      s.writeStatus (s.stored threshA.toNat (9 : Word).toNat) threshA.toNat (9 : Word).toNat = .ok) ∧
    live.listCheck .spi [(threshA.toNat, 9), (pEngPriv 3, 1)] = some (1, .denied, true) ∧ live.Affords (4 * 1) ∧ live.readable threshA.toNat = true ∧ threshA.toNat < (BitVec.ofNat 32 (pChanThresh 6)).toNat := by
  unfold State.AcceptsWrite State.Affords
  refine ⟨⟨_, rfl, ?_⟩, ⟨_, rfl, ?_⟩, fun b => ⟨_, rfl, ?_⟩, ⟨_, rfl, ?_⟩, ?_⟩ <;> and_intros <;> first | decide +kernel | (revert b; decide +kernel)

theorem witness_AcquisitionCommandsAnswer_more :
    (∀ c : LaunchBody, c = .test 5 ∨ c = .accept 7 50 100 → ∃ s : State, s = cmdS linkS (.acqLaunch 0 256 c) ∧ s.starts 5 (.acqLaunch 0 256 c) = some (flight (.acqLaunch 0 256 c) .spi) ∧
      s.inService (downPort 0) = true ∧ (s.ports[downPort 0]).state = .admitted ∧ s.time.queue.length < 256 ∧ 256 ≤ ((256 : DWord) - s.time.tick).toInt) ∧
    (∀ k : Bool, ∃ s : State, s = cmdS { milestoneS .armed with porter := booked book (if k then [7] else []) } (.acqBookingRead 7) ∧
      s.starts 5 (.acqBookingRead 7) = some (flight (.acqBookingRead 7) .spi) ∧ s.booking (7 : Half).toNat = some book ∧ (7 ∈ s.porter.cached ↔ k = true) ∧ s.memReaches (64 * 7) 64 = true) ∧
    (∀ k : Bool, ∃ s : State, s = cmdS { milestoneS .armed with mem := { (milestoneS .armed).mem with data := if k then [((milestoneS .armed).roomAddr 0, 3)] else [] } } (.acqRoomRead 0 0 1) ∧
      s.starts 5 (.acqRoomRead 0 0 1) = some (flight (.acqRoomRead 0 0 1) .spi) ∧ (0 : Word).toNat < s.roomsFit ∧ (s.room 0).state ≠ .out ∧ s.memReaches (s.roomAddr 0) 8 = true ∧
      ((s.readBytes (s.roomAddr 0) 8).1 = none ↔ k = true)) := by
  refine ⟨?_, fun k => ⟨_, rfl, ?_⟩, fun k => ⟨_, rfl, ?_⟩⟩
  · rintro c (rfl | rfl) <;> refine ⟨_, rfl, ?_⟩ <;> and_intros <;> decide +kernel
  all_goals and_intros <;> revert k <;> decide +kernel

theorem witness_TimeCommandsAnswer_more :
    ∀ n : Fin 2, ∃ s : State, s = cmdS { atTick live n.val with time := { (atTick live n.val).time with restep := some { restep with milestone := 0x200000 } } } .timeRestepCancel ∧
      s.starts 5 .timeRestepCancel = some (flight .timeRestepCancel .spi) ∧ s.time.restep = some { restep with milestone := 0x200000 } ∧
      ((0x200000 : Int) ≤ ((0x200000 : DWord) - s.time.tick).toInt ↔ n = 0) ∧ s.Affords 4 := by
  unfold State.Affords
  intro n
  refine ⟨_, rfl, ?_⟩; and_intros <;> revert n <;> decide +kernel

/-- A map of one retired column appended to the empty one; the ring of the ledger that wraps over the entry of its slot. -/
theorem witness_MemoryAndLedgerCommandsAnswer_more :
    (∃ es : List Word, es = [0] ∧ es ≠ [] ∧ es.all retireOk = true ∧ es.length = 1) ∧
    (∃ s : State, s = cmdS live (.memRetire [0]) ∧ s.starts 5 (.memRetire [0]) = some (flight (.memRetire [0]) .spi) ∧ s.Affords ((16 + 4 * (0 + 1) + 7) / 8 - (16 + 4 * 0) / 8 + 2)) ∧
    (∃ s : State, s = { live with mram := { Mram.reset with ledger := [{ entry0 with seq := 1 }, entry0], ledgerHead := 2 } } ∧ s.mram.ring.length = 2 ∧ ∀ e ∈ (ringFrom s.mram.ring s.mram.ledgerHead 0 15).2, e.crcOk = true) ∧
    (∃ s : State, s = cmdS { milestoneS .armed with mem := { (milestoneS .armed).mem with data := [(8, 3)] } } (.memRead 8 8) ∧
      s.starts 5 (.memRead 8 8) = some (flight (.memRead 8 8) .spi) ∧ s.memReaches (8 : Word).toNat (8 : Half).toNat = true ∧ (s.readBytes (8 : Word).toNat (8 : Half).toNat).1.isNone = true) ∧
    (∃ s : State, s = cmdS live (.memRead 8 8) ∧ s.starts 5 (.memRead 8 8) = some (flight (.memRead 8 8) .spi) ∧ s.memReaches (8 : Word).toNat (8 : Half).toNat = false) := by
  unfold State.Affords
  refine ⟨⟨_, rfl, ?_⟩, ⟨_, rfl, ?_⟩, ⟨_, rfl, ?_⟩, ⟨_, rfl, ?_⟩, ⟨_, rfl, ?_⟩⟩ <;> and_intros <;> decide +kernel

/-- PFE_START in each mode, and coefficients of each kind. -/
theorem witness_PowerLaneAndFrontEndCommandsAnswer_more :
    (∀ m : Fin 4, ∀ on : Bool, ∃ s : State, s = cmdS { liveP [(pPfeMode, m.val), (pPfeScan, 0x80)] with pfe := { Pfe.reset with converting := on } } (.pfeStart 1) ∧
      s.starts 5 (.pfeStart 1) = some (flight (.pfeStart 1) .spi) ∧ s.rd pPfeMode = m.val ∧ s.pfe.converting = on ∧ (s.rd pPfeScan).testBit (7 : Fin 32).val = true ∧
      (∀ k : Fin 32, k < 7 → (s.rd pPfeScan).testBit k.val = false)) ∧
    (∀ x : Word, x = 0x7F800000 ∨ x = 0x3F800000 → ∃ s : State, s = cmdS live (.pfeCoefWrite 3 (List.replicate 12 x)) ∧
      s.starts 5 (.pfeCoefWrite 3 (List.replicate 12 x)) = some (flight (.pfeCoefWrite 3 (List.replicate 12 x)) .spi) ∧
      (x.toNat / 2 ^ 23 % 256 = 255 ↔ x = 0x7F800000) ∧ s.Affords 7 ∧ s.Affords 4 ∧ s.on 32 = true) := by
  unfold State.Affords
  refine ⟨fun m on => ⟨_, rfl, ?_⟩, ?_⟩
  · and_intros <;> revert m on <;> decide +kernel
  · rintro x (rfl | rfl) <;> refine ⟨_, rfl, ?_⟩ <;> and_intros <;> decide +kernel

/-- A keeper with a self-test that the command of mailbox 5 asked for at `t`. -/
def askedS (st : SpareState) (t : Nat) : State :=
  { live with keeper := { Keeper.reset with spare := st, selftestMb := some 5, selftestAsked := t, selftestRunning := some (true, 9), inFlight := Keeper.reset.inFlight.set 5 (some (flight .redSelftest .spi)) } }

theorem witness_RedundancyCommandsAnswer_more :
    (∀ b : Bool, ∃ s : State, s = cmdS { keepS .pairCycled true with power := (if b then live else untested).power } .redReadmit ∧ s.starts 5 .redReadmit = some (flight .redReadmit .spi) ∧
      s.keeper.spare = .pairCycled ∧ s.keeper.fenced = true ∧ s.on 28 = true ∧ s.power.testEnded = b) ∧
    (∀ st ∈ ([.pair, .selftest, .spareActive] : List SpareState), ∃ s : State, s = cmdS (keepS st false) (.redSwitch 0x53574954) ∧ s.keeper.spare = st ∧
      s.starts 5 (.redSwitch 0x53574954) = some (flight (.redSwitch 0x53574954) .spi) ∧ s.keeper.selftestFailed = false) ∧
    (∀ h : Bool, ∃ s : State, s = cmdS { keepS .pair false with therm := { Thermal.reset with state := if h then .throttle else .normal } } .redSelftest ∧ s.keeper.spare = .pair ∧
      s.throttled = h ∧ s.starts 5 .redSelftest = some (flight .redSelftest .spi)) ∧
    (∀ n : Fin 2, ∃ s : State, s = atTick (askedS .selftest 0) (204800000 + n.val) ∧ s.keeper.selftestMb = some 5 ∧ s.keeper.inFlight[(5 : Fin 8)] = some (flight .redSelftest .spi) ∧
      s.aelkoRuns = true ∧ (204800000 < s.time.clock - s.keeper.selftestAsked ↔ n = 1)) := by
  refine ⟨fun b => ⟨_, rfl, ?_⟩, ?_, fun h => ⟨_, rfl, ?_⟩, fun n => ⟨_, rfl, ?_⟩⟩
  · and_intros <;> revert b <;> decide +kernel
  · intro st h
    refine ⟨_, rfl, ?_⟩
    revert h
    cases st <;> decide +kernel
  · and_intros <;> revert h <;> decide +kernel
  · and_intros <;> revert n <;> decide +kernel

def startEntry : LedgerEntry := { entry0 with kind := 11, object := 7 }

theorem witness_FailoverTakesItsSteps_more :
    (∃ s : State, s = { keepS .handover false with mram := { Mram.reset with bootImages := Vector.replicate 2 [] } } ∧ s.on 28 = true ∧ s.power.poreset = false ∧
      (∀ k : Fin 2, bootImageOk s.mram.bootImages[k] = false)) ∧
    (∃ s : State, s = { live with mram := { Mram.reset with ledger := [{ startEntry with seq := 1, kind := 10 }, startEntry], ledgerHead := 2 } } ∧
      s.mram.ring = [{ startEntry with seq := 1, kind := 10 }] ++ startEntry :: [] ∧ startEntry.kind = 11 ∧ startEntry.crcOk = true ∧ s.mram.latest = none ∧ s.mram.buffer = []) ∧
    (∀ h : Bool, ∃ s : State, s = { atTick (liveP [(pSpareSelftestPeriod, 1)]) 1024000000 with therm := { Thermal.reset with state := if h then .throttle else .normal } } ∧ s.keeper.spare = .pair ∧
      s.aelkoRuns = true ∧ s.throttled = h ∧ s.rd pSpareSelftestPeriod ≠ 0 ∧ s.rd pSpareSelftestPeriod * 1024000000 ≤ s.time.clock - s.keeper.selftestAt) ∧
    (∃ s : State, s = askedS .selftest 0 ∧ s.keeper.spare = .selftest ∧ s.keeper.selftestRunning = some (true, 9) ∧ s.keeper.selftestMb = some 5 ∧
      s.keeper.inFlight[(5 : Fin 8)] = some (flight .redSelftest .spi)) ∧
    (∀ b : Bool, ∃ s : State, s = { atTick { linkP [(pSpareDpAuto, 1)] with ports := (upPorts.set 16 (portIn .down)).set 17 (portIn .down) } 1024000000 with keeper := { Keeper.reset with noStandby := b } } ∧
      s.rd pSpareDpHold * 1024000 ≤ s.time.clock - s.keeper.dpUpAt ∧ s.rd pSpareDpAuto = 1 ∧ (s.ports[s.dataPort]).state ≠ .admitted ∧ s.power.poreset = false ∧
      (s.ports[s.otherPort]).state ≠ .standby ∧ s.keeper.noStandby = b) ∧
    (∃ s : State, s = { atTick { linkP [(pSpareDpAuto, 1)] with ports := upPorts.set 16 (portIn .down) } 1024000000 with keeper := { Keeper.reset with dpMovedAt := some 5 } } ∧
      s.keeper.dpMovedAt = some 5 ∧ s.time.clock - 5 < 1024000000 ∧ (s.ports[s.otherPort]).state = .standby ∧ (s.ports[s.dataPort]).state ≠ .admitted) := by
  refine ⟨⟨_, rfl, ?_⟩, ⟨_, rfl, ?_⟩, fun h => ⟨_, rfl, ?_⟩, ⟨_, rfl, ?_⟩, fun b => ⟨_, rfl, ?_⟩, ⟨_, rfl, ?_⟩⟩
  · and_intros <;> decide +kernel
  · and_intros <;> decide +kernel
  · and_intros <;> revert h <;> decide +kernel
  · and_intros <;> decide +kernel
  · and_intros <;> revert b <;> decide +kernel
  · and_intros <;> decide +kernel

theorem witness_ResetsAndColdStartTakeTheirSteps_more :
    (∃ s : State, s = powS { Power.reset with pwrgood := false } ∧ s.power.poreset = true ∧ s.power.lowLong = false ∧ s.power.pwrgood = false) ∧
    (∃ s : State, s = powS { live.power with pwrgood := false } ∧ s.power.pwrgood = false ∧ s.power.poreset = false) ∧
    (∃ s : State, s = powS { Power.reset with pwrgood := false, lowLong := true } ∧ s.power.poreset = true ∧ s.power.lowLong = true ∧ s.power.pwrgood = false) ∧
    (∃ s : State, s = powS { live.power with handshakes := [(43, 48), (20, 43)] } ∧ s.islandOn (43 : Fin 51).val = true ∧ s.islandOn (48 : Fin 51).val = true ∧ (43, 48) ∈ s.power.handshakes ∧
      ((20 : Nat), (43 : Nat)) ≠ (43, 48) ∧ s.Inv) ∧
    ((48 : Fin 51) ≠ 43 ∧ live.islandOn (48 : Fin 51).val = true ∧ (43 : Fin 51).val ∈ [43, 44, 48]) ∧ (powS { live.power with domains := 0 }).islandOn (48 : Fin 51).val = false ∧
    (onBaseX linkS).basexPort 16 = true ∧ (onBaseX linkS).on (portDomain 16) = true := by
  refine ⟨⟨_, rfl, ?_⟩, ⟨_, rfl, ?_⟩, ⟨_, rfl, ?_⟩, ⟨_, rfl, ?_, ?_, ?_, ?_, live_inv⟩, ?_, ?_, ?_, ?_⟩ <;> and_intros <;> decide +kernel

/-- The batches and buffers that a start and an end of a batch find. -/
theorem witness_HoldUpAndSensorsGuardTheDevice_batches :
    (∀ b : Bool, ∃ s : State, s = { (if b then live else untested) with mram := { Mram.reset with waiting := [.checkpoint ckpt, .log logE] } } ∧ s.aelkoRuns = true ∧ s.mram.running = none ∧ s.mram.buffer = [] ∧
      s.mram.waiting = [.checkpoint ckpt, .log logE] ∧ s.power.testEnded = b) ∧
    (∃ s : State, s = { untested with mram := { Mram.reset with waiting := [.checkpoint ckpt] } } ∧ s.mram.waiting = [.checkpoint ckpt] ∧ s.power.testEnded = false ∧ s.aelkoRuns = true) ∧
    (∃ s : State, s = { live with mram := { Mram.reset with buffer := [entry0] } } ∧ s.aelkoRuns = true ∧ s.mram.running = none ∧ s.mram.buffer ≠ []) ∧
    (∀ b : Batch, b = .log logE ∨ b = .checkpoint ckpt → ∃ s : State, s = { live with mram := { Mram.reset with running := some b } } ∧ s.mram.running = some b) ∧
    (∃ s : State, s = powS { live.power with cutting := true } ∧ s.power.cutting = true ∧ s.power.short = false ∧ s.energyOk 4 = true ∧ s.power.testEnded = true ∧ s.on 33 = true) ∧
    (∀ k : Bool, ∃ s : State, s = powS { live.power with hold := 1000, short := k } ∧ s.energyOk 1 = false ∧ s.power.short = k ∧ s.power.pwrgood = true ∧ s.power.testEnded = true) := by
  refine ⟨fun b => ⟨_, rfl, ?_⟩, ⟨_, rfl, ?_⟩, ⟨_, rfl, ?_⟩, fun b _ => ⟨_, rfl, rfl⟩, ⟨_, rfl, ?_⟩, fun k => ⟨_, rfl, ?_⟩⟩ <;> and_intros <;>
    first | decide +kernel | (revert b; decide +kernel) | (revert k; decide +kernel)

/-- Sensor 3 at T_CRIT, in rounds of each length. -/
def critS (run : Nat) (seen : BitVec 17) (st : ArmState) : State :=
  { live with acq := { Acq.reset with state := st }, therm := { Thermal.reset with
    critRun := run, critSeen := seen, sensors := Thermal.reset.sensors.set 3 { Sensor.reset with reading := live.limit pThermTCrit } } }

theorem witness_HoldUpAndSensorsGuardTheDevice_critical :
    (∀ b : Bool, ∃ s : State, s = critS 14 (if b then 8 else 0) .armed ∧ s.limit pThermTCrit ≤ s.hottest.1 ∧ s.therm.critRun = 14 ∧ (s.therm.critSeen.getLsbD (3 : Fin 17).val = b)) ∧
    (∀ st ∈ ([.disarmed, .armPending, .armed, .disarmPending] : List ArmState), ∃ s : State, s = critS 15 8 st ∧ s.limit pThermTCrit ≤ s.hottest.1 ∧ s.therm.critRun = 15 ∧
      s.therm.critSeen.getLsbD (3 : Fin 17).val = true ∧ s.therm.state ≠ .critical ∧ s.on 30 = true ∧ s.acq.state = st) ∧
    (∃ s : State, s = { live with acq := { Acq.reset with criticalOff := some 0x100000 } } ∧ s.acq.criticalOff = some 0x100000 ∧ ((0xFFFFF : DWord) - 0x100000).toInt < 0 ∧
      0 ≤ ((0x100000 : DWord) - 0x100000).toInt) ∧
    (∃ s : State, s = { live with therm := { Thermal.reset with sensors := Thermal.reset.sensors.set 3 { Sensor.reset with broken := true, fast := 5, samples := 3, means := List.replicate 16 9 } } } ∧
      (s.therm.sensors[(3 : Fin 17)]).broken = true ∧ 0 < (s.therm.sensors[(3 : Fin 17)]).samples ∧ (s.therm.sensors[(3 : Fin 17)]).means[15]? = some 9) ∧
    (∀ st ∈ ([.normal, .warn, .throttle, .critical] : List ThermState), (thermS st 64 0).therm.state = st ∧ 64 ≤ (thermS st 64 0).therm.calm) := by
  refine ⟨fun b => ⟨_, rfl, ?_⟩, ?_, ⟨_, rfl, ?_⟩, ⟨_, rfl, ?_⟩, ?_⟩
  · and_intros <;> revert b <;> decide +kernel
  · intro st h
    refine ⟨_, rfl, ?_⟩
    revert h
    cases st <;> decide +kernel
  all_goals and_intros <;> decide +kernel

theorem witness_PinsRestInReset_more :
    (∀ st : ChanState, live.on (tileOf 5).val = true ∧ ((chanS { Channel.reset with state := st }).chans[(5 : Fin 256)]).state = st) ∧
    (∀ b : Bool, ∃ s : State, s = { live with ref := { RefBlock.reset with calout := RefBlock.reset.calout.set 1 { RefBlock.reset.calout[(1 : Fin 4)] with driven := b } } } ∧
      (s.ref.calout[(1 : Fin 4)]).driven = b ∧ s.on 31 = true) := by
  refine ⟨fun st => ?_, fun b => ⟨_, rfl, ?_⟩⟩
  · cases st <;> decide +kernel
  · and_intros <;> revert b <;> decide +kernel

/-- Words, delays, tests and trips of the front end in each of their states. -/
theorem witness_ConversionsExcitationsAndDacsAct_more :
    (∀ t : Bool, ∃ s : State, s = pfeS [(pPfeMode, 1), (pPfeIBurnout 0, 1)] { Pfe.reset with testDue := t } ∧ s.on 32 = true ∧ s.rd pPfeMode ≠ 0 ∧ s.pfe.testing = false ∧ s.pfe.converting = false ∧
      s.rd (pPfeIExc s.pfeSelected.val) = 0 ∧ s.rd (pPfeIBurnout s.pfeSelected.val) ≠ 0 ∧ s.pfe.testDue = t) ∧
    (∀ i : Fin 2, ∀ t : Bool, ∃ s : State, s = pfeS [(pPfeMode, 1), (pPfeInterleave, i.val), (pPfeIBurnout 0, 1)] { Pfe.reset with converting := true, testDue := t } ∧ s.rd pPfeInterleave = i.val ∧
      s.pfe.testDue = t ∧ s.rd (pPfeIBurnout s.pfeSelected.val) ≤ (s.pfe.inputs[s.pfeSelected]).count + 1 ∧ s.streaming = false) ∧
    (∀ m : Fin 4, ∀ o : Bool, ∃ s : State, s = pfeS [(pPfeMode, m.val)] { Pfe.reset with testing := true, inputs := Pfe.reset.inputs.set 0 { Pfe.reset.inputs[(0 : Fin 32)] with isOpen := o } } ∧
      s.rd pPfeMode = m.val ∧ s.pfe.testing = true ∧ (s.pfe.inputs[s.pfeSelected]).isOpen = o) ∧ ((1000000000000 : Int) < 1000000000001) ∧
    (∀ d : Bool, ∃ s : State, s = pfeS [(pPfeMode, 2)] { Pfe.reset with delay := true, delayStops := d } ∧ s.pfe.delay = true ∧ s.pfe.delayStops = d) ∧
    (∀ b : Bool, ∃ s : State, s = pfeS [(pPfeIExc 0, 3)] { Pfe.reset with tripA := !b, tripB := b } ∧ s.on 32 = true ∧ (if b then s.pfe.tripB else s.pfe.tripA) = true ∧ s.pfeUses s.pfeSelected b = true) ∧
    (∀ k : Fin 3, ∃ s : State, s = { pfeS [(pPfeDMode 2, 2), (pPfeDTinput 2, if k = 0 then 32 else 0)] { Pfe.reset with dacs := Pfe.reset.dacs.set 2 { Pfe.reset.dacs[(2 : Fin 8)] with due := k = 1 } } with
        time := { TimeState.reset with clock := 1024000 } } ∧ s.rd (pPfeDTinput (2 : Fin 8).val) = (if k = 0 then 32 else 0) ∧ (s.pfe.dacs[(2 : Fin 8)]).due = decide (k = 1) ∧
      (s.pfe.dacs[(2 : Fin 8)]).lastTemp + 1024000 ≤ s.time.clock) ∧
    (∀ h : Bool, ∃ s : State, s = { pfeS [(pPfeDMode 2, 2)] { Pfe.reset with dacs := Pfe.reset.dacs.set 2 { Pfe.reset.dacs[(2 : Fin 8)] with hold := h } } with
        time := { TimeState.reset with clock := 10240000000 } } ∧ s.rd (pPfeDMode (2 : Fin 8).val) = 2 ∧ (s.pfe.dacs[(2 : Fin 8)]).hold = h ∧
      (s.pfe.dacs[(2 : Fin 8)]).lastTemp + 10240000000 ≤ s.time.clock) ∧
    (∃ cs : List Word, cs = List.replicate 12 0x3F800000 ∧ cs.length = 12 ∧ ∃ s : State, s = { live with mram := { Mram.reset with coefs := [(3, coefRecord cs)] } } ∧
      sfind (3 : Fin 32).val s.mram.coefs = some (coefRecord cs)) ∧ sfind 3 live.mram.coefs = none := by
  refine ⟨fun t => ⟨_, rfl, ?_⟩, fun i t => ⟨_, rfl, ?_⟩, fun m o => ⟨_, rfl, ?_⟩, by decide, fun d => ⟨_, rfl, ?_⟩, fun b => ⟨_, rfl, ?_⟩, fun k => ⟨_, rfl, ?_⟩, fun h => ⟨_, rfl, ?_⟩,
    ⟨_, rfl, rfl, _, rfl, rfl⟩, by decide +kernel⟩
  · and_intros <;> revert t <;> decide +kernel
  · and_intros <;> revert i t <;> decide +kernel
  · and_intros <;> revert m o <;> decide +kernel
  · and_intros <;> revert d <;> decide +kernel
  · and_intros <;> revert b <;> decide +kernel
  · and_intros <;> revert k <;> decide +kernel
  · and_intros <;> revert h <;> decide +kernel

/-- Channels, units, ports and lanes in each state that a write finds them in. -/
theorem witness_ChannelEngineAndPathWritesTakeEffect :
    (∀ st : ChanState, ∃ s : State, s = chanS { Channel.reset with state := st, blank := if st = .blanked then some ⟨9, false, 0⟩ else none } ∧ (s.chans[(5 : Fin 256)]).state = st ∧ s.streaming = false ∧
      (s.chans[(5 : Fin 256)]).hasOpen = false) ∧
    (∀ st ∈ ([.freerun, .master, .holdover] : List Servo), ∃ s : State, s = { live with time := { TimeState.reset with servo := st } } ∧ s.time.servo = st) ∧
    (∀ b : Bool, ∃ s : State, s = domS [] { Domain.reset with pathChanged := b, proposalValid := true, pathRef := some 7 } 9 ∧ (s.time.domains[(0 : Fin 2)]).pathChanged = b ∧ (1 : Fin 2) ≠ 0) ∧
    (∀ b : Bool, ∃ s : State, s = { live with comp := { Compression.reset with units := if b then Vector.replicate 4 ⟨.quarantined, 3⟩ else Compression.reset.units.set 1 ⟨.quarantined, 3⟩ } } ∧
      (s.comp.units[(1 : Fin 4)]).state = .quarantined ∧ hostOrigin .parent = true ∧ hostOrigin .spi = false ∧ s.on 21 = true ∧
      (b = true → ∀ k : Fin 4, (s.comp.units[k]).state = .quarantined) ∧ (b = false → (0 : Fin 4) ≠ 1 ∧ (s.comp.units[(0 : Fin 4)]).state ≠ .quarantined)) ∧
    (∀ st ∈ ([.idle, .sleep, .running, .basex, .locking] : List LaneState), ∀ e : Fin 2, ∃ s : State, s = laneP [(pPortPEnable 16, e.val)] (bring st .none) true ∧
      (s.lanes.ports[(16 : Fin 18)]).state = st ∧ (16 : Fin 21).val = portLane 16 ∧ s.rd (pPortPEnable 16) = e.val ∧ s.portOfLane 16 = some 16) ∧
    (∀ st ∈ ([.idle, .running] : List LaneState), ∃ s : State, s = { linkS with lanes := { upLanes with ports := upLanes.ports.set 5 (bring st .none) } } ∧ (5 : Fin 18).val < 16 ∧
      (s.lanes.ports[(5 : Fin 18)]).state = st) ∧
    (∃ s : State, s = { withPort linkS 16 Port.reset with mram := { Mram.reset with incarnation := 3 } } ∧ (s.lanes.ports[(16 : Fin 18)]).state = .running ∧ s.linked 16 = false ∧
      s.mram.incarnation ≠ 0 ∧ s.incarnationWaits = false) ∧
    (∀ n : Fin 3, ∃ s : State, s = withPort (laneP [(pLaneLowpower 16, n.val)] (bring .running .none) true) 16 Port.reset ∧ s.linked 16 = false ∧ s.on (portDomain 16) = true ∧ s.inService 16 = true ∧
      (s.lanes.ports[(16 : Fin 18)]).state ≠ .off ∧ s.rd (pLaneLowpower (portLane 16)) = n.val) ∧
    (∀ b : Bool, ∃ s : State, s = { live with power := { live.power with domains := if b then 0xFFFFFFFFF else 0xFFFFDFFFF } } ∧ s.on (16 + (1 : Fin 4).val) = b ∧ s.lanes.refclk128 = true ∧ s.streaming = false) ∧
    (batchS.aelkoFree = false ∧ live.aelkoFree = true ∧ live.addressOk (pEngPriv 3) = true ∧ live.Affords 4) := by
  unfold State.Affords
  refine ⟨?_, ?_, fun b => ⟨_, rfl, ?_⟩, fun b => ⟨_, rfl, ?_⟩, ?_, ?_, ⟨_, rfl, ?_⟩, fun n => ⟨_, rfl, ?_⟩, fun b => ⟨_, rfl, ?_⟩, ?_⟩
  · intro st; refine ⟨_, rfl, ?_⟩; cases st <;> decide +kernel
  · intro st h; exact ⟨_, rfl, rfl⟩
  · and_intros <;> revert b <;> decide +kernel
  · and_intros <;> revert b <;> decide +kernel
  · intro st h e; refine ⟨_, rfl, ?_⟩; revert h e; cases st <;> decide +kernel
  · intro st h; exact ⟨_, rfl, by decide, rfl⟩
  · and_intros <;> decide +kernel
  · and_intros <;> revert n <;> decide +kernel
  · and_intros <;> revert b <;> decide +kernel
  · and_intros <;> decide +kernel

/-- Gates, stampers, sensors and inputs in each state that a write finds them in. -/
theorem witness_ReferenceAndAnalogueWritesTakeEffect :
    (∀ b : Bool, ∃ s : State, s = { live with therm := { Thermal.reset with sensors := Thermal.reset.sensors.set 3 { Sensor.reset with broken := b } } } ∧ (s.therm.sensors[(3 : Fin 17)]).broken = b) ∧
    (∀ m : Fin 4, ∃ s : State, s = pfeS [(pPfeMode, m.val), (pPfeScan, 1)] { Pfe.reset with converting := true } ∧ s.rd pPfeMode = m.val ∧ s.pfe.converting = true ∧
      (s.rd pPfeScan).testBit s.pfeSelected.val = true ∧ (s.pfeWordRuns = true ↔ m ≠ 0)) ∧
    (∃ s : State, s = pfeS [(pPfeMode, 2), (pPfeIExc 7, 3)] { Pfe.reset with converting := false } ∧ s.rd (pPfeIExc (7 : Fin 32).val) ≠ s.rd (pPfeIExc s.pfeSelected.val) ∧ s.pfe.converting = false) ∧
    (∃ s : State, s = refEdgeS { gate0 with opened := some (-5) } 0 [] 30 ∧ (s.ref.gates[(0 : Fin 4)]).opened = some (-5)) := by
  refine ⟨fun b => ⟨_, rfl, ?_⟩, fun m => ⟨_, rfl, ?_⟩, ⟨_, rfl, ?_⟩, ⟨_, rfl, ?_⟩⟩
  · revert b; decide +kernel
  · and_intros <;> revert m <;> decide +kernel
  · and_intros <;> decide +kernel
  · rfl
/-! ### Whole states that meet the hypotheses of single clauses -/

theorem witness_AdmissionIsRequestedAndGranted_full :
    (∀ k : Fin 3, ∃ (s : State) (f : AdmitFrame), s = withPort (linkP [(pPortPEnable 2, 1)]) 2 Port.reset ∧
      f = { adm 3 (if k = 1 then 3 else 1) with stepping := if k = 0 then 0xB0 else 0xB1, release := linkS.fd.release } ∧ s.on (portDomain 2) = true ∧ s.lanesUp 2 = true ∧
      s.linked 2 = false ∧ s.rd (pPortPEnable 2) = 1 ∧ (s.ports[(2 : Fin 18)]).lastInc ≠ some f.link ∧ f.link ≠ 0 ∧ (f.stepping ≠ 0xB1 ↔ k = 0) ∧ f.release = s.fd.release ∧
      (f.argument = 1 ↔ k ≠ 1) ∧ f.argument ≠ 2) ∧
    (∃ s : State, s = withPort (atTick linkS 70) 2 { portIn .admitting with grantAt := some 0, role := 1 } ∧ s.on (portDomain 2) = true ∧ s.lanesUp 2 = true ∧
      (adm 1 1).link = (s.ports[(2 : Fin 18)]).inc ∧ (s.ports[(2 : Fin 18)]).grantAt = some 0 ∧ (s.ports[(2 : Fin 18)]).role = 1 ∧ (s.ports[(2 : Fin 18)]).state = .admitting) := by
  refine ⟨fun k => ⟨_, _, rfl, rfl, ?_⟩, ⟨_, rfl, ?_⟩⟩ <;> and_intros <;> first | decide +kernel | (revert k; decide +kernel)

/-- A port in CAPS whose lane has had two capability sets, and one in training. -/
theorem witness_PortsLockAndAgreeOnARung_full :
    (∃ (s : State) (b : Bringup), b = { bring .caps .none with width := 1, offer := 4, partnerOffer := 4 } ∧
      s = { laneS b true with lanes := { (laneS b true).lanes with lanes := Vector.replicate 21 { Lane.reset with signal := true, capSeen := 2, capSets := 5 } } } ∧
      s.lanes.ports[(16 : Fin 18)] = b ∧ portLane 16 + (0 : Fin 4).val = (16 : Fin 21).val ∧ (s.lanes.lanes[(16 : Fin 21)]).capSeen = 2 ∧
      (let t : TrainSet := { set0 3 with seen := true }; t.ok = true ∧ t.width.toNat = b.width ∧ t.laneIndex.toNat = (0 : Fin 4).val ∧ t.fromChild = decide ((16 : Fin 18).val < 16) ∧ t.seen = true)) ∧
    (∀ g : TrainStage, g = .verdict ∨ g = .stepping ∨ g = .acking ∨ g = .relock → ∃ s : State,
      s = { linkS with lanes := { upLanes with ports := upLanes.ports.set 0 { bring .training g with width := 1, rung := 2 } } } ∧ s.portOfLane 0 = some 0 ∧
        (s.lanes.ports[(0 : Fin 18)]).stage = g ∧ (s.lanes.ports[(0 : Fin 18)]).state = .training) := by
  refine ⟨⟨_, _, rfl, rfl, ?_⟩, ?_⟩
  · and_intros <;> decide +kernel
  · rintro g (rfl | rfl | rfl | rfl) <;> refine ⟨_, rfl, ?_⟩ <;> and_intros <;> decide +kernel

/-- Every channel READY, with a word of data, and a room that has had a hit. -/
def readyAll (d k : Memory) : State := { live with mem := { ExtMem.reset with channels := Vector.replicate 4 readyM, data := d, check := k } }

theorem witness_MemoryChannelsTrainServeAndFault_full :
    (∃ s : State, s = (chanM { readyM with hits := [hitW] } [] []).modRoom 0 (fun r => { r with dated := true, min := 9, max := 3, fresh := true, suspect := true }) ∧
      s.frontHit 1 .a = some hitW ∧ (s.mem.channels[(1 : Fin 4)]).state = .ready ∧ (s.room hitW.room).dated = true ∧ (s.room hitW.room).wroteAt = [] ∧ s.porter.monQueue = [] ∧
      (∀ u : Fin 16, (s.tiles[u]).output = []) ∧ (∀ k : Fin 17, (s.porter.chains[k]).rooms = [])) ∧
    (∀ op : MemOp, op = .write 7 ∨ op = .read (.record 7 2) ∨ op = .read .none → ∃ s : State, s = chanM { readyM with general := [access op] } [] [] ∧
      s.frontAccess 1 .a = some (access op) ∧ s.mem.read (access op).word = .good) ∧
    (∃ s : State, s = { chanM readyM [] [] with fd := { live.fd with aelkoReady := false } } ∧ s.aelkoRuns = false ∧ s.parityAccesses 1 .a = []) := by
  refine ⟨⟨_, rfl, ?_⟩, ?_, ⟨_, rfl, ?_⟩⟩
  · and_intros <;> decide +kernel
  · rintro op (rfl | rfl | rfl) <;> refine ⟨_, rfl, ?_⟩ <;> and_intros <;> decide +kernel
  · and_intros <;> decide +kernel

theorem witness_MemoryAndLedgerCommandsAnswer_full :
    (∃ s : State, s = cmdS (readyAll [(64, 7), (70, 9)] [(8, checkBits 0x0009000000000007)]) (.memRead 64 16) ∧
      s.starts 5 (.memRead 64 16) = some (flight (.memRead 64 16) .spi) ∧ s.memReaches 64 16 = true ∧ (s.readBytes 64 16).1.isSome = true) ∧
    (∃ s : State, s = cmdS (readyAll [(64, 7), (70, 9)] []) (.memRead 64 16) ∧
      s.starts 5 (.memRead 64 16) = some (flight (.memRead 64 16) .spi) ∧ s.memReaches 64 16 = true ∧ (s.readBytes 64 16).1.isSome = false) := by
  refine ⟨⟨_, rfl, ?_⟩, ⟨_, rfl, ?_⟩⟩ <;> and_intros <;> decide +kernel

theorem witness_AcquisitionCommandsAnswer_full :
    (∃ s : State, s = cmdS { readyAll [] [] with porter := booked book [] } (.acqBookingRead 7) ∧
      s.starts 5 (.acqBookingRead 7) = some (flight (.acqBookingRead 7) .spi) ∧ s.booking 7 = some book ∧ 7 ∉ s.porter.cached ∧ s.memReaches (64 * 7) 64 = true ∧
      (s.readBytes (64 * 7) 64).1.isSome = true) ∧
    (∀ b : Bool, ∃ s : State, s = cmdS { readyAll [] (if b then [] else [(live.roomAddr 3 / 8 + 2, 1)]) with porter := booked book [] } (.acqRoomRead 3 2 4) ∧
      s.starts 5 (.acqRoomRead 3 2 4) = some (flight (.acqRoomRead 3 2 4) .spi) ∧ 3 < s.roomsFit ∧ (s.room 3).state ≠ .out ∧
      s.memReaches (s.roomAddr 3 + 16) 32 = true) := by
  refine ⟨⟨_, rfl, ?_⟩, fun b => ⟨_, rfl, ?_⟩⟩ <;> and_intros <;> first | decide +kernel | (revert b; decide +kernel)

theorem witness_EnginePortWindowActs_full (b : Bool) (ea : Word) (h : ea = 0x1002C ∨ ea = 0x10038) :
    ∃ s : State, s = { engAt (engWord 0x2F 1 2 0) { eng with v := eng.v.set 2 ea, pwGo := ⟨3, b⟩, accGo := ⟨3, b⟩ } with params := [(pEngPriv 3, 1)] } ∧
      s.Ready 3 (engWord 0x2F 1 2 0) [1, 2] false ∧ (s.engines[(3 : Fin 128)]).pc.toNat < 0x7FF ∧ s.rd (pEngPriv 3) ≠ 0 ∧
      (s.engines[(3 : Fin 128)]).pwGo.pending = b ∧ (s.engines[(3 : Fin 128)]).accGo.pending = b := by
  unfold State.Ready
  rcases h with rfl | rfl <;> cases b <;> refine ⟨_, rfl, ?_⟩ <;> and_intros <;> decide +kernel

theorem witness_ReferenceAndAnalogueWritesTakeEffect_full :
    (∃ s : State, s = { live with fd := { live.fd with aelkoReady := false } } ∧ s.aelkoFree = false) ∧
    (∀ b : Bool, ∃ s : State, s = { live with power := { live.power with testEnded := b } } ∧ s.mayWrite .spi = false ∧ s.aelkoFree = true ∧ s.power.testEnded = b) ∧
    (∃ s : State, s = liveP [(pRefinCoTickLo 1, 5000)] ∧ 1024 ≤ ((BitVec.ofNat 64 (s.rd (pRefinCoTickHi 1) * 2 ^ 32 + s.rd (pRefinCoTickLo 1)) : DWord) - s.time.tick).toInt) ∧
    (∀ b : Bool, ∃ s : State, s = liveP [(pPfeIExc 0, if b then 2 else 1)] ∧ s.pfeUses s.pfeSelected b = true ∧ s.rd pPfeExcAI ≠ 7 ∧ s.rd pPfeExcBI ≠ 7) ∧
    (∃ s : State, s = { liveP [(pPfeMode, 2)] with pfe := { Pfe.reset with converting := true } } ∧ s.pfe.converting = true ∧ s.pfeWordRuns = true ∧ s.rd pPfeMode ≠ 1) := by
  refine ⟨⟨_, rfl, ?_⟩, fun b => ⟨_, rfl, ?_⟩, ⟨_, rfl, ?_⟩, fun b => ⟨_, rfl, ?_⟩, ⟨_, rfl, ?_⟩⟩ <;> and_intros <;> first | decide +kernel | (revert b; decide +kernel)

end Sys2Proof.Tests
end

section
/-! The comparison of tick values (R77): the signed difference written out as in the rule, the model's `BitVec` subtraction read as that
difference at every width, and one lemma per comparison of the model. -/

namespace Sys2Proof.Proofs.TickComparison

open Sys2Proof Sys2Proof.Machine

/-- The signed difference of R77: `d := (a − b) mod 2^w`, less `2^w` where `d ≥ 2^(w − 1)`. -/
def signedDiff (w a b : Nat) : Int :=
  let d : Int := ((a : Int) - (b : Int)) % 2 ^ w
  if 2 ^ (w - 1) ≤ d then d - 2 ^ w else d

/-- R77's two cases are those of the balanced remainder: half of the modulus `2^w` is `2^(w − 1)`. -/
theorem signedDiff_eq_bmod {w : Nat} (hw : 0 < w) (a b : Nat) :
    signedDiff w a b = ((a : Int) - b).bmod (2 ^ w) := by
  obtain ⟨n, rfl⟩ : ∃ n, w = n + 1 := ⟨w - 1, by omega⟩
  have modulus : ((2 ^ (n + 1) : Nat) : Int) = 2 ^ n * 2 := by
    rw [Int.natCast_pow, Int.pow_succ]; rfl
  have half : ((2 : Int) ^ n * 2 + 1) / 2 = 2 ^ n := by omega
  simp only [signedDiff, Int.bmod_def, Nat.add_sub_cancel, modulus, half, Int.pow_succ]
  by_cases late : (2 : Int) ^ n ≤ ((a : Int) - b) % (2 ^ n * 2)
  · rw [if_pos late, if_neg (Int.not_lt.mpr late)]
  · rw [if_neg late, if_pos (Int.not_le.mp late)]

theorem toInt_ofNat_sub_ofNat {w : Nat} (hw : 0 < w) (a b : Nat) :
    (BitVec.ofNat w a - BitVec.ofNat w b).toInt = signedDiff w a b := by
  rw [signedDiff_eq_bmod hw, BitVec.toInt_sub, BitVec.toInt_ofNat', BitVec.toInt_ofNat', Int.bmod_sub_bmod,
    Int.sub_bmod_bmod]

theorem toInt_sub_eq_signedDiff {w : Nat} (hw : 0 < w) (x y : BitVec w) :
    (x - y).toInt = signedDiff w x.toNat y.toNat := by
  simpa using toInt_ofNat_sub_ofNat hw x.toNat y.toNat

theorem before_iff (a b : DWord) : before b a = true ↔ 0 < signedDiff 64 a.toNat b.toNat := by
  rw [before, decide_eq_true_iff, toInt_sub_eq_signedDiff (by decide)]

theorem atOrBefore_iff (a b : DWord) : atOrBefore b a = true ↔ 0 ≤ signedDiff 64 a.toNat b.toNat := by
  rw [atOrBefore, decide_eq_true_iff, toInt_sub_eq_signedDiff (by decide)]

theorem signedDiff_eq_zero_iff {w : Nat} (hw : 0 < w) (x y : BitVec w) :
    signedDiff w x.toNat y.toNat = 0 ↔ x = y := by
  rw [← toInt_sub_eq_signedDiff hw, ← BitVec.toInt_zero (w := w), BitVec.toInt_inj, BitVec.sub_eq_iff_eq_add,
    BitVec.zero_add]

theorem before32_iff (a b : Nat) : before32 b a = true ↔ 0 < signedDiff 32 a b := by
  rw [before32, decide_eq_true_iff, toInt_ofNat_sub_ofNat (by decide)]

theorem toNat_shortTick (t : DWord) : (shortTick t).toNat = t.toNat % 2 ^ 30 :=
  BitVec.toNat_setWidth 30 t

theorem reached_iff (s : State) (t : BitVec 30) (lag : Fin 9) :
    s.reached t lag = true ↔
      signedDiff 30 t.toNat ((s.time.tick - BitVec.ofNat 64 lag.val).toNat % 2 ^ 30) ≤ 0 := by
  rw [State.reached, decide_eq_true_iff, toInt_sub_eq_signedDiff (by decide), toNat_shortTick, State.now]

/-- Settles O4: each comparison of the model reads a `BitVec` difference as an integer, which is R77's signed difference. -/
theorem tickComparisonsUseSignedDifference : Obligations.TickComparisonsUseSignedDifference :=
  ⟨fun a b => ⟨before_iff a b, atOrBefore_iff a b⟩, signedDiff_eq_zero_iff (by decide), before32_iff, reached_iff⟩

end Sys2Proof.Proofs.TickComparison
end

section
/-! The port window of an engine (R104, R106, R108, R109, R138, Table 5.4): the fields of a load's or store's word, the state in which the access acts,
the access as one read or write of the window, and from these what each register gives and takes. -/

namespace Sys2Proof.Proofs.PortWindow

open Sys2Proof Sys2Proof.Machine

/-! ### The words LDT and STT (Table 6.1) -/

section Words

variable {op : Nat} {d a : Fin 16}

theorem engWord_toNat (hop : op < 64) (imm : BitVec 18) :
    (engWord op d a imm.toNat).toNat = op * 2 ^ 26 + d.val * 2 ^ 22 + a.val * 2 ^ 18 + imm.toNat := by
  rw [engWord, BitVec.toNat_ofNat, Nat.mod_eq_of_lt imm.isLt, Nat.mod_eq_of_lt (by omega)]

theorem engWord_opcode (hop : op < 64) (imm : BitVec 18) : (engWord op d a imm.toNat).toNat / 2 ^ 26 = op := by
  rw [engWord_toNat hop]
  omega

theorem wordReg_engWord_d (hop : op < 64) (imm : BitVec 18) : wordReg (engWord op d a imm.toNat) 22 = d := by
  apply Fin.ext
  simp only [wordReg, engWord_toNat hop]
  omega

theorem wordReg_engWord_a (hop : op < 64) (imm : BitVec 18) : wordReg (engWord op d a imm.toNat) 18 = a := by
  apply Fin.ext
  simp only [wordReg, engWord_toNat hop]
  omega

theorem ofNat_engWord_imm (hop : op < 64) (imm : BitVec 18) : BitVec.ofNat 18 (engWord op d a imm.toNat).toNat = imm := by
  apply BitVec.eq_of_toNat_eq
  rw [BitVec.toNat_ofNat, engWord_toNat hop]
  omega

theorem legalWord_ldt (imm : BitVec 18) : legalWord (engWord 0x2E d a imm.toNat) = true := by
  simp only [legalWord, engWord_opcode (op := 0x2E) (by decide)]
  rfl

theorem legalWord_stt (imm : BitVec 18) : legalWord (engWord 0x2F d a imm.toNat) = true := by
  simp only [legalWord, engWord_opcode (op := 0x2F) (by decide)]
  rfl

theorem wordReads_ldt (imm : BitVec 18) : wordReads (engWord 0x2E d a imm.toNat) = [a] := by
  simp only [wordReads, engWord_opcode (op := 0x2E) (by decide), wordReg_engWord_a (op := 0x2E) (by decide)]
  rfl

theorem wordReads_stt (imm : BitVec 18) : wordReads (engWord 0x2F d a imm.toNat) = [d, a] := by
  simp only [wordReads, engWord_opcode (op := 0x2F) (by decide), wordReg_engWord_a (op := 0x2F) (by decide),
    wordReg_engWord_d (op := 0x2F) (by decide)]
  rfl

end Words

/-! ### The state in which an access acts -/

/-- The engine after an instruction in sequence that took `n` cycles. -/
def after (s : State) (e : Fin 128) (n : Nat) : Engine :=
  (s.engines[e]).advanced s.therm.cycles n 0 ((s.engines[e]).pc + 1)

/-- The state in which an instruction in sequence has its effect: its `n` cycles are counted and the PC has moved on. -/
def atEffect (s : State) (e : Fin 128) (n : Nat) : State := (s.engCycles e n).setEng e (after s e n)

section AtEffect

variable {s : State} {e : Fin 128} {n : Nat}

theorem engine_setEng (s : State) (e : Fin 128) (x : Engine) : (s.setEng e x).engines[e] = x := State.setEng_same ..

theorem engine_atEffect : (atEffect s e n).engines[e] = after s e n := engine_setEng ..

theorem setEng_setEng (s : State) (e : Fin 128) (x y : Engine) : (s.setEng e x).setEng e y = s.setEng e y := by
  simp only [State.setEng, vput, Vector.set_set]

/-- Whatever the effect leaves the engine as, the instruction has executed so. -/
theorem executed_setEng (hp : s.ParamsWf) (x : Engine) : s.Executed ((atEffect s e n).setEng e x) e n x := by
  have h : (atEffect s e n).setEng e x = (s.engCycles e n).modEng e (fun _ => x) := setEng_setEng ..
  rw [h]
  exact State.executed_modEng hp n _

theorem executed_atEffect (hp : s.ParamsWf) : s.Executed (atEffect s e n) e n (after s e n) := by
  have h := executed_setEng (e := e) (n := n) hp (after s e n)
  rwa [atEffect, setEng_setEng] at h

theorem rd_atEffect {b : Nat} (hp : s.ParamsWf) (hb : b ≠ pEngMaxCycles e.val) : (atEffect s e n).rd b = s.rd b := by
  obtain ⟨-, -, -, other, -⟩ := executed_atEffect (e := e) (n := n) hp
  exact other b hb

end AtEffect

/-! ### An access that is ready -/

/-- An aligned address of the port window (R104). -/
abbrev InWindow (ea : Nat) : Prop := 0x10000 ≤ ea ∧ ea < 0x10100 ∧ ea % 4 = 0

/-- The access at address `ea` of engine `e`, whose word is `w`, executes in this cycle: its word is ready, `ea` is an aligned address of the port window, and
the next address lies in instruction memory. -/
structure Accesses (s : State) (e : Fin 128) (w : Word) (reads : List (Fin 16)) (ea : Nat) : Prop where
  ready : s.Ready e w reads false
  loadUse : (s.engines[e]).loadUse = (s.engines[e]).waits reads false
  address : (s.engines[e]).wordEa = ea
  window : InWindow ea
  pc : (s.engines[e]).pc.toNat < 0x7FF

section Accesses

variable {s : State} {e : Fin 128} {d a : Fin 16} {imm : BitVec 18} {w : Word} {reads : List (Fin 16)} {ea : Nat}

theorem word_of_ready (h : s.Ready e w reads false) : (s.engines[e]).word = w := by
  obtain ⟨-, -, hw, -⟩ := h
  exact hw

/-- The effective address is read off the word at the PC (R137). -/
theorem wordEa_eq_ea {op : Nat} (hop : op < 64) (hw : (s.engines[e]).word = engWord op d a imm.toNat) :
    (s.engines[e]).wordEa = s.ea e a imm := by
  simp only [Engine.wordEa, hw, wordReg_engWord_a hop, ofNat_engWord_imm hop, sx18, State.ea]

theorem accesses_of_word {op : Nat} (hop : op < 64) (noHit : (op == 0x1A) = false) (legal : legalWord (engWord op d a imm.toNat) = true)
    (hreads : wordReads (engWord op d a imm.toNat) = reads) (h : s.Ready e (engWord op d a imm.toNat) reads false)
    (pc : (s.engines[e]).pc.toNat < 0x7FF) (hea : s.ea e a imm = ea) (window : InWindow ea) :
    Accesses s e (engWord op d a imm.toNat) reads ea := by
  have hw := word_of_ready h
  refine ⟨h, ?_, (wordEa_eq_ea hop hw).trans hea, window, pc⟩
  rw [Engine.loadUse_eq (hw ▸ legal), hw, hreads, engWord_opcode hop, noHit]

theorem accesses_ldt (h : s.Ready e (engWord 0x2E d a imm.toNat) [a] false) (pc : (s.engines[e]).pc.toNat < 0x7FF)
    (hea : s.ea e a imm = ea) (window : InWindow ea) : Accesses s e (engWord 0x2E d a imm.toNat) [a] ea :=
  accesses_of_word (by decide) rfl (legalWord_ldt imm) (wordReads_ldt imm) h pc hea window

theorem accesses_stt (h : s.Ready e (engWord 0x2F d a imm.toNat) [d, a] false) (pc : (s.engines[e]).pc.toNat < 0x7FF)
    (hea : s.ea e a imm = ea) (window : InWindow ea) : Accesses s e (engWord 0x2F d a imm.toNat) [d, a] ea :=
  accesses_of_word (by decide) rfl (legalWord_stt imm) (wordReads_stt imm) h pc hea window

/-- The address that LDT and STT compute is that of the access. -/
theorem Accesses.operands {op : Nat} (hop : op < 64) (h : Accesses s e (engWord op d a imm.toNat) reads ea) :
    ((s.engines[e]).get a + sx18 imm).toNat = ea :=
  (wordEa_eq_ea hop (word_of_ready h.ready)).symm.trans h.address

theorem Accesses.inPort (h : Accesses s e w reads ea) : inPort ea = true := by
  obtain ⟨lower, upper, -⟩ := h.window
  exact decide_eq_true ⟨lower, upper⟩

/-- Port-window accesses never contend (R105). -/
theorem Accesses.presents (h : Accesses s e w reads ea) : s.presents e = false := by
  obtain ⟨lower, -, -⟩ := h.window
  have hea : decide ((s.engines[e]).wordEa < 0x10000) = false := decide_eq_false (by rw [h.address]; omega)
  simp only [State.presents, hea, Bool.and_false, Bool.false_and]

theorem Accesses.stalls (h : Accesses s e w reads ea) : s.stalls e = false := by
  simp only [State.stalls, h.presents, Bool.false_and]

/-- Only the submission of an engine without privilege traps (R106, R138). -/
theorem Accesses.tableTrap (h : Accesses s e w reads ea) (rs ws : Bool) :
    s.tableTrap e ea 4 rs ws = if ws ∧ (ea = 0x1002C ∨ ea = 0x10038) ∧ s.rd (pEngPriv e.val) = 0 then some (.inl 5) else none := by
  obtain ⟨lower, -, aligned⟩ := h.window
  have outside : ¬(ea < 0x10000) := Nat.not_lt.mpr lower
  simp only [State.tableTrap, h.inPort, aligned, outside, and_self, not_true, and_false, false_and, ne_eq, or_self, if_false]

/-- An access to the window wins and holds no bank: it goes as an instruction without one does (R105). -/
theorem Accesses.engTable (h : Accesses s e w reads ea) (own : Option (Nat ⊕ (Nat × Nat))) (cycles : Nat) (effect : State → State) :
    s.engTable e w ea own cycles false effect = s.engGo e w own (s.seq e) effect := by
  simp only [State.engTable, State.atWord_of_ready h.ready h.loadUse, h.stalls, h.inPort, h.presents, Bool.not_true,
    Bool.false_eq_true, ne_eq, not_true, or_self, if_false, if_true, false_and]

/-- Its cycles counted and the PC moved on, the access has its effect (R101). -/
theorem Accesses.engGo (h : Accesses s e w reads ea) (effect : State → State) :
    s.engGo e w none (s.seq e) effect = effect (atEffect s e (1 + (s.engines[e]).waits reads false)) := by
  have hpc := h.pc
  obtain ⟨-, -, -, owed, -⟩ := h.ready
  have hready : Nat.max ((s.engines[e]).ready + (1 + (s.engines[e]).waits reads false)) (s.therm.cycles + 1) = s.therm.cycles + 1 + 0 :=
    Nat.max_eq_right (by omega)
  have htarget : BitVec.ofInt 11 (s.seq e) = (s.engines[e]).pc + 1 := by
    simp [State.seq, BitVec.ofInt_add]
  rw [State.engGo_ready h.ready h.loadUse (by unfold State.seq; omega) (by unfold State.seq; omega), State.modEng, htarget]
  simp only [Fin.getElem_fin, State.engCycles_same] at hready ⊢
  rw [hready]
  rfl

end Accesses

/-! ### Loads from the port window -/

section Loads

variable {s : State} {e : Fin 128} {d a : Fin 16} {imm : BitVec 18} {ea : Nat}

theorem put_eq_vWith (x : Engine) (d : Fin 16) (r : Word) : x.put d r = { x with v := x.vWith d r } := by
  unfold Engine.put Engine.vWith
  split <;> rfl

theorem exec_ldt_eq : exec (.ldt e d a imm false) s = .next (s.engTableLoad e (engWord 0x2E d a imm.toNat) d a imm 4 false) := rfl

/-- A load from the port window is one read of the window, whose value goes to register `d`. -/
theorem exec_ldt (h : Accesses s e (engWord 0x2E d a imm.toNat) [a] ea) :
    exec (.ldt e d a imm false) s =
      let r := (atEffect s e (1 + (s.engines[e]).waits [a] false)).portRead e ea
      .next (r.2.modEng e (fun y => { y with v := y.vWith d (BitVec.ofNat 32 r.1), loaded := .reg d })) := by
  have own := h.tableTrap true false
  rw [if_neg (by simp)] at own
  simp only [exec_ldt_eq, State.engTableLoad, h.operands (by decide), own, h.engTable, h.engGo, h.inPort, if_true, put_eq_vWith]

/-- LDT completes with `value` in register `d`, and all else of the engine as the instruction after `x'` leaves it. -/
def Reads (s : State) (e : Fin 128) (d a : Fin 16) (imm : BitVec 18) (value : Nat) (x' : Engine) : Prop :=
  let n := 1 + (s.engines[e]).waits [a] false
  ∃ t : State, exec (.ldt e d a imm false) s = .next t ∧
    s.Executed t e n { x'.advanced s.therm.cycles n 0 ((s.engines[e]).pc + 1) with
      v := (s.engines[e]).vWith d (BitVec.ofNat 32 value), loaded := .reg d }

/-- A read of the window that gives `value` and leaves the engine's registers as in `x'` makes the load. -/
theorem reads_of_portRead (hp : s.ParamsWf) (h : Accesses s e (engWord 0x2E d a imm.toNat) [a] ea) {value : Nat} {x' : Engine}
    (hv : x'.v = (s.engines[e]).v)
    {n : Nat} (hn : 1 + (s.engines[e]).waits [a] false = n)
    (hread : (atEffect s e n).portRead e ea =
      (value, (atEffect s e n).setEng e (x'.advanced s.therm.cycles n 0 ((s.engines[e]).pc + 1)))) :
    Reads s e d a imm value x' := by
  subst hn
  refine ⟨_, exec_ldt h, ?_⟩
  have hvWith : x'.vWith d (BitVec.ofNat 32 value) = (s.engines[e]).vWith d (BitVec.ofNat 32 value) := by
    simp only [Engine.vWith, hv]
  simp only [hread, State.modEng, engine_setEng, setEng_setEng, ← hvWith]
  exact executed_setEng hp _

/-- A read of the window without an effect leaves the engine's other registers as they are. -/
theorem reads_of_portRead_pure (hp : s.ParamsWf) (h : Accesses s e (engWord 0x2E d a imm.toNat) [a] ea) {value : Nat}
    {n : Nat} (hn : 1 + (s.engines[e]).waits [a] false = n) (hread : (atEffect s e n).portRead e ea = (value, atEffect s e n)) :
    Reads s e d a imm value s.engines[e] :=
  reads_of_portRead hp h rfl hn (hread.trans (by rw [atEffect, setEng_setEng, after]))

/-- A register of the window that shows what `shown` reads off the engine. -/
theorem reads_of_shown (hp : s.ParamsWf) (h : Accesses s e (engWord 0x2E d a imm.toNat) [a] ea) (shown : Engine → Nat)
    (hread : ∀ u : State, u.portRead e ea = (shown u.engines[e], u)) :
    Reads s e d a imm (shown (after s e (1 + (s.engines[e]).waits [a] false))) s.engines[e] :=
  reads_of_portRead_pure hp h rfl (by rw [hread, engine_atEffect])

/-- Unassigned registers read 0 (Table 5.4). -/
theorem portRead_unassigned (u : State) (h : (0x10014 ≤ ea ∧ ea < 0x10020) ∨ (0x1003C ≤ ea ∧ ea < 0x10100)) :
    u.portRead e ea = (0, u) := by
  unfold State.portRead
  split
  case h_13 => rfl
  all_goals omega

theorem reads_unassigned (hp : s.ParamsWf) (h : Accesses s e (engWord 0x2E d a imm.toNat) [a] ea)
    (hea : (0x10014 ≤ ea ∧ ea < 0x10020) ∨ (0x1003C ≤ ea ∧ ea < 0x10100)) : Reads s e d a imm 0 s.engines[e] :=
  reads_of_portRead_pure hp h rfl (portRead_unassigned _ hea)

theorem reads_id (hp : s.ParamsWf) (h : Accesses s e (engWord 0x2E d a imm.toNat) [a] 0x10000) :
    Reads s e d a imm (e.val + 2 ^ 16 * s.rd pDevNumber) s.engines[e] := by
  refine reads_of_portRead_pure hp h rfl ?_
  have distinct : pDevNumber ≠ pEngMaxCycles e.val := by
    unfold pDevNumber pEngMaxCycles pAddr
    omega
  rw [← rd_atEffect (n := 1 + (s.engines[e]).waits [a] false) hp distinct]
  rfl

/-- The words of the queue that entered 2 engine cycles ago are visible (R113). -/
theorem reads_queue (hp : s.ParamsWf) (h : Accesses s e (engWord 0x2E d a imm.toNat) [a] 0x10008) :
    Reads s e d a imm ((s.engines[e]).queue.countP (fun q => decide (q.entered + 4 ≤ s.time.clock))) s.engines[e] := by
  refine reads_of_portRead_pure hp h rfl ?_
  have visible (n : Nat) : (atEffect s e n).visible e = (s.engines[e]).queue.filter (fun q => decide (q.entered + 4 ≤ s.time.clock)) := by
    rw [State.visible, engine_atEffect]
    rfl
  rw [List.countP_eq_length_filter, ← visible]
  rfl

/-- Reading DROPPED clears it and flag D (Tables 5.3, 5.4). -/
theorem reads_dropped (hp : s.ParamsWf) (h : Accesses s e (engWord 0x2E d a imm.toNat) [a] 0x1000C) :
    Reads s e d a imm (s.engines[e]).dropped { (s.engines[e]) with dropped := 0, flags := (s.engines[e]).flags &&& 0x5F#7 } := by
  refine reads_of_portRead hp h rfl rfl ?_
  have read (u : State) : u.portRead e 0x1000C = ((u.engines[e]).dropped, u.setEng e { (u.engines[e]).setFlag 5 false with dropped := 0 }) := rfl
  rw [read, engine_atEffect]
  rfl

/-- NOW reads the short tick, by a free lag of at most 8 ticks (R138). -/
theorem reads_now (hp : s.ParamsWf) (h : Accesses s e (engWord 0x2E d a imm.toNat) [a] 0x10004) :
    let x := s.engines[e]
    let n := 1 + x.waits [a] false
    ∃ (t : State) (lag : Nat), lag ≤ 8 ∧ exec (.ldt e d a imm false) s = .next t ∧
      s.Executed { t with free := s.free } e n { x.advanced s.therm.cycles n 0 (x.pc + 1) with
        v := x.vWith d (((s.time.tick - BitVec.ofNat 64 lag).setWidth 30).setWidth 32), loaded := .reg d } := by
  refine ⟨_, (Config.freeWord s.free).toNat % 9, Nat.le_of_lt_succ (Nat.mod_lt _ (by decide)), exec_ldt h, ?_⟩
  have read (u : State) : u.portRead e 0x10004 =
      ((shortTick (u.now - BitVec.ofNat 64 ((Config.freeWord u.free).toNat % 9))).toNat, u.tickFree) := rfl
  simp only [read, BitVec.ofNat_toNat, State.modEng, State.tickFree_engines, engine_atEffect]
  exact executed_setEng hp _

end Loads

/-! ### Stores to the port window -/

section Stores

variable {s : State} {e : Fin 128} {d a : Fin 16} {imm : BitVec 18} {ea : Nat}

theorem exec_stt_eq : exec (.stt e d a imm false) s = .next (s.engTableStore e (engWord 0x2F d a imm.toNat) d a imm 4 false) := rfl

/-- A store to the port window is one write of the window, unless an engine without privilege submits with it. -/
theorem exec_stt (h : Accesses s e (engWord 0x2F d a imm.toNat) [d, a] ea)
    (priv : ¬((ea = 0x1002C ∨ ea = 0x10038) ∧ s.rd (pEngPriv e.val) = 0)) :
    exec (.stt e d a imm false) s =
      .next ((atEffect s e (1 + (s.engines[e]).waits [d, a] false)).portWrite e ea ((s.engines[e]).get d)) := by
  have own := h.tableTrap (decide (4 < 4)) true
  rw [if_neg (fun hpriv => priv hpriv.2)] at own
  simp only [exec_stt_eq, State.engTableStore, h.operands (by decide), own, h.engTable, h.engGo, h.inPort, if_true]

/-- A submission without privilege traps with PRIV (R106). -/
theorem exec_stt_priv (h : Accesses s e (engWord 0x2F d a imm.toNat) [d, a] ea)
    (go : ea = 0x1002C ∨ ea = 0x10038) (priv : s.rd (pEngPriv e.val) = 0) :
    exec (.stt e d a imm false) s = .next (s.engTrap e 5) := by
  have own := h.tableTrap (decide (4 < 4)) true
  rw [if_pos ⟨rfl, go, priv⟩] at own
  simp only [exec_stt_eq, State.engTableStore, h.operands (by decide), own, h.engTable, State.engGo_own h.ready h.loadUse]

/-- STT completes and leaves the engine as `x'`. -/
def Writes (s : State) (e : Fin 128) (d a : Fin 16) (imm : BitVec 18) (x' : Engine) : Prop :=
  ∃ t : State, exec (.stt e d a imm false) s = .next t ∧ s.Executed t e (1 + (s.engines[e]).waits [d, a] false) x'

/-- A register of the window that takes what `take` makes of the engine and the stored word. -/
theorem writes_of_taken (hp : s.ParamsWf) (h : Accesses s e (engWord 0x2F d a imm.toNat) [d, a] ea)
    (go : ¬(ea = 0x1002C ∨ ea = 0x10038)) (take : Engine → Word → Engine)
    (hwrite : ∀ (u : State) (w : Word), u.portWrite e ea w = u.setEng e (take u.engines[e] w)) :
    Writes s e d a imm (take (after s e (1 + (s.engines[e]).waits [d, a] false)) ((s.engines[e]).get d)) := by
  refine ⟨_, exec_stt h (fun hgo => go hgo.1), ?_⟩
  rw [hwrite, engine_atEffect]
  exact executed_setEng hp _

/-- Read-only and unassigned registers discard a write (Table 5.4). -/
theorem portWrite_discarded (u : State) (w : Word) (h : ea < 0x10020 ∨ 0x1003C ≤ ea) : u.portWrite e ea w = u := by
  unfold State.portWrite
  split
  case h_8 => rfl
  all_goals omega

theorem writes_discarded (hp : s.ParamsWf) (h : Accesses s e (engWord 0x2F d a imm.toNat) [d, a] ea) (hea : ea < 0x10020 ∨ 0x1003C ≤ ea) :
    Writes s e d a imm (after s e (1 + (s.engines[e]).waits [d, a] false)) := by
  refine ⟨_, exec_stt h (by omega), ?_⟩
  rw [portWrite_discarded _ _ hea]
  exact executed_atEffect hp

/-- ACC_START and ACC_LAUNCH keep the 30 bits of a short tick (Table 5.4). -/
theorem and_shortTick_mask (w : Word) : w &&& 0x3FFFFFFF#32 = BitVec.ofNat 32 (w.toNat % 2 ^ 30) := by
  apply BitVec.eq_of_toNat_eq
  rw [BitVec.toNat_and, BitVec.toNat_ofNat (w.toNat % 2 ^ 30), Nat.mod_eq_of_lt (by omega : w.toNat % 2 ^ 30 < 2 ^ 32)]
  exact Nat.and_two_pow_sub_one_eq_mod w.toNat 30

/-! ### Submissions -/

/-- A submission that is discarded: ENG.CNT_PORT_REFUSED increments, and nothing else changes but for the engine's cycle (R109). -/
theorem bump_portRefused (hp : s.ParamsWf) (n : Nat) :
    let t := (atEffect s e n).bump (pEngCntPortRefused e.val)
    t.engines[e] = after s e n ∧ (∀ f : Fin 128, f ≠ e → t.engines[f] = s.engines[f]) ∧
    { t with engines := s.engines, params := s.params, fresh := s.fresh } = s ∧
    t.rd (pEngCntPortRefused e.val) = Nat.min (s.rd (pEngCntPortRefused e.val) + 1) 0xFFFFFFFF := by
  obtain ⟨same, other, -, -, -⟩ := executed_atEffect (e := e) (n := n) hp
  refine ⟨same, other, rfl, ?_⟩
  have distinct : pEngCntPortRefused e.val ≠ pEngMaxCycles e.val := by
    unfold pEngCntPortRefused pEngMaxCycles pAddr
    omega
  have wf : (atEffect s e n).ParamsWf := State.engCycles_wf hp
  rw [State.rd_bump_same wf, rd_atEffect hp distinct]

theorem submitWrite_refused {n : Nat} (pending : (s.engines[e]).pwGo.pending = true) :
    (atEffect s e n).submitWrite e = (atEffect s e n).bump (pEngCntPortRefused e.val) :=
  if_pos (by rw [engine_atEffect]; exact pending)

theorem submitAccept_refused {n : Nat} (pending : (s.engines[e]).accGo.pending = true) :
    (atEffect s e n).submitAccept e = (atEffect s e n).bump (pEngCntPortRefused e.val) :=
  if_pos (by rw [engine_atEffect]; exact pending)

/-- A write that is submitted waits in the window, and Aelko is woken (R108; log entry 78). -/
theorem submitWrite_taken {n : Nat} (free : (s.engines[e]).pwGo.pending = false) :
    let x := s.engines[e]
    let t := (atEffect s e n).setEng e { after s e n with pwGo := ⟨x.pwGo.status, true⟩ }
    (atEffect s e n).submitWrite e =
      ({ t with keeper := { s.keeper with window := s.keeper.window ++ [⟨e, x.pwAddr, x.pwValue⟩] } } : State).raiseSignal s.aelkoIsland := by
  have notPending : ¬(after s e n).pwGo.pending = true := by
    rw [show (after s e n).pwGo = (s.engines[e]).pwGo from rfl, free]
    decide
  unfold State.submitWrite
  simp only [engine_atEffect]
  exact if_neg notPending

/-- An accept that is submitted is received from the engine (R107). -/
theorem submitAccept_taken {n : Nat} (free : (s.engines[e]).accGo.pending = false) :
    let x := s.engines[e]
    let t := (atEffect s e n).setEng e { after s e n with accGo := ⟨x.accGo.status, true⟩ }
    (atEffect s e n).submitAccept e =
      t.receiveAccept ⟨0, s.extend30 (x.accStart.setWidth 30), x.accLength, s.extend30 (x.accLaunch.setWidth 30)⟩ (some e) 0 := by
  have notPending : ¬(after s e n).accGo.pending = true := by
    rw [show (after s e n).accGo = (s.engines[e]).accGo from rfl, free]
    decide
  unfold State.submitAccept
  simp only [engine_atEffect]
  exact if_neg notPending

end Stores

/-- Settles O12: a port-window access never contends and never traps but for privilege, so each clause is one read or write of the window in the state with
the access's cycles counted. -/
theorem enginePortWindowActs : Obligations.EnginePortWindowActs := by
  refine ⟨?_, ?_⟩
  · intro s e d a imm x ea n reads hinv hready hpc
    have hp : s.ParamsWf := hinv.1
    have acc {k : Nat} (hea : ea = k) (window : InWindow k) : Accesses s e (engWord 0x2E d a imm.toNat) [a] k :=
      accesses_ldt hready hpc hea window
    refine ⟨fun h => reads_id hp (acc h (by decide)), fun h => reads_now hp (acc h (by decide)),
      fun h => reads_queue hp (acc h (by decide)), fun h => reads_dropped hp (acc h (by decide)), ?watchdog,
      ?accStart, ?accLength, ?accLaunch, ?accGo, ?pwAddr, ?pwValue, ?pwGo, ?unassignedLow, ?unassignedHigh⟩
    case watchdog => exact fun h => reads_of_shown hp (acc h (by decide)) (fun y => Nat.min y.watchdog 0xFFFF) (fun _ => rfl)
    case accStart => exact fun h => reads_of_shown hp (acc h (by decide)) (fun y => y.accStart.toNat) (fun _ => rfl)
    case accLength => exact fun h => reads_of_shown hp (acc h (by decide)) (fun y => y.accLength.toNat) (fun _ => rfl)
    case accLaunch => exact fun h => reads_of_shown hp (acc h (by decide)) (fun y => y.accLaunch.toNat) (fun _ => rfl)
    case accGo => exact fun h => reads_of_shown hp (acc h (by decide)) (fun y => y.accGo.value) (fun _ => rfl)
    case pwAddr => exact fun h => reads_of_shown hp (acc h (by decide)) (fun y => y.pwAddr.toNat) (fun _ => rfl)
    case pwValue => exact fun h => reads_of_shown hp (acc h (by decide)) (fun y => y.pwValue.toNat) (fun _ => rfl)
    case pwGo => exact fun h => reads_of_shown hp (acc h (by decide)) (fun y => y.pwGo.value) (fun _ => rfl)
    case unassignedLow =>
      exact fun lo hi aligned => reads_unassigned hp (acc rfl ⟨by omega, by omega, aligned⟩) (.inl ⟨lo, hi⟩)
    case unassignedHigh =>
      exact fun lo hi aligned => reads_unassigned hp (acc rfl ⟨by omega, hi, aligned⟩) (.inr ⟨lo, hi⟩)
  · intro s e d a imm x ea n w x1 writes hinv hready hpc
    have hp : s.ParamsWf := hinv.1
    have acc {k : Nat} (hea : ea = k) (window : InWindow k) : Accesses s e (engWord 0x2F d a imm.toNat) [d, a] k :=
      accesses_stt hready hpc hea window
    have submit {k : Nat} (hea : ea = k) (window : InWindow k) (priv : s.rd (pEngPriv e.val) ≠ 0) :
        exec (.stt e d a imm false) s = .next ((atEffect s e n).portWrite e k w) :=
      exec_stt (acc hea window) (fun hpriv => priv hpriv.2)
    refine ⟨?accStart, ?accLength, ?accLaunch, ?pwAddr, ?pwValue, ?readOnly, ?unassigned, ?pwGo, ?pwGoPending, ?accGo, ?accGoPending, ?priv⟩
    case accStart =>
      exact fun h => and_shortTick_mask w ▸ writes_of_taken hp (acc h (by decide)) (by decide)
        (fun y v => { y with accStart := v &&& 0x3FFFFFFF#32 }) (fun _ _ => rfl)
    case accLength =>
      exact fun h => writes_of_taken hp (acc h (by decide)) (by decide) (fun y v => { y with accLength := v }) (fun _ _ => rfl)
    case accLaunch =>
      exact fun h => and_shortTick_mask w ▸ writes_of_taken hp (acc h (by decide)) (by decide)
        (fun y v => { y with accLaunch := v &&& 0x3FFFFFFF#32 }) (fun _ _ => rfl)
    case pwAddr =>
      exact fun h => writes_of_taken hp (acc h (by decide)) (by decide) (fun y v => { y with pwAddr := v }) (fun _ _ => rfl)
    case pwValue =>
      exact fun h => writes_of_taken hp (acc h (by decide)) (by decide) (fun y v => { y with pwValue := v }) (fun _ _ => rfl)
    case readOnly =>
      exact fun lo hi aligned => writes_discarded hp (acc rfl ⟨lo, by omega, aligned⟩) (.inl hi)
    case unassigned =>
      exact fun lo hi aligned => writes_discarded hp (acc rfl ⟨by omega, hi, aligned⟩) (.inr lo)
    case pwGo =>
      exact fun h priv free => ⟨_, executed_setEng hp _, (submit h (by decide) priv).trans (congrArg _ (submitWrite_taken free))⟩
    case pwGoPending =>
      exact fun h priv pending => ⟨_, (submit h (by decide) priv).trans (congrArg _ (submitWrite_refused pending)), bump_portRefused hp n⟩
    case accGo =>
      exact fun h priv free => ⟨_, executed_setEng hp _, (submit h (by decide) priv).trans (congrArg _ (submitAccept_taken free))⟩
    case accGoPending =>
      exact fun h priv pending => ⟨_, (submit h (by decide) priv).trans (congrArg _ (submitAccept_refused pending)), bump_portRefused hp n⟩
    case priv =>
      intro go priv
      have window : InWindow ea := by omega
      exact ⟨_, exec_stt_priv (acc rfl window) go priv, State.engTrap_trapped s e 5⟩

end Sys2Proof.Proofs.PortWindow
end

section
/-! The arithmetic, logic, shift and field instructions of the engines (R131–R135, R140): the fields of their words, an instruction that writes a register and
FLAGS and goes on in sequence, C and V of sums and differences, and the value of each form. -/

namespace Sys2Proof.Proofs.EngineArithmetic

open Sys2Proof Sys2Proof.Machine
open Sys2Proof.Proofs.PortWindow (engWord_opcode wordReg_engWord_d wordReg_engWord_a engWord_toNat executed_setEng put_eq_vWith)

/-! ### The words of the instructions (Tables 6.1, 6.2) -/

/-- `w` is the word of an instruction that reads the registers `reads` and, with `readsH`, h0 and h1. -/
structure IsInstr (w : Word) (reads : List (Fin 16)) (readsH : Bool) : Prop where
  legal : legalWord w = true
  reads : wordReads w = reads
  readsH : (w.toNat / 2 ^ 26 == 0x1A) = readsH

section Words

variable {op imm : Nat} {d a b : Fin 16}

/-- An immediate given as a number is one given as 18 bits. -/
theorem engWord_ofNat (op : Nat) (d a : Fin 16) (imm : Nat) : engWord op d a (BitVec.ofNat 18 imm).toNat = engWord op d a imm := by
  simp only [engWord, BitVec.toNat_ofNat, Nat.mod_mod]

theorem opcode_engWord (hop : op < 64) : (engWord op d a imm).toNat / 2 ^ 26 = op := by
  rw [← engWord_ofNat, engWord_opcode hop]

theorem dField_engWord (hop : op < 64) : wordReg (engWord op d a imm) 22 = d := by
  rw [← engWord_ofNat, wordReg_engWord_d hop]

theorem aField_engWord (hop : op < 64) : wordReg (engWord op d a imm) 18 = a := by
  rw [← engWord_ofNat, wordReg_engWord_a hop]

theorem toNat_engWord (hop : op < 64) (himm : imm < 2 ^ 18) :
    (engWord op d a imm).toNat = op * 2 ^ 26 + d.val * 2 ^ 22 + a.val * 2 ^ 18 + imm := by
  rw [← engWord_ofNat, engWord_toNat hop, BitVec.toNat_ofNat, Nat.mod_eq_of_lt himm]

theorem immField_engWord (hop : op < 64) (himm : imm < 2 ^ 18) : (engWord op d a imm).toNat % 2 ^ 18 = imm := by
  rw [toNat_engWord hop himm]
  omega

theorem toNat_engWord3 (hop : op < 64) :
    (engWord3 op d a b 0).toNat = op * 2 ^ 26 + d.val * 2 ^ 22 + a.val * 2 ^ 18 + b.val * 2 ^ 14 := by
  rw [engWord3, toNat_engWord hop (by omega)]
  omega

theorem bField_engWord3 (hop : op < 64) : wordReg (engWord3 op d a b 0) 14 = b := by
  apply Fin.ext
  simp only [wordReg, toNat_engWord3 hop]
  omega

/-- Two source registers. -/
theorem isInstr_twoSources (hop : op ≤ 0x06 ∨ (0x08 ≤ op ∧ op ≤ 0x0A) ∨ op = 0x34) : IsInstr (engWord3 op d a b 0) [a, b] false := by
  have hop64 : op < 64 := by omega
  have opcode : (engWord3 op d a b 0).toNat / 2 ^ 26 = op := opcode_engWord hop64
  have reserved : (engWord3 op d a b 0).toNat % 2 ^ 14 = 0 := by
    rw [toNat_engWord3 hop64]
    omega
  refine ⟨?_, ?_, ?_⟩
  · simp only [legalWord, opcode, reserved, if_pos hop, decide_true]
  · simp only [wordReads, opcode, bField_engWord3 hop64]
    rw [if_pos (by omega), engWord3, aField_engWord hop64]
  · rw [opcode, beq_eq_false_iff_ne]
    omega

/-- One source register, in field a. -/
theorem isInstr_oneSource (hop : 0x0C ≤ op ∧ op ≤ 0x18 ∧ op ≠ 0x17) (legal : legalWord (engWord op d a imm) = true) :
    IsInstr (engWord op d a imm) [a] false := by
  have hop64 : op < 64 := by omega
  refine ⟨legal, ?_, ?_⟩
  · simp only [wordReads, opcode_engWord hop64, aField_engWord hop64]
    rw [if_neg (by omega), if_neg (by omega), if_pos (by omega)]
  · rw [opcode_engWord hop64, beq_eq_false_iff_ne]
    omega

theorem isInstr_count (hop : op = 0x0C ∨ op = 0x0D) : IsInstr (engWord op d a 0) [a] false := by
  refine isInstr_oneSource (by omega) ?_
  simp only [legalWord, opcode_engWord (by omega : op < 64), immField_engWord (by omega : op < 64) (by decide : 0 < 2 ^ 18)]
  rw [if_neg (by omega), if_pos hop, decide_true]

theorem isInstr_immediate (hop : 0x10 ≤ op ∧ op ≤ 0x13) : IsInstr (engWord op d a imm) [a] false := by
  refine isInstr_oneSource (by omega) ?_
  simp only [legalWord, opcode_engWord (by omega : op < 64)]
  rw [if_neg (by omega), if_neg (by omega), if_pos (.inl hop)]

theorem isInstr_shift (hop : 0x14 ≤ op ∧ op ≤ 0x16) (k : BitVec 5) : IsInstr (engWord op d a k.toNat) [a] false := by
  refine isInstr_oneSource (by omega) ?_
  simp only [legalWord, opcode_engWord (by omega : op < 64), immField_engWord (by omega : op < 64) (by omega : k.toNat < 2 ^ 18)]
  rw [if_neg (by omega), if_neg (by omega), if_neg (by omega), if_pos hop]
  exact decide_eq_true k.isLt

theorem isInstr_lui (imm : BitVec 18) : IsInstr (engWord 0x17 d 0 imm.toNat) [] false := by
  have opcode : (engWord 0x17 d 0 imm.toNat).toNat / 2 ^ 26 = 0x17 := opcode_engWord (by decide)
  have reserved : (engWord 0x17 d 0 imm.toNat).toNat / 2 ^ 18 % 16 = 0 := by
    rw [toNat_engWord (by decide) imm.isLt]
    omega
  refine ⟨?_, ?_, ?_⟩
  · simp only [legalWord, opcode, reserved]
    rfl
  · simp only [wordReads, opcode]
    rfl
  · rw [opcode]
    rfl

/-- The immediate of a field form holds the position and the width less 1 (R135). -/
theorem legalWord_field (hop : op = 0x18 ∨ op = 0x19) (pos width1 : BitVec 5) :
    legalWord (engWord op d a (pos.toNat + 32 * width1.toNat)) = true := by
  have fits : pos.toNat + 32 * width1.toNat < 1024 := by omega
  simp only [legalWord, opcode_engWord (by omega : op < 64), immField_engWord (by omega : op < 64) (by omega : pos.toNat + 32 * width1.toNat < 2 ^ 18)]
  rw [if_neg (by omega), if_neg (by omega), if_neg (by omega), if_neg (by omega), if_neg (by omega), if_pos hop]
  exact decide_eq_true fits

theorem isInstr_ext (pos width1 : BitVec 5) : IsInstr (engWord 0x18 d a (pos.toNat + 32 * width1.toNat)) [a] false :=
  isInstr_oneSource (by decide) (legalWord_field (.inl rfl) pos width1)

/-- INS reads its destination too (R135). -/
theorem isInstr_ins (pos width1 : BitVec 5) : IsInstr (engWord 0x19 d a (pos.toNat + 32 * width1.toNat)) [d, a] false := by
  have opcode : (engWord 0x19 d a (pos.toNat + 32 * width1.toNat)).toNat / 2 ^ 26 = 0x19 := opcode_engWord (by decide)
  refine ⟨legalWord_field (.inr rfl) pos width1, ?_, ?_⟩
  · simp only [wordReads, opcode, dField_engWord (by decide : 0x19 < 64), aField_engWord (by decide : 0x19 < 64)]
    rfl
  · rw [opcode]
    rfl

/-- EXTH reads h0 and h1 and no general register. -/
theorem isInstr_exth (high : Bool) (pos width1 : BitVec 5) :
    IsInstr (engWord 0x1A d (if high then 1 else 0) (pos.toNat + 32 * width1.toNat)) [] true := by
  generalize hw : engWord 0x1A d (if high then 1 else 0) (pos.toNat + 32 * width1.toNat) = w
  have opcode : w.toNat / 2 ^ 26 = 0x1A := hw ▸ opcode_engWord (by decide)
  have fits : w.toNat % 2 ^ 18 < 1024 := by
    rw [← hw, immField_engWord (by decide) (by omega)]
    omega
  have half : w.toNat / 2 ^ 18 % 16 ≤ 1 := by
    rw [← hw, toNat_engWord (by decide) (by omega)]
    have field : ((if high then 1 else 0 : Fin 16)).val ≤ 1 := by cases high <;> decide
    omega
  refine ⟨?_, ?_, ?_⟩
  · simp only [legalWord, opcode, fits, half]
    rfl
  · simp only [wordReads, opcode]
    rfl
  · rw [opcode]
    rfl

end Words

/-! ### An instruction that goes on in sequence (R101, R136) -/

section Sequence

variable {s : State} {e : Fin 128} {w : Word} {reads : List (Fin 16)} {readsH : Bool}

theorem loadUse_of_isInstr (hw : IsInstr w reads readsH) (h : s.Ready e w reads readsH) :
    (s.engines[e]).loadUse = (s.engines[e]).waits reads readsH := by
  obtain ⟨-, -, atPc, -⟩ := h
  rw [Engine.loadUse_eq (atPc ▸ hw.legal), atPc, hw.reads, hw.readsH]

/-- Away from the last address the instruction has its effect, with its cycles counted and the PC moved on. -/
theorem engAlu_of_ready (hw : IsInstr w reads readsH) (h : s.Ready e w reads readsH) (hpc : (s.engines[e]).pc.toNat < 0x7FF)
    (f : Engine → Engine) :
    s.engAlu e w f = (PortWindow.atEffect s e (1 + (s.engines[e]).waits reads readsH)).modEng e f := by
  obtain ⟨lower, upper⟩ : 0 ≤ s.seq e ∧ s.seq e ≤ 0x7FF := by
    unfold State.seq
    omega
  have next : BitVec.ofInt 11 (s.seq e) = (s.engines[e]).pc + 1 := by
    simp [State.seq, BitVec.ofInt_add]
  have ⟨_, _, _, owed, _⟩ := h
  have ready : Nat.max ((s.engines[e]).ready + (1 + (s.engines[e]).waits reads readsH)) (s.therm.cycles + 1) = s.therm.cycles + 1 + 0 :=
    Nat.max_eq_right (by omega)
  rw [State.engAlu, State.engGo_ready h (loadUse_of_isInstr hw h) lower upper, next]
  congr 1
  simp only [State.modEng, Fin.getElem_fin, State.engCycles_same] at ready ⊢
  rw [ready]
  rfl

/-- At the last address it traps with PC. -/
theorem engAlu_traps (hw : IsInstr w reads readsH) (h : s.Ready e w reads readsH) (hpc : (s.engines[e]).pc.toNat = 0x7FF)
    (f : Engine → Engine) : s.engAlu e w f = s.engTrap e 6 :=
  State.engGo_pc h (loadUse_of_isInstr hw h) (.inr (by unfold State.seq; omega))

/-- An instruction in sequence computes what its effect makes of the registers and FLAGS. -/
theorem computes_of_engAlu {i : Instr} {d : Fin 16} {r : Word} {fl : BitVec 7} {f : Engine → Engine}
    (hw : IsInstr w reads readsH) (hexec : exec i s = .next (s.engAlu e w f))
    (heffect : ∀ n : Nat, f (PortWindow.after s e n) = { PortWindow.after s e n with v := (s.engines[e]).vWith d r, flags := fl }) :
    s.Computes i e w reads readsH d r fl := by
  intro hinv h
  refine ⟨fun hpc => ⟨_, hexec, ?_⟩, fun hpc => ⟨_, hexec, ?_⟩⟩
  · rw [engAlu_of_ready hw h hpc, State.modEng, PortWindow.engine_atEffect, heffect]
    exact executed_setEng hinv.1 _
  · rw [engAlu_traps hw h hpc]
    exact State.engTrap_trapped s e 6

end Sequence

/-! ### FLAGS (R133, R134) -/

/-- Setting Z and N by their numbers is masking them and putting in the new ones. -/
theorem setFlag_z_n (x : Engine) (z n : Bool) :
    (x.setFlag 0 z).setFlag 1 n = { x with flags := (x.flags &&& 0x7C#7) ||| (if z then 1#7 else 0#7) ||| (if n then 2#7 else 0#7) } := by
  simp only [Engine.setFlag]
  congr 1
  generalize x.flags = f
  revert f z n
  decide

/-- The same of C and V. -/
theorem setFlag_c_v (x : Engine) (c v : Bool) : (x.setFlag 2 c).setFlag 3 v = { x with flags := withCV x.flags c v } := by
  simp only [Engine.setFlag, withCV]
  congr 1
  generalize x.flags = f
  revert f c v
  decide

theorem result_eq (x : Engine) (d : Fin 16) (r : Word) : x.result d r = { x with v := x.vWith d r, flags := withZN x.flags r } := by
  simp only [Engine.result, setFlag_z_n, put_eq_vWith, withZN, beq_iff_eq, BitVec.msb_eq_decide, decide_eq_true_eq]

/-- A sum overflows where its operands have one sign and the result has the other. -/
theorem add_overflow (u v : Word) :
    (u.msb == v.msb && (u + v).msb != u.msb) = decide (u.toInt + v.toInt < -2 ^ 31 ∨ 2 ^ 31 ≤ u.toInt + v.toInt) := by
  have h := BitVec.saddOverflow_eq u v
  rw [bne, ← h, BitVec.saddOverflow, Bool.or_comm, Bool.decide_or]

/-- A difference overflows where its operands differ in sign and the result has not the sign of the first. -/
theorem sub_overflow (u v : Word) :
    (u.msb != v.msb && (u - v).msb != u.msb) = decide (u.toInt - v.toInt < -2 ^ 31 ∨ 2 ^ 31 ≤ u.toInt - v.toInt) := by
  have h := BitVec.ssubOverflow_eq u v
  rw [Bool.decide_or, Bool.or_comm]
  refine Eq.trans ?_ h.symm
  cases u.msb <;> cases v.msb <;> cases (u - v).msb <;> rfl

theorem add_eq (x : Engine) (d : Fin 16) (u v : Word) :
    x.add d u v = { x with
      v := x.vWith d (u + v)
      flags := withCV (withZN x.flags (u + v)) (decide (2 ^ 32 ≤ u.toNat + v.toNat))
        (decide (u.toInt + v.toInt < -2 ^ 31 ∨ 2 ^ 31 ≤ u.toInt + v.toInt)) } := by
  simp only [Engine.add, setFlag_c_v, result_eq, add_overflow]

theorem sub_eq (x : Engine) (d : Fin 16) (u v : Word) :
    x.sub d u v = { x with
      v := x.vWith d (u - v)
      flags := withCV (withZN x.flags (u - v)) (decide (v.toNat ≤ u.toNat))
        (decide (u.toInt - v.toInt < -2 ^ 31 ∨ 2 ^ 31 ≤ u.toInt - v.toInt)) } := by
  simp only [Engine.sub, setFlag_c_v, result_eq, sub_overflow]

/-- An instruction whose result is a value of the registers that it finds sets Z and N by it. -/
theorem computes_result {s : State} {e : Fin 128} {w : Word} {reads : List (Fin 16)} {readsH : Bool} {i : Instr} {d : Fin 16} {r : Word}
    (value : Engine → Word) (hw : IsInstr w reads readsH) (hexec : exec i s = .next (s.engAlu e w (fun x => x.result d (value x))))
    (hvalue : ∀ n : Nat, value (PortWindow.after s e n) = r) :
    s.Computes i e w reads readsH d r (withZN (s.engines[e]).flags r) := by
  refine computes_of_engAlu hw hexec (fun n => ?_)
  rw [result_eq, hvalue]
  rfl

/-! ### The values of the forms (R131, R134, R135, R140) -/

theorem signedMin_eq (u v : Word) : (if u.sle v then u else v) = BitVec.ofInt 32 (min u.toInt v.toInt) := by
  simp only [BitVec.sle_iff_toInt_le, Int.min_def]
  split
  · exact BitVec.ofInt_toInt.symm
  · exact BitVec.ofInt_toInt.symm

theorem signedMax_eq (u v : Word) : (if u.sle v then v else u) = BitVec.ofInt 32 (max u.toInt v.toInt) := by
  simp only [BitVec.sle_iff_toInt_le, Int.max_def]
  split
  · exact BitVec.ofInt_toInt.symm
  · exact BitVec.ofInt_toInt.symm

theorem shiftLeft_eq_ofNat (u : Word) (k : Nat) : u <<< k = BitVec.ofNat 32 (u.toNat * 2 ^ k) := by
  apply BitVec.eq_of_toNat_eq
  rw [BitVec.toNat_shiftLeft, BitVec.toNat_ofNat, Nat.shiftLeft_eq]

theorem shiftRight_eq_ofNat (u : Word) (k : Nat) : u >>> k = BitVec.ofNat 32 (u.toNat / 2 ^ k) := by
  rw [← Nat.shiftRight_eq_div_pow, ← BitVec.toNat_ushiftRight, BitVec.ofNat_toNat, BitVec.setWidth_eq]

theorem sshiftRight_eq_ofInt (u : Word) (k : Nat) : u.sshiftRight k = BitVec.ofInt 32 (u.toInt / 2 ^ k) := by
  rw [BitVec.sshiftRight, Int.shiftRight_eq_div_pow]
  norm_cast

theorem zx18_eq (imm : BitVec 18) : zx18 imm = BitVec.ofNat 32 imm.toNat := (BitVec.ofNat_toNat 32 imm).symm

theorem lui_eq (imm : BitVec 18) : zx18 imm <<< 14 = BitVec.ofNat 32 (imm.toNat * 2 ^ 14) := by
  rw [shiftLeft_eq_ofNat, zx18, BitVec.toNat_setWidth_of_le (by decide)]

theorem popCount_eq (u : Word) : popCount u = (List.range 32).countP (fun j => u.getLsbD j) := List.countP_eq_length_filter.symm

/-- Of the numbers below `n`, those from `m` on are `n - m`. -/
theorem countP_le_range (m n : Nat) : (List.range n).countP (fun j => decide (m ≤ j)) = n - m := by
  induction n with
  | zero => rw [List.range_zero, List.countP_nil, Nat.zero_sub]
  | succ n ih =>
    rw [List.range_succ, List.countP_append, ih, List.countP_singleton]
    simp only [decide_eq_true_eq]
    split <;> omega

/-- The leading zero bits are the positions whose power exceeds the value. -/
theorem leadingZeros_eq (u : Word) : leadingZeros u = (List.range 32).countP (fun j => decide (u.toNat < 2 ^ j)) := by
  unfold leadingZeros
  split
  next zero =>
    subst zero
    decide
  next nonzero =>
    have positive : u.toNat ≠ 0 := fun h => nonzero (BitVec.eq_of_toNat_eq h)
    have above (j : Nat) : u.toNat < 2 ^ j ↔ Nat.log2 u.toNat + 1 ≤ j := (Nat.log2_lt positive).symm
    simp only [above, countP_le_range]
    omega

theorem toNat_fieldMask (width1 : BitVec 5) : (fieldMask width1).toNat = 2 ^ (width1.toNat + 1) - 1 := by
  have fits : 2 ^ (width1.toNat + 1) ≤ 2 ^ 32 := Nat.pow_le_pow_right (by decide) (by omega)
  have positive : 0 < 2 ^ (width1.toNat + 1) := Nat.two_pow_pos _
  rw [fieldMask, BitVec.toNat_ofNat, Nat.mod_eq_of_lt (by omega)]

theorem takeField_eq (u : Word) (pos width1 : BitVec 5) :
    takeField u pos width1 = BitVec.ofNat 32 (u.toNat / 2 ^ pos.toNat % 2 ^ (width1.toNat + 1)) := by
  rw [← Nat.and_two_pow_sub_one_eq_mod, ← toNat_fieldMask, ← Nat.shiftRight_eq_div_pow, ← BitVec.toNat_ushiftRight,
    ← BitVec.toNat_and, BitVec.ofNat_toNat, BitVec.setWidth_eq, takeField]

theorem putField_eq (old u : Word) (pos width1 : BitVec 5) :
    let m : Word := BitVec.ofNat 32 ((2 ^ (width1.toNat + 1) - 1) * 2 ^ pos.toNat)
    putField old u pos width1 = (old &&& ~~~m) ||| (BitVec.ofNat 32 (u.toNat * 2 ^ pos.toNat) &&& m) := by
  simp only [putField, shiftLeft_eq_ofNat, toNat_fieldMask]

/-- The difference of two short ticks, of 30 bits, as a signed number (R140). -/
theorem tdiff_eq (u v : Word) :
    (u.setWidth 30 - v.setWidth 30 : BitVec 30).signExtend 32 = BitVec.ofInt 32 (((u.toNat : Int) - v.toNat + 2 ^ 29) % 2 ^ 30 - 2 ^ 29) := by
  rw [BitVec.signExtend, ← BitVec.ofNat_toNat, ← BitVec.ofNat_toNat, TickComparison.toInt_ofNat_sub_ofNat (by decide)]
  congr 1
  simp only [TickComparison.signedDiff]
  split <;> omega

/-! ### The instructions (R131–R135, R140) -/

/-- Settles O10: each row is one engine operation, whose word the engine reads right and whose result and FLAGS are the stated ones. -/
theorem engineArithmeticComputes : Obligations.EngineArithmeticComputes := by
  refine ⟨?twoSources, ?sums, ?oneSource⟩
  case twoSources =>
    intro s e d a b x va vb k zn
    have row {i : Instr} {op : Nat} {r : Word} (hop : op ≤ 0x06 ∨ (0x08 ≤ op ∧ op ≤ 0x0A) ∨ op = 0x34) (f : Word → Word → Word)
        (hexec : exec i s = .next (s.engAlu e (engWord3 op d a b 0) (fun x => x.result d (f (x.get a) (x.get b)))))
        (hr : f va vb = r) : zn i op r :=
      computes_result (fun x => f (x.get a) (x.get b)) (isInstr_twoSources hop) hexec (fun _ => hr)
    exact ⟨row (by decide) (· &&& ·) rfl rfl, row (by decide) (· ||| ·) rfl rfl, row (by decide) (· ^^^ ·) rfl rfl,
      row (by decide) (fun u v => if u.sle v then u else v) rfl (signedMin_eq va vb),
      row (by decide) (fun u v => if u.sle v then v else u) rfl (signedMax_eq va vb),
      row (by decide) (fun u v => u <<< (v.toNat % 32)) rfl (shiftLeft_eq_ofNat va k),
      row (by decide) (fun u v => u >>> (v.toNat % 32)) rfl (shiftRight_eq_ofNat va k),
      row (by decide) (fun u v => u.sshiftRight (v.toNat % 32)) rfl (sshiftRight_eq_ofInt va k),
      row (by decide) (fun u v => (u.setWidth 30 - v.setWidth 30 : BitVec 30).signExtend 32) rfl (tdiff_eq va vb)⟩
  case sums =>
    intro s e d a b imm x va vb vi sum
    exact ⟨computes_of_engAlu (isInstr_twoSources (by decide)) rfl (fun _ => add_eq _ d va vb),
      computes_of_engAlu (isInstr_immediate (by decide)) rfl (fun _ => add_eq _ d va vi),
      computes_of_engAlu (isInstr_twoSources (by decide)) rfl (fun _ => sub_eq _ d va vb)⟩
  case oneSource =>
    intro s e d a imm k pos width1 high x va p w h m zn
    have row {i : Instr} {word : Word} {r : Word} (hw : IsInstr word [a] false) (f : Word → Word)
        (hexec : exec i s = .next (s.engAlu e word (fun x => x.result d (f (x.get a)))))
        (hr : f va = r) : zn i word [a] false r :=
      computes_result (fun x => f (x.get a)) hw hexec (fun _ => hr)
    refine ⟨?popc, ?clz, ?andi, ?orri, ?xori, ?shli, ?shri, ?sari, ?lui, ?ext, ?exth, ?ins⟩
    case popc => exact row (isInstr_count (by decide)) (fun u => BitVec.ofNat 32 (popCount u)) rfl (congrArg _ (popCount_eq va))
    case clz => exact row (isInstr_count (by decide)) (fun u => BitVec.ofNat 32 (leadingZeros u)) rfl (congrArg _ (leadingZeros_eq va))
    case andi => exact row (isInstr_immediate (by decide)) (· &&& zx18 imm) rfl (by rw [zx18_eq])
    case orri => exact row (isInstr_immediate (by decide)) (· ||| zx18 imm) rfl (by rw [zx18_eq])
    case xori => exact row (isInstr_immediate (by decide)) (· ^^^ zx18 imm) rfl (by rw [zx18_eq])
    case shli => exact row (isInstr_shift (by decide) k) (· <<< k.toNat) rfl (shiftLeft_eq_ofNat va _)
    case shri => exact row (isInstr_shift (by decide) k) (· >>> k.toNat) rfl (shiftRight_eq_ofNat va _)
    case sari => exact row (isInstr_shift (by decide) k) (·.sshiftRight k.toNat) rfl (sshiftRight_eq_ofInt va _)
    case lui => exact computes_result (fun _ => zx18 imm <<< 14) (isInstr_lui imm) rfl (fun _ => lui_eq imm)
    case ext => exact row (isInstr_ext pos width1) (takeField · pos width1) rfl (takeField_eq va pos width1)
    case exth =>
      exact computes_result (fun x => takeField (if high then x.h1 else x.h0) pos width1) (isInstr_exth high pos width1) rfl
        (fun _ => takeField_eq h pos width1)
    case ins =>
      exact computes_result (fun x => putField (x.get d) (x.get a) pos width1) (isInstr_ins pos width1) rfl
        (fun _ => putField_eq (x.get d) va pos width1)

end Sys2Proof.Proofs.EngineArithmetic
end
